-- ==== Sys2Proof/Word.lean ====
section
/-! DEFINITION. The words the module computes with. -/

namespace Sys2Proof

abbrev Byte := BitVec 8
/-- A w register. -/
abbrev W32 := BitVec 32
/-- An a register, a control register, a program counter. -/
abbrev W64 := BitVec 64
/-- A mask register m: one bit per byte of a row (R180). -/
abbrev MaskReg := BitVec 256
/-- A row of 256 bytes; byte 0 is bits [7:0] (R176). -/
abbrev Row := BitVec 2048
/-- An engine command word (R54). -/
abbrev CmdWord := BitVec 256

/-- The unit number of R398, 0 to 559. -/
abbrev UnitNo := BitVec 10
/-- A strand of a unit, 0 to 7. -/
abbrev StrandNo := BitVec 3
/-- A compute cluster of the module: die times 4 plus cluster, 0 to 31. -/
abbrev ClusterNo := BitVec 5
/-- A partition number (R343). -/
abbrev PartNo := BitVec 6
/-- A fabric sequencer context, 0 to 7 (R313). -/
abbrev SeqCtx := BitVec 3

end Sys2Proof
end

