-- ==== Sys2Proof/Syntax.lean ====
section
/-! DEFINITION. The instruction set: one constructor per row of the opcode table.
A slot instruction carries its syllable with every field taken apart; an engine
command, a sequencer word and an event carry what selects and parameterises them. -/

namespace Sys2Proof

/-- The length of a syllable (Table 2-1). -/
inductive Len where
  | s32 | l64 | x96
  deriving DecidableEq, Repr

/-- A source field (R39): a register number, or a latch. -/
inductive Src where
  | reg (n : BitVec 6)
  | latch (n : BitVec 2)
  deriving DecidableEq, Repr

/-- A guard (R43): the predicate and whether it is inverted. -/
structure Guard where
  p : BitVec 4
  neg : Bool
  deriving DecidableEq, Repr

/-- The fields of one syllable but for its major opcode, which the constructor names, and its
stop bit, which belongs to the bundle (R26). `form` is FORM = XOP * 4 + MIN (R38). -/
structure Syl where
  len : Len
  guard : Guard
  nwb : Bool
  d : BitVec 6
  s1 : Src
  s2 : Src
  s3 : Src
  form : BitVec 6
  rm : BitVec 3
  ty : BitVec 4
  mod : BitVec 8
  lit : BitVec 32
  deriving DecidableEq, Repr

/-- One of the 32 engine queues of a core (R160): number 4 * strand + engine. -/
structure QRef where
  unit : UnitNo
  queue : BitVec 5
  deriving DecidableEq, Repr

/-- The frame of an engine command word but for its opcode, and its payload (Table 2-10).
Reserved frame bits are 0 in every enqueued command (R57). -/
structure Cmd where
  rm : BitVec 3
  ftz : Bool
  sat : Bool
  awk : BitVec 2
  rsk : BitVec 2
  awb : BitVec 9
  awph : Bool
  rsb : BitVec 9
  awq : BitVec 5
  awv : BitVec 64
  pay : BitVec 128
  deriving DecidableEq, Repr

/-- Bits [59:0] of a sequencer word (R58). -/
abbrev SeqArg := BitVec 60

/-- A queue pair of a forager of the module (R400). -/
structure PairRef where
  forager : BitVec 4
  pair : BitVec 6
  deriving DecidableEq, Repr

/-- A logical link of this module: the engine's plane and the far module (R384). -/
structure LinkRef where
  engine : BitVec 2
  mdl : BitVec 6
  deriving DecidableEq, Repr

/-- The address of a queue pair as its peer sees it: module, forager, pair (R400). -/
structure PairAddr where
  mdl : BitVec 6
  forager : BitVec 4
  pair : BitVec 6
  deriving DecidableEq, Repr

/-- What a flit's payload says. The spec gives payload places for no access; this is their content:
far accesses (R129, R392), transfers of queue pairs (R405 to R407, R420) and their answers (R410),
messages between parameter nodes (R428), returns and reports of a node to a worker (R424, R426), and FEC
codes (R390). -/
inductive FabMsg where
  | none
  | load (id : Nat) (addr : BitVec 52) (bytes : Nat)
  | atomic (id : Nat) (addr : BitVec 52) (op : BitVec 4) (bytes : Nat) (x y : BitVec 64)
      (ty : BitVec 4) (mode : BitVec 3) (ftz : Bool)
  | store (id : Nat) (addr : BitVec 52) (data : List Byte)
  | posted (id : Nat) (addr : BitVec 52) (op : BitVec 4) (bytes : Nat) (x : BitVec 64)
      (ty : BitVec 4) (mode : BitVec 3) (ftz : Bool)
  | done (id : Nat)
  | value (id : Nat) (data : List Byte) (poison fwd : Bool)
  | lost (id : Nat)
  | piece (src dst : PairAddr) (n : BitVec 64) (entry : BitVec 512) (off : Nat) (data : List Byte)
      (last : Bool)
  | entryAck (dst : PairAddr) (n : BitVec 64) (status : Byte)
  | notice (part : BitVec 5) (tensor : BitVec 8) (block : BitVec 10) (step : BitVec 48)
  | ack (part : BitVec 5) (tensor : BitVec 8) (block : BitVec 10) (step : BitVec 48)
  | demote (part : BitVec 5) (tensor : BitVec 8)
  | place (part : BitVec 5) (tensor : BitVec 8) (id : Nat) (tgt : BitVec 5) (va : BitVec 64) (total off : Nat)
      (data : List Byte) (counter : BitVec 14)
  | placeAck (part : BitVec 5) (tensor : BitVec 8) (id : Nat) (status : Byte)
  | fec (code : BitVec 2)
  deriving DecidableEq, Repr

/-- A flit (R385): the header fields of Table 20-2, with its two reserved fields as one, the content,
what it was sealed with (R386), and the fibre of its fabric port (R384). `intact` is false for a flit
whose bits changed on the way. -/
structure Flit where
  fibre : BitVec 2
  type : Byte
  src : BitVec 6
  dst : BitVec 6
  hop : BitVec 6
  ks : Bool
  reserved : BitVec 61
  seq : BitVec 32
  len : Byte
  msg : FabMsg
  key : BitVec 256
  salt : BitVec 32
  counter : BitVec 64
  intact : Bool
  deriving DecidableEq, Repr

/-- A packet of Ultra Ethernet Transport as far as R395 describes it: of a message to a receive
context, or an acknowledgement of one of this module's entries. -/
inductive UetPacket where
  | data (ctx : BitVec 15) (message : Nat) (reliable : Bool) (va : BitVec 64) (off total : Nat)
      (bytes : List Byte)
  | ordered (ctx : BitVec 15) (message : Nat)
  | trimmed (ctx : BitVec 15) (message : Nat)
  | ack (p : PairRef) (n : BitVec 64)
  | error (p : PairRef) (n : BitVec 64)
  | nack (port : BitVec 4) (pdc : BitVec 14)
  | context (port : BitVec 4) (pdc : BitVec 14) (part : BitVec 5) (wnd inflight rtt base : BitVec 32) (ecn : BitVec 16)
  | receive (ctx : BitVec 15) (unit : BitVec 10) (bar : BitVec 9)
  deriving DecidableEq, Repr

/-- Where in a strand an error was found (R86). -/
inductive StrandErr where
  | register (name : Byte)
  | storeEntry (seq : Nat)
  | loadEntry (seq : Nat)
  deriving DecidableEq, Repr

/-- Where in a core an error was found (R175, R229, R250, R306). -/
inductive CoreErr where
  | corrected
  | spad (addr : BitVec 21)
  | tile (tile : BitVec 3) (row lane : BitVec 6)
  | queueEntry (q : BitVec 5) (n : BitVec 64)
  | barrier (b : BitVec 9)
  | timeline (q : BitVec 5)
  | tensor (t : BitVec 6)
  | region (r : BitVec 5)
  | slot (b : Bool) (k : BitVec 2)
  | accumulator (pp : BitVec 3)
  | counter (c : BitVec 14)
  | ring (p : PairRef)
  | tlb (va : BitVec 64)
  deriving DecidableEq, Repr

/-- Where in a cluster an error was found (R267, R306). -/
inductive ClusterErr where
  | corrected
  | pinned (off : BitVec 26)
  | cleanLine
  | dirtyLine (addr : BitVec 52)
  | pair (core : BitVec 4)
  | group (g : BitVec 2)
  | tlb (va : BitVec 64)
  deriving DecidableEq, Repr

/-- What was found at the homes: a corrected error, or an uncorrectable one of a line, of a die's walk-cache
entry, or of the directory record of a table page (R284, R306). -/
inductive MemErr where
  | corrected
  | line (addr : BitVec 52)
  | walkEntry (die : BitVec 4) (level : BitVec 3) (va : BitVec 64)
  | record (page : BitVec 52)
  deriving DecidableEq, Repr

/-- What the boot ROM finds (R437, R438): the image's header, the dies that pass screening, the ports
that calibrate badly, the expansion memory attached, and the digests it measures. -/
structure BootInfo where
  key : BitVec 768
  imageDigest : BitVec 384
  headerDigest : BitVec 384
  version : BitVec 32
  signature : BitVec 768
  dies : BitVec 8
  farDies : BitVec 2
  badPorts : BitVec 80
  cxl0 : BitVec 43
  cxl1 : BitVec 43
  measured : BitVec 384
  microcode : BitVec 384
  screening : BitVec 384
  deriving DecidableEq, Repr

/-- What the temperature sensors read, in C: the hottest die, and the inlet (R436). -/
structure Heat where
  die : BitVec 8
  inlet : BitVec 8
  deriving DecidableEq, Repr

/-- The 1 ms power in W, and the temperatures (R436). -/
structure PowerSample where
  watts : BitVec 16
  heat : Heat
  deriving DecidableEq, Repr

/-- A move that ends, for an error of the migration engine or not (R281, R284). -/
structure MoveEnd where
  move : Nat
  engineError : Bool
  deriving DecidableEq, Repr

/-- One constructor per row of the opcode table, in its order. -/
inductive Instr where
  /-- NOP, R51. No operation; invalidates latch L0. -/
  | nop (y : Syl)
  /-- MOV, R90. A-slot move of a w register or literal to a w register. -/
  | mov (y : Syl)
  /-- MOV_B, R92. B-slot move of a w register or literal to a w register. -/
  | movB (y : Syl)
  /-- SEL, R92. Selects one of two w operands by a predicate. -/
  | sel (y : Syl)
  /-- MOVA, R90. Moves an a register or sign-extended literal to an a register. -/
  | mova (y : Syl)
  /-- MOVHA, R90. Writes the high 32 bits of an a register from a literal. -/
  | movha (y : Syl)
  /-- SXW, R90. Sign-extends a w register into an a register. -/
  | sxw (y : Syl)
  /-- ZXW, R90. Zero-extends a w register into an a register. -/
  | zxw (y : Syl)
  /-- MOVAW, R90. Moves the low half of an a register to a w register. -/
  | movaw (y : Syl)
  /-- MOVAWH, R90. Moves the high half of an a register to a w register. -/
  | movawh (y : Syl)
  /-- MOVPW, R90. Moves a predicate to a w register. -/
  | movpw (y : Syl)
  /-- MOVWP, R90. Sets a predicate from a nonzero w register. -/
  | movwp (y : Syl)
  /-- RDP, R90. Reads all predicates into a w register. -/
  | rdp (y : Syl)
  /-- WRP, R91. Writes predicates p1-p15 from a w register. -/
  | wrp (y : Syl)
  /-- MOVREP, R90. Reads the current REP iteration index. -/
  | movrep (y : Syl)
  /-- LEA, R90. Forms a PC-relative address in an a register. -/
  | lea (y : Syl)
  /-- ADD, R93. A-slot element-wise integer add, optionally saturating. -/
  | add (y : Syl)
  /-- SUB, R93. A-slot element-wise integer subtract. -/
  | sub (y : Syl)
  /-- MIN, R93. A-slot element-wise integer minimum. -/
  | min (y : Syl)
  /-- MAX, R93. A-slot element-wise integer maximum. -/
  | max (y : Syl)
  /-- ABSD, R93. A-slot element-wise absolute difference. -/
  | absd (y : Syl)
  /-- ABS, R93. A-slot element-wise absolute value. -/
  | abs (y : Syl)
  /-- ADD_B, R93. B-slot element-wise integer add. -/
  | addB (y : Syl)
  /-- SUB_B, R93. B-slot element-wise integer subtract. -/
  | subB (y : Syl)
  /-- MIN_B, R93. B-slot element-wise integer minimum. -/
  | minB (y : Syl)
  /-- MAX_B, R93. B-slot element-wise integer maximum. -/
  | maxB (y : Syl)
  /-- ABSD_B, R93. B-slot element-wise absolute difference. -/
  | absdB (y : Syl)
  /-- ABS_B, R93. B-slot element-wise absolute value. -/
  | absB (y : Syl)
  /-- MUL, R94. A-slot element-wise multiply, low bits or saturated. -/
  | mul (y : Syl)
  /-- MULH, R94. A-slot element-wise multiply, high bits. -/
  | mulh (y : Syl)
  /-- MAD, R94. A-slot element-wise multiply-add. -/
  | mad (y : Syl)
  /-- MUL_B, R94. B-slot element-wise multiply. -/
  | mulB (y : Syl)
  /-- MULH_B, R94. B-slot element-wise multiply high. -/
  | mulhB (y : Syl)
  /-- MAD_B, R94. B-slot element-wise multiply-add. -/
  | madB (y : Syl)
  /-- AND, R95. A-slot bitwise AND. -/
  | and (y : Syl)
  /-- OR, R95. A-slot bitwise OR. -/
  | or (y : Syl)
  /-- XOR, R95. A-slot bitwise XOR. -/
  | xor (y : Syl)
  /-- ANDN, R95. A-slot bitwise AND-NOT. -/
  | andn (y : Syl)
  /-- NOT, R95. A-slot bitwise NOT. -/
  | not (y : Syl)
  /-- AND_B, R95. B-slot bitwise AND. -/
  | andB (y : Syl)
  /-- OR_B, R95. B-slot bitwise OR. -/
  | orB (y : Syl)
  /-- XOR_B, R95. B-slot bitwise XOR. -/
  | xorB (y : Syl)
  /-- ANDN_B, R95. B-slot bitwise AND-NOT. -/
  | andnB (y : Syl)
  /-- NOT_B, R95. B-slot bitwise NOT. -/
  | notB (y : Syl)
  /-- SHL, R96. A-slot element-wise shift left. -/
  | shl (y : Syl)
  /-- SHR, R96. A-slot element-wise shift right. -/
  | shr (y : Syl)
  /-- ROL, R96. A-slot element-wise rotate left. -/
  | rol (y : Syl)
  /-- ROR, R96. A-slot element-wise rotate right. -/
  | ror (y : Syl)
  /-- SHL_B, R96. B-slot element-wise shift left. -/
  | shlB (y : Syl)
  /-- SHR_B, R96. B-slot element-wise shift right. -/
  | shrB (y : Syl)
  /-- ROL_B, R96. B-slot element-wise rotate left. -/
  | rolB (y : Syl)
  /-- ROR_B, R96. B-slot element-wise rotate right. -/
  | rorB (y : Syl)
  /-- EXT, R98. Extracts a bit field. -/
  | ext (y : Syl)
  /-- INS, R98. Inserts a bit field into the destination. -/
  | ins (y : Syl)
  /-- CLZ, R97. Counts leading zeros per element. -/
  | clz (y : Syl)
  /-- CTZ, R97. Counts trailing zeros per element. -/
  | ctz (y : Syl)
  /-- POPC, R97. Counts one bits per element. -/
  | popc (y : Syl)
  /-- BREV, R97. Reverses bits of each element. -/
  | brev (y : Syl)
  /-- CMPEQ, R99. A-slot integer equality compare to a predicate. -/
  | cmpeq (y : Syl)
  /-- CMPNE, R99. A-slot integer inequality compare. -/
  | cmpne (y : Syl)
  /-- CMPLT, R99. A-slot integer less-than compare. -/
  | cmplt (y : Syl)
  /-- CMPLE, R99. A-slot integer less-or-equal compare. -/
  | cmple (y : Syl)
  /-- CMPGT, R99. A-slot integer greater-than compare. -/
  | cmpgt (y : Syl)
  /-- CMPGE, R99. A-slot integer greater-or-equal compare. -/
  | cmpge (y : Syl)
  /-- TEST, R99. A-slot test of AND nonzero into a predicate. -/
  | test (y : Syl)
  /-- CMPEQ_B, R99. B-slot integer equality compare. -/
  | cmpeqB (y : Syl)
  /-- CMPNE_B, R99. B-slot integer inequality compare. -/
  | cmpneB (y : Syl)
  /-- CMPLT_B, R99. B-slot integer less-than compare. -/
  | cmpltB (y : Syl)
  /-- CMPLE_B, R99. B-slot integer less-or-equal compare. -/
  | cmpleB (y : Syl)
  /-- CMPGT_B, R99. B-slot integer greater-than compare. -/
  | cmpgtB (y : Syl)
  /-- CMPGE_B, R99. B-slot integer greater-or-equal compare. -/
  | cmpgeB (y : Syl)
  /-- TEST_B, R99. B-slot bit test into a predicate. -/
  | testB (y : Syl)
  /-- PAND, R100. Predicate AND. -/
  | pand (y : Syl)
  /-- POR, R100. Predicate OR. -/
  | por (y : Syl)
  /-- PXOR, R100. Predicate XOR. -/
  | pxor (y : Syl)
  /-- PANDN, R100. Predicate AND-NOT. -/
  | pandn (y : Syl)
  /-- PNOT, R100. Predicate NOT. -/
  | pnot (y : Syl)
  /-- AADD, R101. 64-bit address add. -/
  | aadd (y : Syl)
  /-- ASUB, R101. 64-bit address subtract. -/
  | asub (y : Syl)
  /-- AIDX, R101. Adds a scaled sign-extended index to an address. -/
  | aidx (y : Syl)
  /-- AAND, R101. 64-bit address AND. -/
  | aand (y : Syl)
  /-- ACMPEQ, R101. Address equality compare to a predicate. -/
  | acmpeq (y : Syl)
  /-- ACMPNE, R101. Address inequality compare. -/
  | acmpne (y : Syl)
  /-- ACMPLT, R101. Address unsigned less-than compare. -/
  | acmplt (y : Syl)
  /-- ACMPGE, R101. Address unsigned greater-or-equal compare. -/
  | acmpge (y : Syl)
  /-- BR, R109. Relative branch, conditional when guarded. -/
  | br (y : Syl)
  /-- CALL, R110. Relative call keeping a link. -/
  | call (y : Syl)
  /-- CALLR, R110. Register call keeping a link. -/
  | callr (y : Syl)
  /-- JR, R110. Register jump, also written ret. -/
  | jr (y : Syl)
  /-- LOOP, R111. Loads a hardware loop level. -/
  | loop (y : Syl)
  /-- REP, R112. Repeats the following bundle a counted number of times. -/
  | rep (y : Syl)
  /-- YIELD, R114. Ends the issue run unless the next bundle reads a latch. -/
  | yield (y : Syl)
  /-- HALT, R115. Halts the strand without status. -/
  | halt (y : Syl)
  /-- EXIT, R115. Halts the strand reporting status 0. -/
  | exit (y : Syl)
  /-- EXIT_STATUS, R115. Halts the strand reporting a w register status. -/
  | exitStatus (y : Syl)
  /-- FADD, R103. Scalar floating add. -/
  | fadd (y : Syl)
  /-- FSUB, R103. Scalar floating subtract. -/
  | fsub (y : Syl)
  /-- FMUL, R103. Scalar floating multiply. -/
  | fmul (y : Syl)
  /-- FABS, R103. Scalar floating absolute value. -/
  | fabs (y : Syl)
  /-- FNEG, R103. Scalar floating negate. -/
  | fneg (y : Syl)
  /-- FMA, R104. Fused multiply-add. -/
  | fma (y : Syl)
  /-- FMS, R104. Fused multiply-subtract. -/
  | fms (y : Syl)
  /-- FNMA, R104. Negated fused multiply-add. -/
  | fnma (y : Syl)
  /-- FNMS, R104. Negated fused multiply-subtract. -/
  | fnms (y : Syl)
  /-- FCMPEQ, R105. Floating equality compare to a predicate. -/
  | fcmpeq (y : Syl)
  /-- FCMPNE, R105. Floating not-equal or unordered compare. -/
  | fcmpne (y : Syl)
  /-- FCMPLT, R105. Floating less-than compare. -/
  | fcmplt (y : Syl)
  /-- FCMPLE, R105. Floating less-or-equal compare. -/
  | fcmple (y : Syl)
  /-- FCMPGT, R105. Floating greater-than compare. -/
  | fcmpgt (y : Syl)
  /-- FCMPGE, R105. Floating greater-or-equal compare. -/
  | fcmpge (y : Syl)
  /-- FMIN, R106. Floating minimum selection. -/
  | fmin (y : Syl)
  /-- FMAX, R106. Floating maximum selection. -/
  | fmax (y : Syl)
  /-- CVT, R107. Scalar format conversion. -/
  | cvt (y : Syl)
  /-- FRCP, R108. Reciprocal estimate defined to the bit. -/
  | frcp (y : Syl)
  /-- FRSQ, R108. Reciprocal square-root estimate. -/
  | frsq (y : Syl)
  /-- LD_L, R124. Scratchpad load into a w or a register. -/
  | ldL (y : Syl)
  /-- LD_ACQ_L, R124. Scratchpad load followed by a marker. -/
  | ldAcqL (y : Syl)
  /-- LD_G, R124. Global load into a w or a register. -/
  | ldG (y : Syl)
  /-- LD_ACQ_G, R124. Global load followed by a marker. -/
  | ldAcqG (y : Syl)
  /-- ST_L, R125. Scratchpad store. -/
  | stL (y : Syl)
  /-- ST_REL_L, R125. Marker then scratchpad store. -/
  | stRelL (y : Syl)
  /-- ST_G, R125. Global store. -/
  | stG (y : Syl)
  /-- ST_REL_G, R125. Marker then global store. -/
  | stRelG (y : Syl)
  /-- PREF_G, R127. Prefetches a global line for reading. -/
  | prefG (y : Syl)
  /-- PREFW_G, R127. Prefetches a global line with write ownership. -/
  | prefwG (y : Syl)
  /-- PREF_L, R127. Starts the fill of a region block. -/
  | prefL (y : Syl)
  /-- QALIGN, R128. Places a marker in both queues. -/
  | qalign (y : Syl)
  /-- FENCE_CORE, R128. Core-scope fence, as QALIGN. -/
  | fenceCore (y : Syl)
  /-- FENCE_CLUS, R128. Cluster-scope fence, as QALIGN. -/
  | fenceClus (y : Syl)
  /-- FENCE_DIE, R128. Die-scope fence, as QALIGN. -/
  | fenceDie (y : Syl)
  /-- FENCE_PKG, R128. Package-scope fence, as QALIGN. -/
  | fencePkg (y : Syl)
  /-- FENCE_POD, R129. Marker that also waits for far stores and far loads. -/
  | fencePod (y : Syl)
  /-- ATOM_ADD, R131. Atomic integer add returning the old value. -/
  | atomAdd (y : Syl)
  /-- ATOM_AND, R131. Atomic AND returning the old value. -/
  | atomAnd (y : Syl)
  /-- ATOM_OR, R131. Atomic OR returning the old value. -/
  | atomOr (y : Syl)
  /-- ATOM_XOR, R131. Atomic XOR returning the old value. -/
  | atomXor (y : Syl)
  /-- ATOM_MIN, R131. Atomic minimum returning the old value. -/
  | atomMin (y : Syl)
  /-- ATOM_MAX, R131. Atomic maximum returning the old value. -/
  | atomMax (y : Syl)
  /-- ATOM_SWP, R131. Atomic swap. -/
  | atomSwp (y : Syl)
  /-- ATOM_CAS, R131. Atomic compare-and-swap. -/
  | atomCas (y : Syl)
  /-- ATOM_FADD, R131. Atomic floating add returning the old value. -/
  | atomFadd (y : Syl)
  /-- RED_ADD, R132. Posted atomic add. -/
  | redAdd (y : Syl)
  /-- RED_AND, R132. Posted atomic AND. -/
  | redAnd (y : Syl)
  /-- RED_OR, R132. Posted atomic OR. -/
  | redOr (y : Syl)
  /-- RED_XOR, R132. Posted atomic XOR. -/
  | redXor (y : Syl)
  /-- RED_MIN, R132. Posted atomic minimum. -/
  | redMin (y : Syl)
  /-- RED_MAX, R132. Posted atomic maximum. -/
  | redMax (y : Syl)
  /-- RED_FADD, R132. Posted atomic floating add. -/
  | redFadd (y : Syl)
  /-- TRAP, R136. Raises SOFTWARE-TRAP with a code. -/
  | trap (y : Syl)
  /-- RETT, R137. Returns from a trap handler restoring state from the frame. -/
  | rett (y : Syl)
  /-- RDTIME, R139. Reads package time. -/
  | rdtime (y : Syl)
  /-- RDCYC, R139. Reads the core cycle counter. -/
  | rdcyc (y : Syl)
  /-- RDSR, R138. Reads a control register. -/
  | rdsr (y : Syl)
  /-- WRSR, R138. Writes a control register that has no row of its own. -/
  | wrsr (y : Syl)
  /-- RDWID, R140. Reads the work identifier. -/
  | rdwid (y : Syl)
  /-- RDWF, R140. Reads one field of the work identifier. -/
  | rdwf (y : Syl)
  /-- RDWFL, R140. Reads the width and level of a work-identifier field. -/
  | rdwfl (y : Syl)
  /-- LOCQ, R141. Returns the locality word of an address. -/
  | locq (y : Syl)
  /-- SLEEPTO, R143. Blocks until the cycle counter reaches a time. -/
  | sleepto (y : Syl)
  /-- SLEEPTO_CP0, R143. Sleeps to a promised time, then checks the CP0 timeline. -/
  | sleeptoCp0 (y : Syl)
  /-- SLEEPTO_CP1, R143. Sleeps to a promised time, then checks the CP1 timeline. -/
  | sleeptoCp1 (y : Syl)
  /-- REGSYNC, R145. Writes back the dirty blocks of a region. -/
  | regsync (y : Syl)
  /-- REGINV, R146. Discards the filled blocks of a region. -/
  | reginv (y : Syl)
  /-- BINIT, R172. Initialises a barrier count. -/
  | binit (y : Syl)
  /-- BARR, R172. Arrives at a local or remote barrier. -/
  | barr (y : Syl)
  /-- BWAIT, R172. Blocks until a barrier phase is complete. -/
  | bwait (y : Syl)
  /-- BTEST, R172. Tests a barrier phase into a predicate. -/
  | btest (y : Syl)
  /-- BRD, R172. Reads barrier arrivals and phase. -/
  | brd (y : Syl)
  /-- ENQ, R164. Copies a command word into one of the strand's engine queues. -/
  | enq (y : Syl)
  /-- ENQP, R166. Enqueues a command after patching words from registers. -/
  | enqp (y : Syl)
  /-- TLRD, R167. Reads a queue timeline. -/
  | tlrd (y : Syl)
  /-- TLWAIT, R167. Blocks until a timeline reaches a value, then acquires. -/
  | tlwait (y : Syl)
  /-- TLFLT, R167. Reads a queue fault word. -/
  | tlflt (y : Syl)
  /-- TLFLTC, R167. Reads and clears a queue fault word, releasing the queue. -/
  | tlfltc (y : Syl)
  /-- STATRD, R159. Reads a tile status register. -/
  | statrd (y : Syl)
  /-- STATRDC, R159. Reads a tile status and clears NAN and OVF. -/
  | statrdc (y : Syl)
  /-- VWIN, R157. Sets the strand's vector window tile. -/
  | vwin (y : Syl)
  /-- VWIN_REG, R157. Sets the vector window from a w register. -/
  | vwinReg (y : Syl)
  /-- SGRP, R260. Joins a statically synchronised group. -/
  | sgrp (y : Syl)
  /-- SGLEAVE, R260. Leaves the group. -/
  | sgleave (y : Syl)
  /-- SGSYNC, R261. Parks the member until all members park. -/
  | sgsync (y : Syl)
  /-- SGRD, R259. Reads the group schedule counter. -/
  | sgrd (y : Syl)
  /-- TLBINV_VA, R300. Invalidates translations of one address. -/
  | tlbinvVa (y : Syl)
  /-- TLBINV_TBL, R300. Invalidates translations derived from a table page. -/
  | tlbinvTbl (y : Syl)
  /-- TLBINV_ALL, R300. Invalidates all translations of the partition. -/
  | tlbinvAll (y : Syl)
  /-- TLBWAIT, R302. Blocks until TLBINVs up to a number complete. -/
  | tlbwait (y : Syl)
  /-- XLAT, R303. Translates an address as a read. -/
  | xlat (y : Syl)
  /-- XLAT_W, R303. Translates an address as a write. -/
  | xlatW (y : Syl)
  /-- XLAT_X, R303. Translates an address as a fetch. -/
  | xlatX (y : Syl)
  /-- WPKR, R304. Writes the protection-key register. -/
  | wpkr (y : Syl)
  /-- RPKR, R304. Reads the protection-key register. -/
  | rpkr (y : Syl)
  /-- MIGHINT, R282. Requests migration of a page to a home. -/
  | mighint (y : Syl)
  /-- CIRCWAIT, R332. Blocks until a circuit handle settles, then reports liveness. -/
  | circwait (y : Syl)
  /-- CIRCQ, R333. Returns a circuit handle word. -/
  | circq (y : Syl)
  /-- LAUNCH, R355. Launches a task graph and returns a ticket. -/
  | launch (y : Syl)
  /-- LNSTAT, R358. Returns the state of a launch ticket. -/
  | lnstat (y : Syl)
  /-- QPOST, R413. Posts a work entry to a queue pair. -/
  | qpost (y : Syl)
  /-- QARM, R414. Arms queue-pair entries up to an index. -/
  | qarm (y : Syl)
  /-- CNTRD, R412. Reads a counter. -/
  | cntrd (y : Syl)
  /-- CNTWAIT, R415. Blocks until a counter reaches a value, then acquires. -/
  | cntwait (y : Syl)
  /-- CNTADD, R415. Raises a counter after earlier stores. -/
  | cntadd (y : Syl)
  /-- PNCFG, R431. Configures a parameter tensor. -/
  | pncfg (y : Syl)
  /-- PNSTAT, R432. Returns a parameter tensor snapshot. -/
  | pnstat (y : Syl)
  /-- VFADD, R183. Vector floating add. -/
  | vfadd (y : Syl)
  /-- VFSUB, R183. Vector floating subtract. -/
  | vfsub (y : Syl)
  /-- VFMUL, R183. Vector floating multiply. -/
  | vfmul (y : Syl)
  /-- VFABS, R183. Vector floating absolute value. -/
  | vfabs (y : Syl)
  /-- VFMA, R183. Vector fused multiply-add. -/
  | vfma (y : Syl)
  /-- VFMS, R183. Vector fused multiply-subtract. -/
  | vfms (y : Syl)
  /-- VFNMA, R183. Vector negated fused multiply-add. -/
  | vfnma (y : Syl)
  /-- VFNMS, R183. Vector negated fused multiply-subtract. -/
  | vfnms (y : Syl)
  /-- VFMIN, R183. Vector floating minimum. -/
  | vfmin (y : Syl)
  /-- VFMAX, R183. Vector floating maximum. -/
  | vfmax (y : Syl)
  /-- VFNEG, R183. Vector floating negate. -/
  | vfneg (y : Syl)
  /-- VADD, R184. Vector integer add. -/
  | vadd (y : Syl)
  /-- VSUB, R184. Vector integer subtract. -/
  | vsub (y : Syl)
  /-- VMIN, R184. Vector integer minimum. -/
  | vmin (y : Syl)
  /-- VMAX, R184. Vector integer maximum. -/
  | vmax (y : Syl)
  /-- VMUL, R184. Vector integer multiply. -/
  | vmul (y : Syl)
  /-- VMULH, R184. Vector integer multiply high. -/
  | vmulh (y : Syl)
  /-- VMAD, R184. Vector integer multiply-add. -/
  | vmad (y : Syl)
  /-- VABSD, R184. Vector absolute difference. -/
  | vabsd (y : Syl)
  /-- VABS, R184. Vector integer absolute value. -/
  | vabs (y : Syl)
  /-- VAND, R185. Vector bitwise AND. -/
  | vand (y : Syl)
  /-- VOR, R185. Vector bitwise OR. -/
  | vor (y : Syl)
  /-- VXOR, R185. Vector bitwise XOR. -/
  | vxor (y : Syl)
  /-- VANDN, R185. Vector bitwise AND-NOT. -/
  | vandn (y : Syl)
  /-- VNOT, R185. Vector bitwise NOT. -/
  | vnot (y : Syl)
  /-- VSHL, R185. Vector shift left. -/
  | vshl (y : Syl)
  /-- VSHR, R185. Vector shift right. -/
  | vshr (y : Syl)
  /-- VROL, R185. Vector rotate left. -/
  | vrol (y : Syl)
  /-- VROR, R185. Vector rotate right. -/
  | vror (y : Syl)
  /-- VCMPEQ, R186. Vector integer equality compare to a mask. -/
  | vcmpeq (y : Syl)
  /-- VCMPNE, R186. Vector integer inequality compare. -/
  | vcmpne (y : Syl)
  /-- VCMPLT, R186. Vector integer less-than compare. -/
  | vcmplt (y : Syl)
  /-- VCMPLE, R186. Vector integer less-or-equal compare. -/
  | vcmple (y : Syl)
  /-- VCMPGT, R186. Vector integer greater-than compare. -/
  | vcmpgt (y : Syl)
  /-- VCMPGE, R186. Vector integer greater-or-equal compare. -/
  | vcmpge (y : Syl)
  /-- VTEST, R186. Vector bit test to a mask. -/
  | vtest (y : Syl)
  /-- VFCMPEQ, R186. Vector floating equality compare. -/
  | vfcmpeq (y : Syl)
  /-- VFCMPNE, R186. Vector floating not-equal compare. -/
  | vfcmpne (y : Syl)
  /-- VFCMPLT, R186. Vector floating less-than compare. -/
  | vfcmplt (y : Syl)
  /-- VFCMPLE, R186. Vector floating less-or-equal compare. -/
  | vfcmple (y : Syl)
  /-- VFCMPGT, R186. Vector floating greater-than compare. -/
  | vfcmpgt (y : Syl)
  /-- VFCMPGE, R186. Vector floating greater-or-equal compare. -/
  | vfcmpge (y : Syl)
  /-- VSEL, R186. Selects lanes of two rows by a mask. -/
  | vsel (y : Syl)
  /-- VCVT, R189. Converts a row between formats, part by part. -/
  | vcvt (y : Syl)
  /-- VRCP, R190. Vector reciprocal estimate. -/
  | vrcp (y : Syl)
  /-- VRSQ, R190. Vector reciprocal square-root estimate. -/
  | vrsq (y : Syl)
  /-- VEXP2, R190. Vector base-2 exponential estimate. -/
  | vexp2 (y : Syl)
  /-- VLOG2, R190. Vector base-2 logarithm estimate. -/
  | vlog2 (y : Syl)
  /-- VTANH, R190. Vector hyperbolic tangent estimate. -/
  | vtanh (y : Syl)
  /-- VREDSUM, R191. Tree sum reduction of a row to a w register. -/
  | vredsum (y : Syl)
  /-- VREDMIN, R191. Minimum reduction of a row. -/
  | vredmin (y : Syl)
  /-- VREDMAX, R191. Maximum reduction of a row. -/
  | vredmax (y : Syl)
  /-- VSCANSUM, R192. Prefix sum scan of a row. -/
  | vscansum (y : Syl)
  /-- VSCANMIN, R192. Prefix minimum scan of a row. -/
  | vscanmin (y : Syl)
  /-- VSCANMAX, R192. Prefix maximum scan of a row. -/
  | vscanmax (y : Syl)
  /-- VCOMP, R193. Packs active lanes and writes their count. -/
  | vcomp (y : Syl)
  /-- VEXPD, R194. Expands packed lanes to active positions. -/
  | vexpd (y : Syl)
  /-- VPERM, R195. Permutes lanes by an index row. -/
  | vperm (y : Syl)
  /-- VROTR, R195. Rotates lanes across the row. -/
  | vrotr (y : Syl)
  /-- VZIPL, R195. Interleaves low halves of two rows. -/
  | vzipl (y : Syl)
  /-- VZIPH, R195. Interleaves high halves of two rows. -/
  | vziph (y : Syl)
  /-- VUZPE, R195. De-interleaves even lanes. -/
  | vuzpe (y : Syl)
  /-- VUZPO, R195. De-interleaves odd lanes. -/
  | vuzpo (y : Syl)
  /-- VSPLAT, R196. Broadcasts a scalar to every lane. -/
  | vsplat (y : Syl)
  /-- VIOTA, R196. Fills lanes with an increasing sequence. -/
  | viota (y : Syl)
  /-- VRAND, R198. Fills a row from the counter-based generator. -/
  | vrand (y : Syl)
  /-- VLD, R201. Loads a 256-byte row. -/
  | vld (y : Syl)
  /-- VST, R201. Stores a 256-byte row. -/
  | vst (y : Syl)
  /-- VSTM, R200. Stores the enabled bytes of a row under a mask. -/
  | vstm (y : Syl)
  /-- VEXT, R199. Extracts one lane to a w register. -/
  | vext (y : Syl)
  /-- VINS, R199. Inserts a w register into one lane. -/
  | vins (y : Syl)
  /-- VMOV, R199. Moves a row through a lane pattern. -/
  | vmov (y : Syl)
  /-- MAND, R203. Mask AND. -/
  | mand (y : Syl)
  /-- MOR, R203. Mask OR. -/
  | mor (y : Syl)
  /-- MXOR, R203. Mask XOR. -/
  | mxor (y : Syl)
  /-- MANDN, R203. Mask AND-NOT. -/
  | mandn (y : Syl)
  /-- MNOT, R203. Mask NOT. -/
  | mnot (y : Syl)
  /-- MFIRST, R203. Makes the first k lanes active. -/
  | mfirst (y : Syl)
  /-- MCNT, R203. Counts active lanes of a mask. -/
  | mcnt (y : Syl)
  /-- PPSET, R242. Appends an operation setting an accumulator to a constant. -/
  | ppset (y : Syl)
  /-- PPDEG, R243. Appends an operation setting the truncation degree. -/
  | ppdeg (y : Syl)
  /-- PPMUL, R244. Appends one linear factor to an accumulator. -/
  | ppmul (y : Syl)
  /-- PPMULV, R244. Appends one factor per active lane. -/
  | ppmulv (y : Syl)
  /-- PPDIV, R245. Appends a factor removal. -/
  | ppdiv (y : Syl)
  /-- PPMRG, R246. Appends a merge of one accumulator into another. -/
  | ppmrg (y : Syl)
  /-- PPSCL, R247. Appends a change of the scale exponent. -/
  | ppscl (y : Syl)
  /-- PPRD, R248. Reads the coefficients into a row. -/
  | pprd (y : Syl)
  /-- PPRDX, R248. Reads the scale exponent. -/
  | pprdx (y : Syl)
  /-- PPRDST, R248. Reads the accumulator status word. -/
  | pprdst (y : Syl)
  /-- PPWR, R249. Appends a whole-state load of an accumulator. -/
  | ppwr (y : Syl)
  /-- PPA_APPLY_FACTOR, R236. The PPA applies a queued factor to an accumulator. -/
  | ppaApplyFactor (u : UnitNo) (pp : BitVec 3)
  /-- PPA_APPLY_MERGE, R238. The PPA applies a queued merge. -/
  | ppaApplyMerge (u : UnitNo) (pp : BitVec 3)
  /-- PPA_APPLY_REMOVE, R240. The PPA applies a queued factor removal. -/
  | ppaApplyRemove (u : UnitNo) (pp : BitVec 3)
  /-- PPA_APPLY_SET, R233. The PPA applies a queued PPSET, PPDEG, PPSCL or PPWR. -/
  | ppaApplySet (u : UnitNo) (pp : BitVec 3)
  /-- MMA, R210. Matrix step from FIFO slots into a tile. -/
  | mma (q : QRef) (c : Cmd)
  /-- MMAS, R211. 2:4 sparse matrix step. -/
  | mmas (q : QRef) (c : Cmd)
  /-- MZERO, R214. Fills a tile with a pattern. -/
  | mzero (q : QRef) (c : Cmd)
  /-- MLOAD, R215. Loads a tensor window into a tile. -/
  | mload (q : QRef) (c : Cmd)
  /-- MDRAIN, R216. Drains a tile window into a tensor. -/
  | mdrain (q : QRef) (c : Cmd)
  /-- PACC, R263. Paired accumulate of two cores' tiles. -/
  | pacc (q : QRef) (c : Cmd)
  /-- COPY, R221. Copies bytes between memories. -/
  | copy (q : QRef) (c : Cmd)
  /-- FEED, R219. Fills operand FIFO slots from a tensor. -/
  | feed (q : QRef) (c : Cmd)
  /-- FEEDM, R220. FEED with a pending follow-on MX command. -/
  | feedm (q : QRef) (c : Cmd)
  /-- SEND, R336. Copies scratchpad bytes over a circuit. -/
  | send (q : QRef) (c : Cmd)
  /-- GATHER, R225. Gathers indexed elements into a packed array. -/
  | gather (q : QRef) (c : Cmd)
  /-- SCATTER, R225. Scatters packed elements to indexed places. -/
  | scatter (q : QRef) (c : Cmd)
  /-- NOTIFY, R226. Completes after earlier commands, optionally storing a flag. -/
  | notify (q : QRef) (c : Cmd)
  /-- COMMAND_COMPLETE, R162. A command completes: writes visible, timeline rises, RSK arrival. -/
  | commandComplete (q : QRef)
  /-- CHAIN_TIMEOUT, R212. An open chain's next command is not ready within 64 cc; engine returns to round robin. -/
  | chainTimeout (q : QRef)
  /-- PACC_DATA, R264. A partner's tile arrives at the pair buffer. -/
  | paccData (u : UnitNo)
  /-- PACC_COMMIT, R264. Higher side receives COMMIT and writes the sum. -/
  | paccCommit (u : UnitNo)
  /-- PACC_MISMATCH, R264. Higher side receives MISMATCH. -/
  | paccMismatch (u : UnitNo)
  /-- PACC_ABORT, R264. Higher side receives ABORT. -/
  | paccAbort (u : UnitNo)
  /-- PACC_WITHDRAW, R264. Lower side receives WITHDRAW. -/
  | paccWithdraw (u : UnitNo)
  /-- PACC_CLOSED, R264. Lower side receives CLOSED and clears the aborted mark. -/
  | paccClosed (u : UnitNo)
  /-- PACC_FAULTED, R264. A side receives FAULTED from its partner. -/
  | paccFaulted (u : UnitNo)
  /-- PACC_PARKED, R266. A saved side's pair unit answers PARKED. -/
  | paccParked (u : UnitNo)
  /-- PAIR_TIMEOUT_LOWER, R264. Lower side's PAIRTO expires without DATA; sends ABORT. -/
  | pairTimeoutLower (u : UnitNo)
  /-- PAIR_TIMEOUT_HIGHER, R264. Higher side's PAIRTO expires without COMMIT; sends WITHDRAW. -/
  | pairTimeoutHigher (u : UnitNo)
  /-- RUN_START, R71. After the 2 cc gap the core begins a run of the next READY strand. -/
  | runStart (u : UnitNo)
  /-- QUANTUM_END, R73. A run ends at its 512-bundle quantum or the latch-keeping limit. -/
  | quantumEnd (u : UnitNo)
  /-- STRAND_WAKE, R72. A blocked strand's condition is met and it becomes READY. -/
  | strandWake (u : UnitNo) (k : StrandNo)
  /-- TRAP_ENTRY, R83. Trap entry writes the frame and jumps to the handler. -/
  | trapEntry (u : UnitNo) (k : StrandNo)
  /-- LOAD_PERFORM, R120. A queued load performs and writes its destination and latch. -/
  | loadPerform (u : UnitNo) (k : StrandNo)
  /-- STORE_VISIBLE, R81. A queued store becomes visible to all observers. -/
  | storeVisible (u : UnitNo) (k : StrandNo)
  /-- ATOMIC_PERFORM, R131. An atomic with a result performs at its execution site. -/
  | atomicPerform (u : UnitNo) (k : StrandNo)
  /-- POSTED_ATOMIC_PERFORM, R132. A posted atomic performs its read-modify-write at the site. -/
  | postedAtomicPerform (u : UnitNo) (k : StrandNo)
  /-- FAR_STORE_ARRIVE, R368. A far store arrives at its home on the destination module. -/
  | farStoreArrive (m : BitVec 6)
  /-- REGION_FILL, R150. A region block is filled from global memory. -/
  | regionFill (u : UnitNo) (region : BitVec 5) (block : BitVec 9)
  /-- REGSYNC_WRITEBACK, R145. A dirty region block's write-back becomes visible. -/
  | regsyncWriteback (u : UnitNo) (k : StrandNo)
  /-- BARR_ARRIVAL, R171. A strand's barrier arrival takes effect after earlier stores. -/
  | barrArrival (u : UnitNo) (k : StrandNo)
  /-- BINIT_EFFECT, R171. A BINIT takes effect at the barrier in store-queue order. -/
  | binitEffect (u : UnitNo) (k : StrandNo)
  /-- CNTADD_RAISE, R410. A CNTADD raise takes effect after earlier stores. -/
  | cntaddRaise (u : UnitNo) (k : StrandNo)
  /-- QARM_EFFECT, R414. A QARM raises ARMLIM in store-queue order. -/
  | qarmEffect (u : UnitNo) (k : StrandNo)
  /-- CMDAREA_WRITE, R148. Write of sys.CMDAREA with range checks. -/
  | cmdareaWrite (u : UnitNo) (k : StrandNo) (v : BitVec 64)
  /-- REGION_ENTRY_WRITE, R149. Write of sys.RGNLO or sys.RGNHI with validity checks. -/
  | regionEntryWrite (u : UnitNo) (k : StrandNo) (region : BitVec 5) (high : Bool) (v : BitVec 64)
  /-- MXPOS_WRITE, R206. Write of FIFO read positions, refused unless every slot is EMPTY. -/
  | mxposWrite (u : UnitNo) (k : StrandNo) (v : BitVec 64)
  /-- SLCFG_WRITE, R252. Write of the pinned size starts a slice split change. -/
  | slcfgWrite (u : UnitNo) (k : StrandNo) (v : BitVec 64)
  /-- SPLIT_CHANGE_DONE, R252. The slice split change completes and CHG clears. -/
  | splitChangeDone (c : ClusterNo)
  /-- XROOT_WRITE, R298. Write of the table root by a supervisor. -/
  | xrootWrite (u : UnitNo) (k : StrandNo) (v : BitVec 64)
  /-- REPSTAT_WRITE, R138. Write of 0 ends a repetition; nonzero traps. -/
  | repstatWrite (u : UnitNo) (k : StrandNo) (v : BitVec 64)
  /-- GROUP_START, R260. The last join starts the group 16 cc later. -/
  | groupStart (c : ClusterNo) (g : BitVec 2)
  /-- GROUP_UNPARK, R261. All members parked; they unpark together. -/
  | groupUnpark (c : ClusterNo) (g : BitVec 2)
  /-- GROUP_BROKEN, R258. A hold exceeds sys.SGHOLD and the group is broken. -/
  | groupBroken (c : ClusterNo) (g : BitVec 2)
  /-- MOVE_ADMIT, R277. The migration engine admits or refuses a hinted move. -/
  | moveAdmit (u : UnitNo) (k : StrandNo)
  /-- MIGRATION_COMMIT, R279. After the copy, the leaf is repointed and held accesses forwarded. -/
  | migrationCommit (move : Nat)
  /-- MIGRATION_RELEASE, R279. Invalidations complete and the old frame is pushed to the release stack. -/
  | migrationRelease (move : Nat)
  /-- MIGRATION_ABORT, R281. A move exceeds 8,000 ns copy time or meets an error and is aborted. -/
  | migrationAbort (e : MoveEnd)
  /-- BUDGET_PERIOD, R283. A 100,000 ns period starts and activity budgets renew. -/
  | budgetPeriod
  /-- TLBINV_DISPATCH, R300. A TLBINV leaves the store queue and is sent to target dies. -/
  | tlbinvDispatch (u : UnitNo) (k : StrandNo)
  /-- TLBINV_ACK, R300. A target die acknowledges; completion recorded in issue order. -/
  | tlbinvAck (u : UnitNo) (k : StrandNo) (n : BitVec 64) (die : BitVec 4)
  /-- SQEST, R324. Sequencer word that establishes a circuit. -/
  | sqest (x : SeqCtx) (w : SeqArg)
  /-- SQHOLD, R325. Sequencer word that extends a circuit's lease. -/
  | sqhold (x : SeqCtx) (w : SeqArg)
  /-- SQTEAR, R326. Sequencer word that tears down circuits. -/
  | sqtear (x : SeqCtx) (w : SeqArg)
  /-- SQWAIT, R327. Sequencer word ending a segment and naming the next boundary. -/
  | sqwait (x : SeqCtx) (w : SeqArg)
  /-- SQJMP, R328. Sequencer jump. -/
  | sqjmp (x : SeqCtx) (w : SeqArg)
  /-- SQLOOP, R328. Sequencer counted loop. -/
  | sqloop (x : SeqCtx) (w : SeqArg)
  /-- SQSIG, R329. Sequencer arrival at a core's barrier. -/
  | sqsig (x : SeqCtx) (w : SeqArg)
  /-- SQHALT, R330. Sequencer halt, optionally tearing down. -/
  | sqhalt (x : SeqCtx) (w : SeqArg)
  /-- SEGMENT_APPLY, R321. At a boundary, lease expirations then segments take effect. -/
  | segmentApply
  /-- LEASE_EXPIRY, R325. A circuit's lease expires and its handle becomes IDLE. -/
  | leaseExpiry (x : SeqCtx) (h : BitVec 8)
  /-- CIRCUIT_LIVE, R317. A SETTLING circuit becomes LIVE t_SETTLE after its boundary. -/
  | circuitLive (x : SeqCtx) (h : BitVec 8)
  /-- LASER_FAULT, R338. A wavelength or receiver signal is lost for 100 ns. -/
  | laserFault (port : BitVec 7) (detail : Byte)
  /-- RING_TUNING_FAULT, R338. A control loop stays at its limit for 200 ns or CRC fails four times. -/
  | ringTuningFault (port : BitVec 7) (detail : Byte) (crossing : List (BitVec 11))
  /-- DBELL, R355. Host doorbell write launches a graph. -/
  | dbell (p : PartNo) (v : BitVec 64)
  /-- LAUNCH_ACCEPT, R349. The Hive reads and checks a launched graph descriptor. -/
  | launchAccept (p : PartNo) (ticket : BitVec 64)
  /-- GANG_DISPATCH, R352. The Hive places a ready gang and writes its launch state. -/
  | gangDispatch (p : PartNo) (ticket : BitVec 64) (node : BitVec 6) (gang : Nat) (place : List UnitNo) (x : SeqCtx)
  /-- INSTANCE_COMPLETE, R173. The completion combiner finds an instance complete and raises its event. -/
  | instanceComplete (u : UnitNo) (k : StrandNo)
  /-- LAUNCH_COMPLETE, R359. All nodes done; record written, REPORT arrival, MSI-X. -/
  | launchComplete (p : PartNo) (ticket : BitVec 64)
  /-- LAUNCH_SLOT, R357. A launch-table slot time arrives and the graph launches or overruns. -/
  | launchSlot (e : BitVec 10)
  /-- PREEMPT, R361. Pre-emption begins, sending PREEMPT-NOTICE where asked. -/
  | preempt (p : PartNo) (ticket : BitVec 64)
  /-- PREEMPT_STOP, R361. PNWIN expires or all RETTs commit; units stop and state is saved. -/
  | preemptStop (p : PartNo) (ticket : BitVec 64)
  /-- RESTORE, R361. The Hive restores a saved instance onto units. -/
  | restore (p : PartNo) (ticket : BitVec 64) (place : List UnitNo)
  /-- UNITPART_WRITE, R344. Host write assigning a unit to a partition. -/
  | unitpartWrite (u : BitVec 10) (v : BitVec 64)
  /-- OPORTPART_WRITE, R344. Host write assigning an optical port. -/
  | oportpartWrite (port : BitVec 7) (v : BitVec 64)
  /-- SEQPART_WRITE, R344. Host write assigning a sequencer context. -/
  | seqpartWrite (sq : BitVec 3) (v : BitVec 64)
  /-- VFPART_WRITE, R344. Host write assigning a virtual function. -/
  | vfpartWrite (vf : BitVec 9) (v : BitVec 64)
  /-- POLICY_WRITE, R345. Write of POLICY, including unfreezing. -/
  | policyWrite (p : PartNo) (v : BitVec 64)
  /-- FRT_WRITE, R345. Write of fault routes, refusing disallowed routes. -/
  | frtWrite (p : PartNo) (v : BitVec 64)
  /-- CNT_WRITE, R399. Write of a counter while the partition holds no running unit. -/
  | cntWrite (p : PartNo) (c : BitVec 14) (v : BitVec 64)
  /-- QPCFG_WRITE, R400. Write of a queue-pair configuration. -/
  | qpcfgWrite (p : PartNo) (q : PairRef) (v : BitVec 64)
  /-- QPRING_WRITE, R400. Write of a queue-pair ring with range checks. -/
  | qpringWrite (p : PartNo) (q : PairRef) (v : BitVec 64)
  /-- QPERR_WRITE, R411. Write of 0 clears ERR and lets the next entry fire. -/
  | qperrWrite (p : PartNo) (q : PairRef) (v : BitVec 64)
  /-- APERTURE_WRITE, R345. Write of an aperture register that has no row of its own. -/
  | apertureWrite (off : BitVec 40) (v : BitVec 64)
  /-- PTCTL_WRITE, R346. Write of the package time source, with optional forward step. -/
  | ptctlWrite (v : BitVec 64)
  /-- PTOFF_WRITE, R346. Offset write that slews package time. -/
  | ptoffWrite (v : BitVec 64)
  /-- PTP_MESSAGE, R346. An IEEE 1588 message disciplines package time. -/
  | ptpMessage (off : BitVec 32) (port : BitVec 4)
  /-- PCFG_WRITE, R379. Write of a fabric port mode. -/
  | pcfgWrite (p : BitVec 4) (v : BitVec 64)
  /-- KSW_WRITE, R388. Key switch-over: a KEYSW marker then the new slot. -/
  | kswWrite (l : LinkRef) (v : BitVec 64)
  /-- FECCTL_WRITE, R390. Starts an FEC code change by sending PROPOSE. -/
  | fecctlWrite (l : LinkRef) (v : BitVec 64)
  /-- KEY_SLOT_WRITE, R379. Writes a transmit or receive key slot and clears its counter. -/
  | keySlotWrite (rx : Bool) (l : LinkRef) (slot : Bool) (word : BitVec 3) (v : BitVec 64)
  /-- LENDING_BOUNDARY, R381. Every 2,000 ns an engine reallocates lanes to ports. -/
  | lendingBoundary (e : BitVec 2)
  /-- LANE_SERVE, R382. A lane retunes to and serves the next egress queue. -/
  | laneServe (e : BitVec 2) (lane : BitVec 6)
  /-- FLIT_DATA, R387. A DATA flit is received, checked and answered. -/
  | flitData (l : LinkRef) (f : Flit)
  /-- REQ, R387. A request flit is received. -/
  | req (l : LinkRef) (f : Flit)
  /-- RESP, R392. A response flit is received. -/
  | resp (l : LinkRef) (f : Flit)
  /-- FLIT_ACK, R387. An ACK is received. -/
  | flitAck (l : LinkRef) (f : Flit)
  /-- NAK, R387. A NAK is received and the sender resends. -/
  | nak (l : LinkRef) (f : Flit)
  /-- KEYSW, R388. The receiver switches its key slot. -/
  | keysw (l : LinkRef) (f : Flit)
  /-- PROPOSE, R390. The acceptor receives an FEC proposal. -/
  | propose (l : LinkRef) (f : Flit)
  /-- ACCEPT, R390. The proposer receives ACCEPT and sends COMMIT. -/
  | accept (l : LinkRef) (f : Flit)
  /-- FEC_COMMIT, R390. The acceptor receives COMMIT and switches code. -/
  | fecCommit (l : LinkRef) (f : Flit)
  /-- DECLINE, R390. The proposer receives DECLINE; outcome REFUSED. -/
  | decline (l : LinkRef) (f : Flit)
  /-- FLIT_ACK_TIMEOUT, R387. No answer 1,000 ns after sending; the transmission fails. -/
  | flitAckTimeout (l : LinkRef)
  /-- FLIT_PASS_DEADLINE, R387. A flit not passed within 4,000 ns; link goes down. -/
  | flitPassDeadline (l : LinkRef)
  /-- FEC_ACCEPT_TIMEOUT, R390. No ACCEPT within 4,000 ns; NOT-ACCEPTED. -/
  | fecAcceptTimeout (l : LinkRef)
  /-- FEC_WAIT_EXPIRY, R390. Acceptor's 16,000 ns wait ends without COMMIT. -/
  | fecWaitExpiry (l : LinkRef)
  /-- LINK_DOWN, R389. A logical link goes down, losing unacknowledged flits. -/
  | linkDown (l : LinkRef) (detail : Byte)
  /-- FAR_ACCESS_TIMEOUT, R392. No response within 100 us; PATH-LOST. -/
  | farAccessTimeout (id : Nat)
  /-- UET_PACKET, R395. An Ultra Ethernet packet is received and placed. -/
  | uetPacket (p : UetPacket)
  /-- ENTRY_FIRE, R401. A queue-pair entry meets its conditions and fires. -/
  | entryFire (p : PairRef)
  /-- WRITE, R405. One-sided write arrives and raises DCNT. -/
  | write (p : PairRef) (piece : Nat)
  /-- WRED, R406. Unordered write-with-reduce combines at DST's home. -/
  | wred (p : PairRef) (piece : Nat)
  /-- ORDERED_COMBINE, R407. An ordered contribution is staged; a full round combines. -/
  | orderedCombine (p : PairRef)
  /-- ENTRY_RETIRE, R411. An entry retires after acknowledgement, raising LCNT. -/
  | entryRetire (p : PairRef)
  /-- PNB, R420. A gradient block is taken into an intake slot and classified. -/
  | pnb (p : PairRef)
  /-- RULE_START, R422. A tier-core strand starts the update rule for a block. -/
  | ruleStart (p : PartNo) (t : Byte) (b : BitVec 10) (u : UnitNo) (k : StrandNo)
  /-- BLOCK_COMMIT, R422. The rule ends and the block commits or fails. -/
  | blockCommit (p : PartNo) (t : Byte) (b : BitVec 10)
  /-- PN_NOTICE, R428. The secondary receives NOTICE of a primary commit. -/
  | pnNotice (p : PartNo) (t : Byte)
  /-- PN_ACK, R428. The primary receives ACK and sends its returns. -/
  | pnAck (p : PartNo) (t : Byte)
  /-- PN_DEMOTE, R428. The primary receives DEMOTE and becomes FENCED. -/
  | pnDemote (p : PartNo) (t : Byte)
  /-- PN_TAKEOVER, R428. The secondary becomes acting on link loss or TFAIL expiry. -/
  | pnTakeover (p : PartNo) (t : Byte)
  /-- PN_FENCED, R428. No ACK within 2 TFAIL; the primary fences itself. -/
  | pnFenced (p : PartNo) (t : Byte)
  /-- STEP_DEADLINE, R427. A step deadline falls; a MISSING report lists absent blocks. -/
  | stepDeadline (p : PartNo) (t : Byte) (step : BitVec 48)
  /-- PNCFG_EFFECT, R431. A PNCFG takes effect after earlier stores. -/
  | pncfgEffect (u : UnitNo) (k : StrandNo)
  /-- STRAND_ECC_ERROR, R86. Uncorrectable strand-state error stops the strand. -/
  | strandEccError (u : UnitNo) (k : StrandNo) (e : StrandErr)
  /-- CORE_ECC_ERROR, R175. Uncorrectable error in a core resource. -/
  | coreEccError (u : UnitNo) (e : CoreErr)
  /-- DIE_LOSS, R284. A stack, home agent or far-tier die is lost. -/
  | dieLoss (d : BitVec 4)
  /-- HOST_DMA, R342. Host DMA over CXL.io performed at the home agent. -/
  | hostDma (write : Bool) (addr : BitVec 52) (data : List Byte) (stale : List ClusterNo)
  /-- BOOT, R437. Power-on bring-up sequence. -/
  | boot (b : BootInfo)
  /-- CLOCK_STEP, R436. In P1 the clock steps down 100 MHz every 10 us. -/
  | clockStep (x : PowerSample)
  /-- THERMAL_P2, R436. Die or inlet temperature forces 400 MHz. -/
  | thermalP2 (hot inlet : Byte)
  /-- TRIP, R436. Overheat or low flow removes power after DIE faults. -/
  | trip (hot : Byte) (lowFlow : Bool)
  /-- GET_VERSION, R440. SPDM version request. -/
  | getVersion
  /-- GET_CAPABILITIES, R440. SPDM capabilities request. -/
  | getCapabilities
  /-- NEGOTIATE_ALGORITHMS, R440. SPDM algorithm negotiation. -/
  | negotiateAlgorithms (offered : List (BitVec 32))
  /-- GET_CERTIFICATE, R440. SPDM certificate request. -/
  | getCertificate
  /-- CHALLENGE, R440. SPDM challenge answered with CHALLENGE_AUTH. -/
  | challenge (nonce : BitVec 256)
  /-- GET_MEASUREMENTS, R440. Returns signed measurement registers. -/
  | getMeasurements (nonce : BitVec 256)
  /-- TELEMETRY_SAMPLE, R441. A telemetry sample is taken or dropped. -/
  | telemetrySample (watts : BitVec 16) (temps : BitVec 32) (flow : BitVec 16) (dropped : Bool)
  /-- PCAP_WRITE, R441. Write of the power cap within range. -/
  | pcapWrite (v : BitVec 64)
  /-- MEXT, R441. Extends a host measurement register with the staged digest. -/
  | mext (v : BitVec 64)
  /-- ENTER_P0, R436. The module returns to P0 and the nominal clock once the 1 ms power is below PCAP - 100 W and the hottest die is below 95 C. -/
  | enterP0 (watts : BitVec 16) (heat : Heat)
  /-- MEMORY_ECC_ERROR, R284. An uncorrectable error found in HBM, LPDDR or the metadata cache poisons its line or block at the home. -/
  | memoryEccError (e : MemErr)
  /-- CLUSTER_ECC_ERROR, R267. An uncorrectable error in slice pinned storage, an L2 line, a pair buffer, the stall wire or SCNT poisons bytes, fails a PACC or breaks a group. -/
  | clusterEccError (c : ClusterNo) (e : ClusterErr)
  /-- ENTRY_ACK_TIMEOUT, R411. A fired queue-pair entry has no acknowledgement after 100 us and retires LINK-LOST. -/
  | entryAckTimeout (p : PairRef) (n : BitVec 64)
  /-- LAUNCH_SLOT_DISPATCH_TIMEOUT, R357. A launch-table slot overruns when its first gang cannot be dispatched within 250 ns, and the entry's policy then applies. -/
  | launchSlotDispatchTimeout (e : BitVec 10)
  /-- HOST_CXL_MEM_ACCESS, R342. A host read or write over CXL.mem to interleaved HBM or far-tier memory is performed coherently with every slice, with back-invalidation. -/
  | hostCxlMemAccess (write : Bool) (addr : BitVec 52) (data : List Byte)
  deriving DecidableEq, Repr

end Sys2Proof
end

