-- ==== Sys2Proof/Decode.lean ====
section
/-! DEFINITION. Decoding of syllables, bundles, engine command words and sequencer words, and the
encoder. The form table holds one row per MAJ and set of FORMs that the spec lists (R38, Table 2-7). -/

namespace Sys2Proof

/-! ### Bit fields -/

/-- Bits [hi:lo] of a word, as a natural number. -/
def field {w : Nat} (x : BitVec w) (hi lo : Nat) : Nat := x.toNat / 2 ^ lo % 2 ^ (hi + 1 - lo)

/-- Bits [lo + n - 1 : lo] of a word, as an n-bit word. -/
def slice {w : Nat} (x : BitVec w) (lo n : Nat) : BitVec n := BitVec.ofNat n (x.toNat / 2 ^ lo)

/-- Bit i of a word. -/
def bit {w : Nat} (x : BitVec w) (i : Nat) : Bool := x.toNat.testBit i

/-- Every bit of x outside mask is 0. -/
def onlyBits {w : Nat} (x : BitVec w) (mask : Nat) : Bool := x.toNat &&& mask == x.toNat

/-- A word from little-endian bytes: the byte order of memory. -/
def leNat : List Byte → Nat
  | [] => 0
  | b :: bs => b.toNat + 256 * leNat bs

/-- The n low bytes of a natural number, least significant first. -/
def toBytes : Nat → Nat → List Byte
  | 0, _ => []
  | n + 1, x => BitVec.ofNat 8 x :: toBytes n (x / 256)

/-! ### Forms -/

/-- What an operand position holds (Table 2-4). `none`: the field must be 0. `part`: the part
number P of VCVT (R187). `cnt`: VCOMP's count register (R193). `lvl`: LOOP's level (R111).
`patch`: a patch register of ENQP, whose kind LIT gives (R166). -/
inductive OpKind where
  | none | w | a | p | m | v | t | pp | part | cnt | lvl | patch
  deriving DecidableEq, Repr

/-- One row of the form table. `forms`: the FORMs it covers; `s`, `l`, `x`: the lengths it accepts;
`rounds`: RM is a rounding mode (R44); `tys`: the TY values it accepts (R45); `modZero`: MOD must be
0 whatever the kind of S2; `blocking`: R72; `result`: it produces a value (R42); `chk`: any further
condition its entry sets on the fields. -/
structure FormSpec where
  forms : List Nat
  s : Bool
  l : Bool
  x : Bool
  d : OpKind
  s1 : OpKind
  s2 : OpKind
  s3 : OpKind
  rounds : Bool
  modZero : Bool
  blocking : Bool
  result : Bool
  tys : List Nat
  chk : Syl → Bool
  make : Syl → Instr

/-- Why a bit pattern is no instruction (Table 2-8). -/
inductive DecodeErr where
  | badLength | noForm | lengthNotAccepted | badLatchField | badGuard | badNwb | badDestination
  | badSource | badRounding | badType | badModifier | badLiteral | entryRule
  | notLastStop | classOrder | doubleWrite | blockingLatch | notAlone | fifthSyllable
  | reservedOpcode | wrongEngine | badFrame | reservedBits | badSize
  deriving DecidableEq, Repr

/-! #### Sets of TY values -/

def tyZero : List Nat := [0]
/-- An integer group, with the SAT bit (R88). -/
def tyIntSat : List Nat := [0, 1, 2, 3, 4, 5, 6, 7, 8, 9, 10, 11, 12, 13, 14, 15]
def tyInt : List Nat := [0, 2, 4, 6, 8, 10, 12, 14]
/-- Vector integer groups: no nibble elements (R176). -/
def tyVecSat : List Nat := [0, 1, 2, 3, 4, 5, 6, 7, 8, 9, 10, 11]
def tyVec : List Nat := [0, 2, 4, 6, 8, 10]
def tyWord : List Nat := [0, 2]
/-- .f32 .f16 .bf16 (R102). -/
def tyFloat : List Nat := [0, 1, 2]
def tyPpmulv : List Nat := [0, 2]

/-! #### Conditions of single entries -/

def chkAny (_ : Syl) : Bool := true
def isX (y : Syl) : Bool := y.len == .x96
def litBelow (n : Nat) (y : Syl) : Bool := !isX y || y.lit.toNat < n
def litMask (mask : Nat) (y : Syl) : Bool := !isX y || onlyBits y.lit mask
def chkNoNwb (y : Syl) : Bool := !y.nwb
/-- QALIGN and FENCE: every field but MAJ, FORM, STOP and LEN is 0, the guard too (R128). -/
def chkUnguarded (y : Syl) : Bool := y.guard == ⟨0, false⟩
/-- MFIRST: S2 names no latch (R203). -/
def chkNoLatch2 (y : Syl) : Bool := match y.s2 with
  | .reg _ => true
  | .latch _ => false
/-- EXT, INS: LIT holds a length in [13:8] and a position in [4:0] (R98). -/
def chkLitField (y : Syl) : Bool := litMask 0x3F1F y
def chkLitFieldNoNwb (y : Syl) : Bool := chkLitField y && !y.nwb
def chkLitLt64 (y : Syl) : Bool := litBelow 64 y
def chkLitLt4b (y : Syl) : Bool := litBelow 0x10 y
def chkLitLt5b (y : Syl) : Bool := litBelow 0x20 y
def chkLitLt8b (y : Syl) : Bool := litBelow 0x100 y
def chkLitLt10b (y : Syl) : Bool := litBelow 0x400 y
def chkLitLt12b (y : Syl) : Bool := litBelow 0x1000 y
def chkLitLt14b (y : Syl) : Bool := litBelow 0x4000 y
def chkLitLt16b (y : Syl) : Bool := litBelow 0x10000 y
def chkLitLt18b (y : Syl) : Bool := litBelow 0x40000 y
def chkLitLt20b (y : Syl) : Bool := litBelow 0x100000 y
def chkLitLe5 (y : Syl) : Bool := litBelow 6 y
/-- BINIT's specifier: BID and COUNT (R172). -/
def chkLitBinit (y : Syl) : Bool := litMask 0xFFFF01FF y
/-- BARR's specifier: BID, CORE, RMT and N (R172). -/
def chkLitBarr (y : Syl) : Bool := litMask 0xFF1F01FF y
/-- ENQ: a byte address below 2^21 that is a multiple of 32 (R164). -/
def chkLitEnq (y : Syl) : Bool := litMask 0x1FFFE0 y
/-- A queue specifier: [5:0], and with SELF the strand bits are 0 (R167). -/
def queueSpecOk (x : Nat) : Bool := x < 64 && (x < 32 || x % 32 < 4)
def chkLitQueue (y : Syl) : Bool := !isX y || queueSpecOk y.lit.toNat
/-- ATOM.FADD and RED.FADD bar RSTO (R130). -/
def chkNoRsto (y : Syl) : Bool := y.rm != 4

/-- The lane width of an integer element mode (R176). -/
def modeWidth (ty : BitVec 4) : Nat := 32 / 2 ^ (ty.toNat / 4)
/-- The width of .f32, .f16 and .bf16 lanes. -/
def floatWidth (ty : BitVec 4) : Nat := if ty.toNat = 0 then 32 else 16
/-- LIT gives a lane: LIT[31:W] = 0 (R178). -/
def chkLitLane (y : Syl) : Bool := litBelow (2 ^ modeWidth y.ty) y
def chkLitLaneF (y : Syl) : Bool := litBelow (2 ^ floatWidth y.ty) y
/-- LIT gives a lane index (R199). -/
def chkLitIdx (y : Syl) : Bool := litBelow (2048 / modeWidth y.ty) y
def chkLitIdxNoNwb (y : Syl) : Bool := chkLitIdx y && !y.nwb

def isFloatCode (c : Nat) : Bool := c ≤ 4
def isIntCode (c : Nat) : Bool := 8 ≤ c && c ≤ 13

/-- The pairs that CVT accepts (R107). -/
def chkCvtPair (y : Syl) : Bool :=
  let c := y.form.toNat % 16
  let d := y.ty.toNat
  let sat := y.form.toNat / 16 == 1
  (isFloatCode c || isIntCode c) && (isFloatCode d || isIntCode d) && !(isIntCode c && isIntCode d)
    && (!sat || d == 3 || d == 4)

/-- Elements of a format in a row (R188). -/
def rowCount (f : Nat) : Nat :=
  match f with
  | 0 | 8 | 9 => 64
  | 1 | 2 | 10 | 11 => 128
  | 3 | 4 | 5 | 12 | 13 => 256
  | _ => 512

/-- The pairs, SAT and part numbers that VCVT accepts (R187, R189). -/
def chkVcvtPair (y : Syl) : Bool :=
  let c := y.form.toNat % 16
  let d := y.ty.toNat
  let sat := y.form.toNat / 16 == 1
  let pairOk := ((isFloatCode c || isIntCode c) && (isFloatCode d || isIntCode d))
    || (c == 5 && d ≤ 2) || (c ≤ 2 && d == 5) || ((c == 14 || c == 15) && d == 3)
  let satOk := !sat || (isFloatCode c && (d == 3 || d == 4 || d == 5)) || (isIntCode c && isIntCode d)
  let parts := max (rowCount c) (rowCount d) / min (rowCount c) (rowCount d)
  let p := match y.s2 with
    | .reg n => n.toNat
    | .latch _ => 4
  let narrowing := rowCount c < rowCount d
  pairOk && satOk && p < parts && (y.len != .s32 || p == 0) && !(narrowing && y.nwb)

/-- A patch of ENQP: the word index is even for an a register; a disabled patch has field 0; the
field names a register of its kind (R166). -/
def patchOk (j : Nat) (wide enabled : Bool) (f : Src) : Bool :=
  match f with
  | .latch _ => false
  | .reg n => !(wide && j % 2 == 1) && (enabled || n == 0) && (!wide || n.toNat < 16)

def chkLitEnqp (y : Syl) : Bool :=
  field y.lit 4 0 == 0 && !bit y.lit 31
    && patchOk (field y.lit 23 21) (bit y.lit 24) (bit y.lit 29) y.s2
    && patchOk (field y.lit 27 25) (bit y.lit 28) (bit y.lit 30) y.s3

/-! ### The form table -/

/-- A row with no rounding, no further condition and a result. -/
def fs (forms : List Nat) (s l x : Bool) (d s1 s2 s3 : OpKind) (tys : List Nat) (mk : Syl → Instr) :
    FormSpec :=
  { forms := forms, s := s, l := l, x := x, d := d, s1 := s1, s2 := s2, s3 := s3, rounds := false
    modZero := false, blocking := false, result := true, tys := tys, chk := chkAny, make := mk }

/-- NOP, MAJ 0x01. -/
noncomputable def rows01 : List FormSpec :=
  [ { fs [0] true false false .none .none .none .none tyZero .nop with result := false } ]

/-- A.MOV, MAJ 0x02. -/
noncomputable def rows02 : List FormSpec :=
  [ fs [0] true true true .w .none .w .none tyZero .mov,
    fs [1] true true true .a .none .a .none tyZero .mova,
    { fs [2] false false true .a .none .none .none tyZero .movha with chk := chkNoNwb },
    fs [3] true true false .a .none .w .none tyZero .sxw,
    fs [4] false true false .a .none .w .none tyZero .zxw,
    fs [5] false true false .w .none .a .none tyZero .movaw,
    fs [6] false true false .w .none .a .none tyZero .movawh,
    fs [7] false true false .w .none .p .none tyZero .movpw,
    fs [8] false true false .p .none .w .none tyZero .movwp,
    fs [9] false true false .w .none .none .none tyZero .rdp,
    { fs [10] false true false .none .none .w .none tyZero .wrp with result := false },
    fs [11] false true false .w .none .none .none tyZero .movrep,
    fs [12] false false true .a .none .none .none tyZero .lea ]

/-- A.IADD, MAJ 0x03. -/
noncomputable def rows03 : List FormSpec :=
  [ fs [0] true true true .w .w .w .none tyIntSat .add,
    fs [1] true true true .w .w .w .none tyIntSat .sub,
    fs [2] true true true .w .w .w .none tyInt .min,
    fs [3] true true true .w .w .w .none tyInt .max,
    fs [4] false true true .w .w .w .none tyInt .absd,
    fs [5] false true false .w .w .none .none tyIntSat .abs ]

/-- A.IMUL, MAJ 0x04. -/
noncomputable def rows04 : List FormSpec :=
  [ fs [0] true true true .w .w .w .none tyIntSat .mul,
    fs [1] true true true .w .w .w .none tyInt .mulh,
    fs [2] false true true .w .w .w .w tyIntSat .mad ]

/-- A.LOGIC, MAJ 0x05. -/
noncomputable def rows05 : List FormSpec :=
  [ fs [0] true true true .w .w .w .none tyInt .and,
    fs [1] true true true .w .w .w .none tyInt .or,
    fs [2] true true true .w .w .w .none tyInt .xor,
    fs [3] true true true .w .w .w .none tyInt .andn,
    fs [4] false true false .w .w .none .none tyInt .not ]

/-- A.SHIFT, MAJ 0x06. -/
noncomputable def rows06 : List FormSpec :=
  [ { fs [0] true true true .w .w .w .none tyIntSat .shl with chk := chkLitLt64 },
    { fs [1] true true true .w .w .w .none tyInt .shr with chk := chkLitLt64 },
    { fs [2] true true true .w .w .w .none tyInt .rol with chk := chkLitLt64 },
    { fs [3] true true true .w .w .w .none tyInt .ror with chk := chkLitLt64 } ]

/-- A.BITF, MAJ 0x07. -/
noncomputable def rows07 : List FormSpec :=
  [ { fs [0] true true true .w .w .w .none tyWord .ext with chk := chkLitField },
    { fs [1] true true true .w .w .w .none tyZero .ins with chk := chkLitFieldNoNwb },
    fs [2] true true false .w .w .none .none tyInt .clz,
    fs [3] true true false .w .w .none .none tyInt .ctz,
    fs [4] false true false .w .w .none .none tyInt .popc,
    fs [5] false true false .w .w .none .none tyInt .brev ]

/-- A.ICMP, MAJ 0x08. -/
noncomputable def rows08 : List FormSpec :=
  [ fs [0] true true true .p .w .w .p tyWord .cmpeq,
    fs [1] true true true .p .w .w .p tyWord .cmpne,
    fs [2] true true true .p .w .w .p tyWord .cmplt,
    fs [3] true true true .p .w .w .p tyWord .cmple,
    fs [4] false true true .p .w .w .p tyWord .cmpgt,
    fs [5] false true true .p .w .w .p tyWord .cmpge,
    fs [6] false true true .p .w .w .p tyWord .test ]

/-- A.PLOG, MAJ 0x09. -/
noncomputable def rows09 : List FormSpec :=
  [ fs [0] true true false .p .p .p .none tyZero .pand,
    fs [1] true true false .p .p .p .none tyZero .por,
    fs [2] true true false .p .p .p .none tyZero .pxor,
    fs [3] true true false .p .p .p .none tyZero .pandn,
    fs [4] false true false .p .p .none .none tyZero .pnot ]

/-- A.ADDR, MAJ 0x0A. -/
noncomputable def rows0A : List FormSpec :=
  [ fs [0] true true true .a .a .a .none tyZero .aadd,
    fs [1] true true true .a .a .a .none tyZero .asub,
    fs [2, 3, 4, 5, 6, 7, 8, 9, 10] true true false .a .a .w .none tyZero .aidx,
    fs [11] false true true .a .a .a .none tyZero .aand,
    fs [12] false true true .p .a .a .p tyZero .acmpeq,
    fs [13] false true true .p .a .a .p tyZero .acmpne,
    fs [14] false true true .p .a .a .p tyZero .acmplt,
    fs [15] false true true .p .a .a .p tyZero .acmpge ]

/-- A.BR, MAJ 0x0B. -/
noncomputable def rows0B : List FormSpec :=
  [ { fs [0] false false true .none .none .none .none tyZero .br with result := false } ]

/-- A.CALL, MAJ 0x0C. -/
noncomputable def rows0C : List FormSpec :=
  [ fs [0] false false true .a .none .none .none tyZero .call,
    fs [1] true true false .a .a .none .none tyZero .callr,
    { fs [2] true true false .none .a .none .none tyZero .jr with result := false } ]

/-- A.LOOP, MAJ 0x0D. -/
noncomputable def rows0D : List FormSpec :=
  [ { fs [0] false false true .lvl .w .none .none tyZero .loop with result := false } ]

/-- A.REP, MAJ 0x0E. -/
noncomputable def rows0E : List FormSpec :=
  [ { fs [0] true true false .none .w .none .none tyZero .rep with result := false },
    { fs [1] false false true .none .none .none .none tyZero .rep with result := false, chk := chkLitLt16b } ]

/-- A.CTL, MAJ 0x0F. -/
noncomputable def rows0F : List FormSpec :=
  [ { fs [0] true false false .none .none .none .none tyZero .yield with result := false },
    { fs [1] true false false .none .none .none .none tyZero .halt with result := false },
    { fs [2] true false false .none .none .none .none tyZero .exit with result := false },
    { fs [3] true true false .none .w .none .none tyZero .exitStatus with result := false } ]

/-- B.IADD, MAJ 0x21. -/
noncomputable def rows21 : List FormSpec :=
  [ fs [0] true true true .w .w .w .none tyIntSat .addB,
    fs [1] true true true .w .w .w .none tyIntSat .subB,
    fs [2] true true true .w .w .w .none tyInt .minB,
    fs [3] true true true .w .w .w .none tyInt .maxB,
    fs [4] false true true .w .w .w .none tyInt .absdB,
    fs [5] false true false .w .w .none .none tyIntSat .absB ]

/-- B.IMUL, MAJ 0x22. -/
noncomputable def rows22 : List FormSpec :=
  [ fs [0] true true true .w .w .w .none tyIntSat .mulB,
    fs [1] true true true .w .w .w .none tyInt .mulhB,
    fs [2] false true true .w .w .w .w tyIntSat .madB ]

/-- B.LOGIC, MAJ 0x23. -/
noncomputable def rows23 : List FormSpec :=
  [ fs [0] true true true .w .w .w .none tyInt .andB,
    fs [1] true true true .w .w .w .none tyInt .orB,
    fs [2] true true true .w .w .w .none tyInt .xorB,
    fs [3] true true true .w .w .w .none tyInt .andnB,
    fs [4] false true false .w .w .none .none tyInt .notB ]

/-- B.SHIFT, MAJ 0x24. -/
noncomputable def rows24 : List FormSpec :=
  [ { fs [0] true true true .w .w .w .none tyIntSat .shlB with chk := chkLitLt64 },
    { fs [1] true true true .w .w .w .none tyInt .shrB with chk := chkLitLt64 },
    { fs [2] true true true .w .w .w .none tyInt .rolB with chk := chkLitLt64 },
    { fs [3] true true true .w .w .w .none tyInt .rorB with chk := chkLitLt64 } ]

/-- B.ICMP, MAJ 0x25. -/
noncomputable def rows25 : List FormSpec :=
  [ fs [0] true true true .p .w .w .p tyWord .cmpeqB,
    fs [1] true true true .p .w .w .p tyWord .cmpneB,
    fs [2] true true true .p .w .w .p tyWord .cmpltB,
    fs [3] true true true .p .w .w .p tyWord .cmpleB,
    fs [4] false true true .p .w .w .p tyWord .cmpgtB,
    fs [5] false true true .p .w .w .p tyWord .cmpgeB,
    fs [6] false true true .p .w .w .p tyWord .testB ]

/-- B.FADD, MAJ 0x26. -/
noncomputable def rows26 : List FormSpec :=
  [ { fs [0] true true true .w .w .w .none tyFloat .fadd with rounds := true },
    { fs [1] true true true .w .w .w .none tyFloat .fsub with rounds := true },
    { fs [2] true true true .w .w .w .none tyFloat .fmul with rounds := true },
    fs [3] true true false .w .w .none .none tyFloat .fabs,
    fs [4] false true false .w .w .none .none tyFloat .fneg ]

/-- B.FFMA, MAJ 0x27. -/
noncomputable def rows27 : List FormSpec :=
  [ { fs [0] false true true .w .w .w .w tyFloat .fma with rounds := true },
    { fs [1] false true true .w .w .w .w tyFloat .fms with rounds := true },
    { fs [2] false true true .w .w .w .w tyFloat .fnma with rounds := true },
    { fs [3] false true true .w .w .w .w tyFloat .fnms with rounds := true } ]

/-- B.FCMP, MAJ 0x28. -/
noncomputable def rows28 : List FormSpec :=
  [ fs [0] true true true .p .w .w .p tyFloat .fcmpeq,
    fs [1] true true true .p .w .w .p tyFloat .fcmpne,
    fs [2] true true true .p .w .w .p tyFloat .fcmplt,
    fs [3] true true true .p .w .w .p tyFloat .fcmple,
    fs [4] false true true .p .w .w .p tyFloat .fcmpgt,
    fs [5] false true true .p .w .w .p tyFloat .fcmpge,
    fs [6] false true true .w .w .w .none tyFloat .fmin,
    fs [7] false true true .w .w .w .none tyFloat .fmax ]

/-- B.FCVT, MAJ 0x29. -/
noncomputable def rows29 : List FormSpec :=
  [ { fs (List.range 32) true true false .w .w .none .none (List.range 16) .cvt with rounds := true, chk := chkCvtPair } ]

/-- B.FEST, MAJ 0x2A. -/
noncomputable def rows2A : List FormSpec :=
  [ fs [0] true true false .w .w .none .none tyZero .frcp,
    fs [1] true true false .w .w .none .none tyZero .frsq ]

/-- B.MOV, MAJ 0x2B. -/
noncomputable def rows2B : List FormSpec :=
  [ fs [0] true true true .w .none .w .none tyZero .movB,
    fs [1] false true true .w .p .w .w tyZero .sel ]

/-- M.LDL, MAJ 0x41. -/
noncomputable def rows41 : List FormSpec :=
  [ { fs [0] true true true .w .a .none .none [0, 2, 4, 6, 8, 10] .ldL with modZero := true },
    { fs [32, 36, 40, 44] false true false .w .a .w .none [0, 2, 4, 6, 8, 10] .ldL with modZero := true },
    { fs [1] true true true .a .a .none .none tyZero .ldL with modZero := true },
    { fs [33, 37, 41, 45] false true false .a .a .w .none tyZero .ldL with modZero := true },
    { fs [2] true true true .w .a .none .none [0, 2, 4, 6, 8, 10] .ldAcqL with modZero := true },
    { fs [34, 38, 42, 46] false true false .w .a .w .none [0, 2, 4, 6, 8, 10] .ldAcqL with modZero := true },
    { fs [3] true true true .a .a .none .none tyZero .ldAcqL with modZero := true },
    { fs [35, 39, 43, 47] false true false .a .a .w .none tyZero .ldAcqL with modZero := true } ]

/-- M.STL, MAJ 0x42. -/
noncomputable def rows42 : List FormSpec :=
  [ { fs [0] false true true .none .a .none .w [0, 2, 4, 6, 8, 10] .stL with modZero := true, result := false },
    { fs [32, 36, 40, 44] false true false .none .a .w .w [0, 2, 4, 6, 8, 10] .stL with modZero := true, result := false },
    { fs [1] false true true .none .a .none .a tyZero .stL with modZero := true, result := false },
    { fs [33, 37, 41, 45] false true false .none .a .w .a tyZero .stL with modZero := true, result := false },
    { fs [2] false true true .none .a .none .w [0, 2, 4, 6, 8, 10] .stRelL with modZero := true, result := false },
    { fs [34, 38, 42, 46] false true false .none .a .w .w [0, 2, 4, 6, 8, 10] .stRelL with modZero := true, result := false },
    { fs [3] false true true .none .a .none .a tyZero .stRelL with modZero := true, result := false },
    { fs [35, 39, 43, 47] false true false .none .a .w .a tyZero .stRelL with modZero := true, result := false } ]

/-- M.LDG, MAJ 0x43. -/
noncomputable def rows43 : List FormSpec :=
  [ { fs [0] true true true .w .a .none .none [0, 2, 4, 6, 8, 10] .ldG with modZero := true },
    { fs [32, 36, 40, 44] false true false .w .a .w .none [0, 2, 4, 6, 8, 10] .ldG with modZero := true },
    { fs [1] true true true .a .a .none .none tyZero .ldG with modZero := true },
    { fs [33, 37, 41, 45] false true false .a .a .w .none tyZero .ldG with modZero := true },
    { fs [2] true true true .w .a .none .none [0, 2, 4, 6, 8, 10] .ldAcqG with modZero := true },
    { fs [34, 38, 42, 46] false true false .w .a .w .none [0, 2, 4, 6, 8, 10] .ldAcqG with modZero := true },
    { fs [3] true true true .a .a .none .none tyZero .ldAcqG with modZero := true },
    { fs [35, 39, 43, 47] false true false .a .a .w .none tyZero .ldAcqG with modZero := true } ]

/-- M.STG, MAJ 0x44. -/
noncomputable def rows44 : List FormSpec :=
  [ { fs [0] false true true .none .a .none .w [0, 2, 4, 6, 8, 10] .stG with modZero := true, result := false },
    { fs [32, 36, 40, 44] false true false .none .a .w .w [0, 2, 4, 6, 8, 10] .stG with modZero := true, result := false },
    { fs [1] false true true .none .a .none .a tyZero .stG with modZero := true, result := false },
    { fs [33, 37, 41, 45] false true false .none .a .w .a tyZero .stG with modZero := true, result := false },
    { fs [2] false true true .none .a .none .w [0, 2, 4, 6, 8, 10] .stRelG with modZero := true, result := false },
    { fs [34, 38, 42, 46] false true false .none .a .w .w [0, 2, 4, 6, 8, 10] .stRelG with modZero := true, result := false },
    { fs [3] false true true .none .a .none .a tyZero .stRelG with modZero := true, result := false },
    { fs [35, 39, 43, 47] false true false .none .a .w .a tyZero .stRelG with modZero := true, result := false } ]

/-- M.PREF, MAJ 0x45. -/
noncomputable def rows45 : List FormSpec :=
  [ { fs [0] true true true .none .a .none .none tyZero .prefG with modZero := true, result := false },
    { fs [32, 36, 40, 44] false true false .none .a .w .none tyZero .prefG with modZero := true, result := false },
    { fs [1] true true true .none .a .none .none tyZero .prefwG with modZero := true, result := false },
    { fs [33, 37, 41, 45] false true false .none .a .w .none tyZero .prefwG with modZero := true, result := false },
    { fs [2] true true true .none .a .none .none tyZero .prefL with modZero := true, result := false },
    { fs [34, 38, 42, 46] false true false .none .a .w .none tyZero .prefL with modZero := true, result := false } ]

/-- M.ORD, MAJ 0x46. -/
noncomputable def rows46 : List FormSpec :=
  [ { fs [0] true true false .none .none .none .none tyZero .qalign with result := false, chk := chkUnguarded },
    { fs [1] true true false .none .none .none .none tyZero .fenceCore with result := false, chk := chkUnguarded },
    { fs [2] true true false .none .none .none .none tyZero .fenceClus with result := false, chk := chkUnguarded },
    { fs [3] true true false .none .none .none .none tyZero .fenceDie with result := false, chk := chkUnguarded },
    { fs [4] false true false .none .none .none .none tyZero .fencePkg with result := false, chk := chkUnguarded },
    { fs [5] false true false .none .none .none .none tyZero .fencePod with result := false, chk := chkUnguarded } ]

/-- M.ATOM, MAJ 0x47. -/
noncomputable def rows47 : List FormSpec :=
  [ fs [0, 16] false true true .w .a .none .w tyWord .atomAdd,
    fs [1, 17] false true true .w .a .none .w tyWord .atomAnd,
    fs [2, 18] false true true .w .a .none .w tyWord .atomOr,
    fs [3, 19] false true true .w .a .none .w tyWord .atomXor,
    fs [4, 20] false true true .w .a .none .w tyWord .atomMin,
    fs [5, 21] false true true .w .a .none .w tyWord .atomMax,
    fs [8, 24] false true true .a .a .none .a tyZero .atomAdd,
    fs [6, 22] false true true .w .a .none .w tyZero .atomSwp,
    fs [9, 25] false true true .a .a .none .a tyZero .atomSwp,
    fs [7, 23] false true false .w .a .w .w tyZero .atomCas,
    { fs [10, 26] false true false .a .a .a .a tyZero .atomCas with modZero := true },
    { fs [12, 28] false true true .w .a .none .w tyFloat .atomFadd with rounds := true, chk := chkNoRsto },
    { fs [32, 48] false true true .none .a .none .w tyWord .redAdd with result := false },
    { fs [33, 49] false true true .none .a .none .w tyWord .redAnd with result := false },
    { fs [34, 50] false true true .none .a .none .w tyWord .redOr with result := false },
    { fs [35, 51] false true true .none .a .none .w tyWord .redXor with result := false },
    { fs [36, 52] false true true .none .a .none .w tyWord .redMin with result := false },
    { fs [37, 53] false true true .none .a .none .w tyWord .redMax with result := false },
    { fs [40, 56] false true true .none .a .none .a tyZero .redAdd with result := false },
    { fs [44, 60] false true true .none .a .none .w tyFloat .redFadd with rounds := true, result := false, chk := chkNoRsto } ]

/-- M.SYS, MAJ 0x48. -/
noncomputable def rows48 : List FormSpec :=
  [ { fs [0] true false true .none .none .none .none tyZero .trap with result := false, chk := chkLitLt16b },
    { fs [1] true false false .none .none .none .none tyZero .rett with result := false },
    fs [2] true true false .a .none .none .none tyZero .rdtime,
    fs [3] true true false .a .none .none .none tyZero .rdcyc,
    { fs [4] false false true .a .none .none .none tyZero .rdsr with chk := chkLitLt12b },
    { fs [5] false true false .a .none .w .none tyZero .rdsr with modZero := true },
    { fs [6] false false true .none .a .none .none tyZero .wrsr with result := false, chk := chkLitLt12b },
    { fs [7] false true false .none .a .w .none tyZero .wrsr with modZero := true, result := false },
    fs [8] false true false .a .none .none .none tyZero .rdwid,
    { fs [9] false true true .a .none .w .none tyZero .rdwf with modZero := true, chk := chkLitLe5 },
    { fs [10] false true true .w .none .w .none tyZero .rdwfl with modZero := true, chk := chkLitLe5 },
    fs [11] false true true .a .a .none .none tyZero .locq ]

/-- M.SLEEP, MAJ 0x49. -/
noncomputable def rows49 : List FormSpec :=
  [ { fs [0] true true false .none .a .none .none tyZero .sleepto with blocking := true, result := false },
    { fs [1] true true false .none .a .a .none tyZero .sleeptoCp0 with blocking := true, result := false },
    { fs [2] true true false .none .a .a .none tyZero .sleeptoCp1 with blocking := true, result := false } ]

/-- M.REG, MAJ 0x4A. -/
noncomputable def rows4A : List FormSpec :=
  [ { fs [0] false false true .none .none .none .none tyZero .regsync with result := false, chk := chkLitLt5b },
    { fs [1] true true false .none .none .w .none tyZero .regsync with result := false },
    { fs [2] false false true .none .none .none .none tyZero .reginv with result := false, chk := chkLitLt5b },
    { fs [3] true true false .none .none .w .none tyZero .reginv with result := false } ]

/-- M.BAR, MAJ 0x4B. -/
noncomputable def rows4B : List FormSpec :=
  [ { fs [0] false false true .none .none .none .none tyZero .binit with result := false, chk := chkLitBinit },
    { fs [1] true true false .none .none .w .none tyZero .binit with result := false },
    { fs [2] false false true .none .none .none .none tyZero .barr with result := false, chk := chkLitBarr },
    { fs [3] true true false .none .none .w .none tyZero .barr with result := false },
    { fs [4] false false true .none .none .none .none tyZero .bwait with blocking := true, result := false, chk := chkLitLt10b },
    { fs [5] false true false .none .none .w .none tyZero .bwait with blocking := true, result := false },
    { fs [6] false false true .p .none .none .none tyZero .btest with chk := chkLitLt10b },
    fs [7] false true false .p .none .w .none tyZero .btest,
    { fs [8] false false true .w .none .none .none tyZero .brd with chk := chkLitLt10b },
    fs [9] false true false .w .none .w .none tyZero .brd ]

/-- M.ENQ, MAJ 0x4C. -/
noncomputable def rows4C : List FormSpec :=
  [ { fs [0, 1, 2, 3] false false true .a .none .none .none tyZero .enq with blocking := true, chk := chkLitEnq },
    { fs [4, 5, 6, 7] false true false .a .a .none .none tyZero .enq with blocking := true },
    { fs [8, 9, 10, 11] false false true .a .none .patch .patch tyZero .enqp with modZero := true, blocking := true, chk := chkLitEnqp } ]

/-- M.TL, MAJ 0x4D. -/
noncomputable def rows4D : List FormSpec :=
  [ { fs [0] false false true .a .none .none .none tyZero .tlrd with chk := chkLitQueue },
    fs [1] true true false .a .none .w .none tyZero .tlrd,
    { fs [2] false false true .none .a .none .none tyZero .tlwait with blocking := true, result := false, chk := chkLitQueue },
    { fs [3] true true false .none .a .w .none tyZero .tlwait with blocking := true, result := false },
    { fs [4] false false true .a .none .none .none tyZero .tlflt with chk := chkLitQueue },
    fs [5] false true false .a .none .w .none tyZero .tlflt,
    { fs [6] false false true .a .none .none .none tyZero .tlfltc with chk := chkLitQueue },
    fs [7] false true false .a .none .w .none tyZero .tlfltc,
    fs [8] false true false .w .t .none .none tyZero .statrd,
    fs [9] false true false .p .t .none .none tyZero .statrd,
    fs [10] false true false .w .t .none .none tyZero .statrdc ]

/-- M.VWIN, MAJ 0x4E. -/
noncomputable def rows4E : List FormSpec :=
  [ { fs [0] true true false .none .t .none .none tyZero .vwin with result := false },
    { fs [1] true true false .none .none .w .none tyZero .vwinReg with result := false } ]

/-- M.GRP, MAJ 0x4F. -/
noncomputable def rows4F : List FormSpec :=
  [ { fs [0] false false true .none .none .none .none tyZero .sgrp with blocking := true, result := false, chk := chkLitLt18b },
    { fs [1] true true false .none .none .w .none tyZero .sgrp with blocking := true, result := false },
    { fs [2] true false false .none .none .none .none tyZero .sgleave with result := false },
    { fs [3] true false false .none .none .none .none tyZero .sgsync with blocking := true, result := false },
    fs [4] false true false .a .none .none .none tyZero .sgrd ]

/-- M.XLT, MAJ 0x50. -/
noncomputable def rows50 : List FormSpec :=
  [ fs [0] true true false .a .a .a .none tyZero .tlbinvVa,
    fs [1] true true false .a .a .none .none tyZero .tlbinvTbl,
    fs [2] true true false .a .none .none .none tyZero .tlbinvAll,
    { fs [3] true true false .none .a .none .none tyZero .tlbwait with blocking := true, result := false },
    fs [4] false true true .a .a .none .none tyZero .xlat,
    fs [5] false true true .a .a .none .none tyZero .xlatW,
    fs [6] false true true .a .a .none .none tyZero .xlatX,
    { fs [8] false true false .none .a .none .none tyZero .wpkr with result := false },
    { fs [9] false false true .none .w .none .none tyZero .wpkr with result := false, chk := chkLitLt5b },
    fs [10] false true false .a .none .none .none tyZero .rpkr,
    { fs [16] false false true .w .a .none .none tyZero .mighint with chk := chkLitLt4b },
    { fs [17] false true false .w .a .w .none tyZero .mighint with modZero := true } ]

/-- M.CIRC, MAJ 0x51. -/
noncomputable def rows51 : List FormSpec :=
  [ { fs [0] false false true .p .none .none .none tyZero .circwait with blocking := true, chk := chkLitLt8b },
    { fs [1] true true false .p .none .w .none tyZero .circwait with modZero := true, blocking := true },
    { fs [2] false false true .p .none .none .w tyZero .circwait with blocking := true, chk := chkLitLt8b },
    { fs [3] false true false .p .none .w .w tyZero .circwait with modZero := true, blocking := true },
    { fs [4] false false true .a .none .none .none tyZero .circq with chk := chkLitLt8b },
    { fs [5] false true false .a .none .w .none tyZero .circq with modZero := true } ]

/-- M.LNCH, MAJ 0x52. -/
noncomputable def rows52 : List FormSpec :=
  [ fs [0] true true false .a .a .none .none tyZero .launch,
    fs [1] false true false .a .a .none .a tyZero .launch,
    fs [2] true true false .a .a .none .none tyZero .lnstat ]

/-- M.CNT, MAJ 0x53. -/
noncomputable def rows53 : List FormSpec :=
  [ { fs [0] false false true .a .a .none .none tyZero .qpost with chk := chkLitLt10b },
    { fs [1] true true false .a .a .w .none tyZero .qpost with modZero := true },
    { fs [2] false false true .none .a .none .none tyZero .qarm with result := false, chk := chkLitLt10b },
    { fs [3] true true false .none .a .w .none tyZero .qarm with modZero := true, result := false },
    { fs [4] false false true .a .none .none .none tyZero .cntrd with chk := chkLitLt14b },
    { fs [5] false true false .a .none .w .none tyZero .cntrd with modZero := true },
    { fs [6] false false true .none .a .none .none tyZero .cntwait with blocking := true, result := false, chk := chkLitLt14b },
    { fs [7] false true false .none .a .w .none tyZero .cntwait with modZero := true, blocking := true, result := false },
    { fs [8] false false true .none .a .none .none tyZero .cntadd with result := false, chk := chkLitLt14b },
    { fs [9] false true false .none .a .w .none tyZero .cntadd with modZero := true, result := false } ]

/-- M.PNODE, MAJ 0x54. -/
noncomputable def rows54 : List FormSpec :=
  [ { fs [0] false false true .w .a .none .none tyZero .pncfg with chk := chkLitLt8b },
    { fs [1] true true false .w .a .w .none tyZero .pncfg with modZero := true },
    { fs [2] false false true .a .none .none .none tyZero .pnstat with chk := chkLitLt20b },
    { fs [3] true true false .a .none .w .none tyZero .pnstat with modZero := true } ]

/-- V.FARITH, MAJ 0x61. -/
noncomputable def rows61 : List FormSpec :=
  [ { fs [0] true true true .v .v .v .none tyFloat .vfadd with rounds := true, chk := chkLitLaneF },
    { fs [1] true true true .v .v .v .none tyFloat .vfsub with rounds := true, chk := chkLitLaneF },
    { fs [2] true true true .v .v .v .none tyFloat .vfmul with rounds := true, chk := chkLitLaneF },
    fs [3] true true false .v .v .none .none tyFloat .vfabs,
    { fs [4] false true true .v .v .v .v tyFloat .vfma with rounds := true, chk := chkLitLaneF },
    { fs [5] false true true .v .v .v .v tyFloat .vfms with rounds := true, chk := chkLitLaneF },
    { fs [6] false true true .v .v .v .v tyFloat .vfnma with rounds := true, chk := chkLitLaneF },
    { fs [7] false true true .v .v .v .v tyFloat .vfnms with rounds := true, chk := chkLitLaneF },
    { fs [8] false true true .v .v .v .none tyFloat .vfmin with chk := chkLitLaneF },
    { fs [9] false true true .v .v .v .none tyFloat .vfmax with chk := chkLitLaneF },
    fs [10] false true false .v .v .none .none tyFloat .vfneg ]

/-- V.IARITH, MAJ 0x62. -/
noncomputable def rows62 : List FormSpec :=
  [ { fs [0] true true true .v .v .v .none tyVecSat .vadd with chk := chkLitLane },
    { fs [1] true true true .v .v .v .none tyVecSat .vsub with chk := chkLitLane },
    { fs [2] true true true .v .v .v .none tyVec .vmin with chk := chkLitLane },
    { fs [3] true true true .v .v .v .none tyVec .vmax with chk := chkLitLane },
    { fs [4] false true true .v .v .v .none tyVecSat .vmul with chk := chkLitLane },
    { fs [5] false true true .v .v .v .none tyVec .vmulh with chk := chkLitLane },
    { fs [6] false true true .v .v .v .v tyVecSat .vmad with chk := chkLitLane },
    { fs [7] false true true .v .v .v .none tyVec .vabsd with chk := chkLitLane },
    fs [8] false true false .v .v .none .none tyVecSat .vabs ]

/-- V.LOGIC, MAJ 0x63. -/
noncomputable def rows63 : List FormSpec :=
  [ { fs [0] true true true .v .v .v .none tyVec .vand with chk := chkLitLane },
    { fs [1] true true true .v .v .v .none tyVec .vor with chk := chkLitLane },
    { fs [2] true true true .v .v .v .none tyVec .vxor with chk := chkLitLane },
    { fs [3] true true true .v .v .v .none tyVec .vandn with chk := chkLitLane },
    fs [4] false true false .v .v .none .none tyVec .vnot,
    { fs [5] false true true .v .v .v .none tyVecSat .vshl with chk := chkLitLt64 },
    { fs [6] false true true .v .v .v .none tyVec .vshr with chk := chkLitLt64 },
    { fs [7] false true true .v .v .v .none tyVec .vrol with chk := chkLitLt64 },
    { fs [8] false true true .v .v .v .none tyVec .vror with chk := chkLitLt64 } ]

/-- V.CMP, MAJ 0x64. -/
noncomputable def rows64 : List FormSpec :=
  [ { fs [0] true true true .m .v .v .none tyVec .vcmpeq with result := false, chk := chkLitLane },
    { fs [16] false true true .m .v .v .m tyVec .vcmpeq with result := false, chk := chkLitLane },
    { fs [1] true true true .m .v .v .none tyVec .vcmpne with result := false, chk := chkLitLane },
    { fs [17] false true true .m .v .v .m tyVec .vcmpne with result := false, chk := chkLitLane },
    { fs [2] true true true .m .v .v .none tyVec .vcmplt with result := false, chk := chkLitLane },
    { fs [18] false true true .m .v .v .m tyVec .vcmplt with result := false, chk := chkLitLane },
    { fs [3] true true true .m .v .v .none tyVec .vcmple with result := false, chk := chkLitLane },
    { fs [19] false true true .m .v .v .m tyVec .vcmple with result := false, chk := chkLitLane },
    { fs [4] false true true .m .v .v .none tyVec .vcmpgt with result := false, chk := chkLitLane },
    { fs [20] false true true .m .v .v .m tyVec .vcmpgt with result := false, chk := chkLitLane },
    { fs [5] false true true .m .v .v .none tyVec .vcmpge with result := false, chk := chkLitLane },
    { fs [21] false true true .m .v .v .m tyVec .vcmpge with result := false, chk := chkLitLane },
    { fs [6] false true true .m .v .v .none tyVec .vtest with result := false, chk := chkLitLane },
    { fs [22] false true true .m .v .v .m tyVec .vtest with result := false, chk := chkLitLane },
    { fs [8] false true true .m .v .v .none tyFloat .vfcmpeq with result := false, chk := chkLitLaneF },
    { fs [24] false true true .m .v .v .m tyFloat .vfcmpeq with result := false, chk := chkLitLaneF },
    { fs [9] false true true .m .v .v .none tyFloat .vfcmpne with result := false, chk := chkLitLaneF },
    { fs [25] false true true .m .v .v .m tyFloat .vfcmpne with result := false, chk := chkLitLaneF },
    { fs [10] false true true .m .v .v .none tyFloat .vfcmplt with result := false, chk := chkLitLaneF },
    { fs [26] false true true .m .v .v .m tyFloat .vfcmplt with result := false, chk := chkLitLaneF },
    { fs [11] false true true .m .v .v .none tyFloat .vfcmple with result := false, chk := chkLitLaneF },
    { fs [27] false true true .m .v .v .m tyFloat .vfcmple with result := false, chk := chkLitLaneF },
    { fs [12] false true true .m .v .v .none tyFloat .vfcmpgt with result := false, chk := chkLitLaneF },
    { fs [28] false true true .m .v .v .m tyFloat .vfcmpgt with result := false, chk := chkLitLaneF },
    { fs [13] false true true .m .v .v .none tyFloat .vfcmpge with result := false, chk := chkLitLaneF },
    { fs [29] false true true .m .v .v .m tyFloat .vfcmpge with result := false, chk := chkLitLaneF },
    { fs [32] false true true .v .m .v .v tyVec .vsel with chk := chkLitLane } ]

/-- V.CVT, MAJ 0x65. -/
noncomputable def rows65 : List FormSpec :=
  [ { fs (List.range 32) true true false .v .v .part .none (List.range 16) .vcvt with rounds := true, chk := chkVcvtPair } ]

/-- V.EST, MAJ 0x66. -/
noncomputable def rows66 : List FormSpec :=
  [ fs [0] true true false .v .v .none .none tyZero .vrcp,
    fs [1] true true false .v .v .none .none tyZero .vrsq,
    fs [2] true true false .v .v .none .none tyZero .vexp2,
    fs [3] true true false .v .v .none .none tyZero .vlog2,
    fs [4] false true false .v .v .none .none tyZero .vtanh ]

/-- V.RED, MAJ 0x67. -/
noncomputable def rows67 : List FormSpec :=
  [ { fs [0] true true false .w .v .none .none tyFloat .vredsum with rounds := true },
    fs [4] false true false .w .v .none .none tyVecSat .vredsum,
    { fs [16] false true false .w .v .none .m tyFloat .vredsum with rounds := true },
    fs [20] false true false .w .v .none .m tyVecSat .vredsum,
    fs [1] true true false .w .v .none .none tyFloat .vredmin,
    fs [5] false true false .w .v .none .none tyVec .vredmin,
    fs [17] false true false .w .v .none .m tyFloat .vredmin,
    fs [21] false true false .w .v .none .m tyVec .vredmin,
    fs [2] true true false .w .v .none .none tyFloat .vredmax,
    fs [6] false true false .w .v .none .none tyVec .vredmax,
    fs [18] false true false .w .v .none .m tyFloat .vredmax,
    fs [22] false true false .w .v .none .m tyVec .vredmax,
    { fs [8] false true false .v .v .none .none tyFloat .vscansum with rounds := true },
    fs [12] false true false .v .v .none .none tyVecSat .vscansum,
    { fs [24] false true false .v .v .none .m tyFloat .vscansum with rounds := true },
    fs [28] false true false .v .v .none .m tyVecSat .vscansum,
    fs [9] false true false .v .v .none .none tyFloat .vscanmin,
    fs [13] false true false .v .v .none .none tyVec .vscanmin,
    fs [25] false true false .v .v .none .m tyFloat .vscanmin,
    fs [29] false true false .v .v .none .m tyVec .vscanmin,
    fs [10] false true false .v .v .none .none tyFloat .vscanmax,
    fs [14] false true false .v .v .none .none tyVec .vscanmax,
    fs [26] false true false .v .v .none .m tyFloat .vscanmax,
    fs [30] false true false .v .v .none .m tyVec .vscanmax ]

/-- V.PACK, MAJ 0x68. -/
noncomputable def rows68 : List FormSpec :=
  [ { fs [0] false true false .v .v .cnt .m tyVec .vcomp with modZero := true },
    fs [1] false true false .v .v .none .m tyVec .vexpd ]

/-- V.PERM, MAJ 0x69. -/
noncomputable def rows69 : List FormSpec :=
  [ fs [0] true true false .v .v .v .none tyVec .vperm,
    fs [1] true true true .v .v .w .none tyVec .vrotr,
    fs [2] true true false .v .v .v .none tyVec .vzipl,
    fs [3] true true false .v .v .v .none tyVec .vziph,
    fs [4] false true false .v .v .v .none tyVec .vuzpe,
    fs [5] false true false .v .v .v .none tyVec .vuzpo ]

/-- V.GEN, MAJ 0x6A. -/
noncomputable def rows6A : List FormSpec :=
  [ { fs [0] true true true .v .none .w .none tyVec .vsplat with chk := chkLitLane },
    { fs [1] true true true .v .none .w .none tyVec .viota with chk := chkLitLane },
    { fs [2] false true false .v .a .w .w tyZero .vrand with modZero := true } ]

/-- V.MEM, MAJ 0x6B. -/
noncomputable def rows6B : List FormSpec :=
  [ fs [0, 4] true true true .v .a .none .none tyZero .vld,
    { fs [1, 5] false true true .none .a .none .v tyZero .vst with result := false },
    { fs [2, 6] false true false .none .a .m .v tyZero .vstm with result := false } ]

/-- V.MOV, MAJ 0x6C. -/
noncomputable def rows6C : List FormSpec :=
  [ { fs [0] true true true .w .v .w .none tyVec .vext with chk := chkLitIdx },
    { fs [1] false true true .v .w .w .none tyVec .vins with chk := chkLitIdxNoNwb },
    fs [2] true true false .v .none .v .none tyVec .vmov ]

/-- V.MASK, MAJ 0x6D. -/
noncomputable def rows6D : List FormSpec :=
  [ { fs [0] true true false .m .m .m .none tyVec .mand with result := false },
    { fs [1] true true false .m .m .m .none tyVec .mor with result := false },
    { fs [2] true true false .m .m .m .none tyVec .mxor with result := false },
    { fs [3] true true false .m .m .m .none tyVec .mandn with result := false },
    { fs [4] false true false .m .m .none .none tyVec .mnot with result := false },
    { fs [5] false true true .m .none .w .none tyVec .mfirst with modZero := true, result := false, chk := chkNoLatch2 },
    fs [6] false true false .w .m .none .none tyVec .mcnt ]

/-- V.PP, MAJ 0x6E. -/
noncomputable def rows6E : List FormSpec :=
  [ { fs [0] true true true .pp .none .w .none tyZero .ppset with result := false },
    { fs [1] true true true .pp .none .w .none tyZero .ppdeg with result := false, chk := chkLitLt64 },
    { fs [2] true true true .pp .w .w .none tyZero .ppmul with rounds := true, result := false },
    { fs [3] false true false .pp .v .v .m tyPpmulv .ppmulv with rounds := true, result := false },
    { fs [4] false true true .pp .w .w .none tyZero .ppdiv with rounds := true, result := false },
    { fs [5] false true false .pp .pp .none .none tyZero .ppmrg with rounds := true, result := false },
    { fs [6] false true true .pp .none .w .none tyZero .ppscl with result := false },
    fs [7] false true false .v .pp .none .none tyZero .pprd,
    fs [8] false true false .w .pp .none .none tyZero .pprdx,
    fs [9] false true false .w .pp .none .none tyZero .pprdst,
    { fs [10] false true false .pp .v .w .w tyZero .ppwr with result := false } ]

/-- The rows of a major opcode; a reserved one has none (R49). -/
noncomputable def formRows (maj : Nat) : List FormSpec :=
  match maj with
  | 0x01 => rows01
  | 0x02 => rows02
  | 0x03 => rows03
  | 0x04 => rows04
  | 0x05 => rows05
  | 0x06 => rows06
  | 0x07 => rows07
  | 0x08 => rows08
  | 0x09 => rows09
  | 0x0A => rows0A
  | 0x0B => rows0B
  | 0x0C => rows0C
  | 0x0D => rows0D
  | 0x0E => rows0E
  | 0x0F => rows0F
  | 0x21 => rows21
  | 0x22 => rows22
  | 0x23 => rows23
  | 0x24 => rows24
  | 0x25 => rows25
  | 0x26 => rows26
  | 0x27 => rows27
  | 0x28 => rows28
  | 0x29 => rows29
  | 0x2A => rows2A
  | 0x2B => rows2B
  | 0x41 => rows41
  | 0x42 => rows42
  | 0x43 => rows43
  | 0x44 => rows44
  | 0x45 => rows45
  | 0x46 => rows46
  | 0x47 => rows47
  | 0x48 => rows48
  | 0x49 => rows49
  | 0x4A => rows4A
  | 0x4B => rows4B
  | 0x4C => rows4C
  | 0x4D => rows4D
  | 0x4E => rows4E
  | 0x4F => rows4F
  | 0x50 => rows50
  | 0x51 => rows51
  | 0x52 => rows52
  | 0x53 => rows53
  | 0x54 => rows54
  | 0x61 => rows61
  | 0x62 => rows62
  | 0x63 => rows63
  | 0x64 => rows64
  | 0x65 => rows65
  | 0x66 => rows66
  | 0x67 => rows67
  | 0x68 => rows68
  | 0x69 => rows69
  | 0x6A => rows6A
  | 0x6B => rows6B
  | 0x6C => rows6C
  | 0x6D => rows6D
  | 0x6E => rows6E
  | _ => []

/-- The major opcode and the syllable of a slot instruction; none for the rows that no syllable
encodes. -/
def Instr.syl? (i : Instr) : Option (Nat × Syl) :=
  match i with
  | .nop y => some (0x01, y)
  | .mov y => some (0x02, y)
  | .movB y => some (0x2B, y)
  | .sel y => some (0x2B, y)
  | .mova y => some (0x02, y)
  | .movha y => some (0x02, y)
  | .sxw y => some (0x02, y)
  | .zxw y => some (0x02, y)
  | .movaw y => some (0x02, y)
  | .movawh y => some (0x02, y)
  | .movpw y => some (0x02, y)
  | .movwp y => some (0x02, y)
  | .rdp y => some (0x02, y)
  | .wrp y => some (0x02, y)
  | .movrep y => some (0x02, y)
  | .lea y => some (0x02, y)
  | .add y => some (0x03, y)
  | .sub y => some (0x03, y)
  | .min y => some (0x03, y)
  | .max y => some (0x03, y)
  | .absd y => some (0x03, y)
  | .abs y => some (0x03, y)
  | .addB y => some (0x21, y)
  | .subB y => some (0x21, y)
  | .minB y => some (0x21, y)
  | .maxB y => some (0x21, y)
  | .absdB y => some (0x21, y)
  | .absB y => some (0x21, y)
  | .mul y => some (0x04, y)
  | .mulh y => some (0x04, y)
  | .mad y => some (0x04, y)
  | .mulB y => some (0x22, y)
  | .mulhB y => some (0x22, y)
  | .madB y => some (0x22, y)
  | .and y => some (0x05, y)
  | .or y => some (0x05, y)
  | .xor y => some (0x05, y)
  | .andn y => some (0x05, y)
  | .not y => some (0x05, y)
  | .andB y => some (0x23, y)
  | .orB y => some (0x23, y)
  | .xorB y => some (0x23, y)
  | .andnB y => some (0x23, y)
  | .notB y => some (0x23, y)
  | .shl y => some (0x06, y)
  | .shr y => some (0x06, y)
  | .rol y => some (0x06, y)
  | .ror y => some (0x06, y)
  | .shlB y => some (0x24, y)
  | .shrB y => some (0x24, y)
  | .rolB y => some (0x24, y)
  | .rorB y => some (0x24, y)
  | .ext y => some (0x07, y)
  | .ins y => some (0x07, y)
  | .clz y => some (0x07, y)
  | .ctz y => some (0x07, y)
  | .popc y => some (0x07, y)
  | .brev y => some (0x07, y)
  | .cmpeq y => some (0x08, y)
  | .cmpne y => some (0x08, y)
  | .cmplt y => some (0x08, y)
  | .cmple y => some (0x08, y)
  | .cmpgt y => some (0x08, y)
  | .cmpge y => some (0x08, y)
  | .test y => some (0x08, y)
  | .cmpeqB y => some (0x25, y)
  | .cmpneB y => some (0x25, y)
  | .cmpltB y => some (0x25, y)
  | .cmpleB y => some (0x25, y)
  | .cmpgtB y => some (0x25, y)
  | .cmpgeB y => some (0x25, y)
  | .testB y => some (0x25, y)
  | .pand y => some (0x09, y)
  | .por y => some (0x09, y)
  | .pxor y => some (0x09, y)
  | .pandn y => some (0x09, y)
  | .pnot y => some (0x09, y)
  | .aadd y => some (0x0A, y)
  | .asub y => some (0x0A, y)
  | .aidx y => some (0x0A, y)
  | .aand y => some (0x0A, y)
  | .acmpeq y => some (0x0A, y)
  | .acmpne y => some (0x0A, y)
  | .acmplt y => some (0x0A, y)
  | .acmpge y => some (0x0A, y)
  | .br y => some (0x0B, y)
  | .call y => some (0x0C, y)
  | .callr y => some (0x0C, y)
  | .jr y => some (0x0C, y)
  | .loop y => some (0x0D, y)
  | .rep y => some (0x0E, y)
  | .yield y => some (0x0F, y)
  | .halt y => some (0x0F, y)
  | .exit y => some (0x0F, y)
  | .exitStatus y => some (0x0F, y)
  | .fadd y => some (0x26, y)
  | .fsub y => some (0x26, y)
  | .fmul y => some (0x26, y)
  | .fabs y => some (0x26, y)
  | .fneg y => some (0x26, y)
  | .fma y => some (0x27, y)
  | .fms y => some (0x27, y)
  | .fnma y => some (0x27, y)
  | .fnms y => some (0x27, y)
  | .fcmpeq y => some (0x28, y)
  | .fcmpne y => some (0x28, y)
  | .fcmplt y => some (0x28, y)
  | .fcmple y => some (0x28, y)
  | .fcmpgt y => some (0x28, y)
  | .fcmpge y => some (0x28, y)
  | .fmin y => some (0x28, y)
  | .fmax y => some (0x28, y)
  | .cvt y => some (0x29, y)
  | .frcp y => some (0x2A, y)
  | .frsq y => some (0x2A, y)
  | .ldL y => some (0x41, y)
  | .ldAcqL y => some (0x41, y)
  | .ldG y => some (0x43, y)
  | .ldAcqG y => some (0x43, y)
  | .stL y => some (0x42, y)
  | .stRelL y => some (0x42, y)
  | .stG y => some (0x44, y)
  | .stRelG y => some (0x44, y)
  | .prefG y => some (0x45, y)
  | .prefwG y => some (0x45, y)
  | .prefL y => some (0x45, y)
  | .qalign y => some (0x46, y)
  | .fenceCore y => some (0x46, y)
  | .fenceClus y => some (0x46, y)
  | .fenceDie y => some (0x46, y)
  | .fencePkg y => some (0x46, y)
  | .fencePod y => some (0x46, y)
  | .atomAdd y => some (0x47, y)
  | .atomAnd y => some (0x47, y)
  | .atomOr y => some (0x47, y)
  | .atomXor y => some (0x47, y)
  | .atomMin y => some (0x47, y)
  | .atomMax y => some (0x47, y)
  | .atomSwp y => some (0x47, y)
  | .atomCas y => some (0x47, y)
  | .atomFadd y => some (0x47, y)
  | .redAdd y => some (0x47, y)
  | .redAnd y => some (0x47, y)
  | .redOr y => some (0x47, y)
  | .redXor y => some (0x47, y)
  | .redMin y => some (0x47, y)
  | .redMax y => some (0x47, y)
  | .redFadd y => some (0x47, y)
  | .trap y => some (0x48, y)
  | .rett y => some (0x48, y)
  | .rdtime y => some (0x48, y)
  | .rdcyc y => some (0x48, y)
  | .rdsr y => some (0x48, y)
  | .wrsr y => some (0x48, y)
  | .rdwid y => some (0x48, y)
  | .rdwf y => some (0x48, y)
  | .rdwfl y => some (0x48, y)
  | .locq y => some (0x48, y)
  | .sleepto y => some (0x49, y)
  | .sleeptoCp0 y => some (0x49, y)
  | .sleeptoCp1 y => some (0x49, y)
  | .regsync y => some (0x4A, y)
  | .reginv y => some (0x4A, y)
  | .binit y => some (0x4B, y)
  | .barr y => some (0x4B, y)
  | .bwait y => some (0x4B, y)
  | .btest y => some (0x4B, y)
  | .brd y => some (0x4B, y)
  | .enq y => some (0x4C, y)
  | .enqp y => some (0x4C, y)
  | .tlrd y => some (0x4D, y)
  | .tlwait y => some (0x4D, y)
  | .tlflt y => some (0x4D, y)
  | .tlfltc y => some (0x4D, y)
  | .statrd y => some (0x4D, y)
  | .statrdc y => some (0x4D, y)
  | .vwin y => some (0x4E, y)
  | .vwinReg y => some (0x4E, y)
  | .sgrp y => some (0x4F, y)
  | .sgleave y => some (0x4F, y)
  | .sgsync y => some (0x4F, y)
  | .sgrd y => some (0x4F, y)
  | .tlbinvVa y => some (0x50, y)
  | .tlbinvTbl y => some (0x50, y)
  | .tlbinvAll y => some (0x50, y)
  | .tlbwait y => some (0x50, y)
  | .xlat y => some (0x50, y)
  | .xlatW y => some (0x50, y)
  | .xlatX y => some (0x50, y)
  | .wpkr y => some (0x50, y)
  | .rpkr y => some (0x50, y)
  | .mighint y => some (0x50, y)
  | .circwait y => some (0x51, y)
  | .circq y => some (0x51, y)
  | .launch y => some (0x52, y)
  | .lnstat y => some (0x52, y)
  | .qpost y => some (0x53, y)
  | .qarm y => some (0x53, y)
  | .cntrd y => some (0x53, y)
  | .cntwait y => some (0x53, y)
  | .cntadd y => some (0x53, y)
  | .pncfg y => some (0x54, y)
  | .pnstat y => some (0x54, y)
  | .vfadd y => some (0x61, y)
  | .vfsub y => some (0x61, y)
  | .vfmul y => some (0x61, y)
  | .vfabs y => some (0x61, y)
  | .vfma y => some (0x61, y)
  | .vfms y => some (0x61, y)
  | .vfnma y => some (0x61, y)
  | .vfnms y => some (0x61, y)
  | .vfmin y => some (0x61, y)
  | .vfmax y => some (0x61, y)
  | .vfneg y => some (0x61, y)
  | .vadd y => some (0x62, y)
  | .vsub y => some (0x62, y)
  | .vmin y => some (0x62, y)
  | .vmax y => some (0x62, y)
  | .vmul y => some (0x62, y)
  | .vmulh y => some (0x62, y)
  | .vmad y => some (0x62, y)
  | .vabsd y => some (0x62, y)
  | .vabs y => some (0x62, y)
  | .vand y => some (0x63, y)
  | .vor y => some (0x63, y)
  | .vxor y => some (0x63, y)
  | .vandn y => some (0x63, y)
  | .vnot y => some (0x63, y)
  | .vshl y => some (0x63, y)
  | .vshr y => some (0x63, y)
  | .vrol y => some (0x63, y)
  | .vror y => some (0x63, y)
  | .vcmpeq y => some (0x64, y)
  | .vcmpne y => some (0x64, y)
  | .vcmplt y => some (0x64, y)
  | .vcmple y => some (0x64, y)
  | .vcmpgt y => some (0x64, y)
  | .vcmpge y => some (0x64, y)
  | .vtest y => some (0x64, y)
  | .vfcmpeq y => some (0x64, y)
  | .vfcmpne y => some (0x64, y)
  | .vfcmplt y => some (0x64, y)
  | .vfcmple y => some (0x64, y)
  | .vfcmpgt y => some (0x64, y)
  | .vfcmpge y => some (0x64, y)
  | .vsel y => some (0x64, y)
  | .vcvt y => some (0x65, y)
  | .vrcp y => some (0x66, y)
  | .vrsq y => some (0x66, y)
  | .vexp2 y => some (0x66, y)
  | .vlog2 y => some (0x66, y)
  | .vtanh y => some (0x66, y)
  | .vredsum y => some (0x67, y)
  | .vredmin y => some (0x67, y)
  | .vredmax y => some (0x67, y)
  | .vscansum y => some (0x67, y)
  | .vscanmin y => some (0x67, y)
  | .vscanmax y => some (0x67, y)
  | .vcomp y => some (0x68, y)
  | .vexpd y => some (0x68, y)
  | .vperm y => some (0x69, y)
  | .vrotr y => some (0x69, y)
  | .vzipl y => some (0x69, y)
  | .vziph y => some (0x69, y)
  | .vuzpe y => some (0x69, y)
  | .vuzpo y => some (0x69, y)
  | .vsplat y => some (0x6A, y)
  | .viota y => some (0x6A, y)
  | .vrand y => some (0x6A, y)
  | .vld y => some (0x6B, y)
  | .vst y => some (0x6B, y)
  | .vstm y => some (0x6B, y)
  | .vext y => some (0x6C, y)
  | .vins y => some (0x6C, y)
  | .vmov y => some (0x6C, y)
  | .mand y => some (0x6D, y)
  | .mor y => some (0x6D, y)
  | .mxor y => some (0x6D, y)
  | .mandn y => some (0x6D, y)
  | .mnot y => some (0x6D, y)
  | .mfirst y => some (0x6D, y)
  | .mcnt y => some (0x6D, y)
  | .ppset y => some (0x6E, y)
  | .ppdeg y => some (0x6E, y)
  | .ppmul y => some (0x6E, y)
  | .ppmulv y => some (0x6E, y)
  | .ppdiv y => some (0x6E, y)
  | .ppmrg y => some (0x6E, y)
  | .ppscl y => some (0x6E, y)
  | .pprd y => some (0x6E, y)
  | .pprdx y => some (0x6E, y)
  | .pprdst y => some (0x6E, y)
  | .ppwr y => some (0x6E, y)
  | .ppaApplyFactor .. => none
  | .ppaApplyMerge .. => none
  | .ppaApplyRemove .. => none
  | .ppaApplySet .. => none
  | .mma .. => none
  | .mmas .. => none
  | .mzero .. => none
  | .mload .. => none
  | .mdrain .. => none
  | .pacc .. => none
  | .copy .. => none
  | .feed .. => none
  | .feedm .. => none
  | .send .. => none
  | .gather .. => none
  | .scatter .. => none
  | .notify .. => none
  | .commandComplete .. => none
  | .chainTimeout .. => none
  | .paccData .. => none
  | .paccCommit .. => none
  | .paccMismatch .. => none
  | .paccAbort .. => none
  | .paccWithdraw .. => none
  | .paccClosed .. => none
  | .paccFaulted .. => none
  | .paccParked .. => none
  | .pairTimeoutLower .. => none
  | .pairTimeoutHigher .. => none
  | .runStart .. => none
  | .quantumEnd .. => none
  | .strandWake .. => none
  | .trapEntry .. => none
  | .loadPerform .. => none
  | .storeVisible .. => none
  | .atomicPerform .. => none
  | .postedAtomicPerform .. => none
  | .farStoreArrive .. => none
  | .regionFill .. => none
  | .regsyncWriteback .. => none
  | .barrArrival .. => none
  | .binitEffect .. => none
  | .cntaddRaise .. => none
  | .qarmEffect .. => none
  | .cmdareaWrite .. => none
  | .regionEntryWrite .. => none
  | .mxposWrite .. => none
  | .slcfgWrite .. => none
  | .splitChangeDone .. => none
  | .xrootWrite .. => none
  | .repstatWrite .. => none
  | .groupStart .. => none
  | .groupUnpark .. => none
  | .groupBroken .. => none
  | .moveAdmit .. => none
  | .migrationCommit .. => none
  | .migrationRelease .. => none
  | .migrationAbort .. => none
  | .budgetPeriod => none
  | .tlbinvDispatch .. => none
  | .tlbinvAck .. => none
  | .sqest .. => none
  | .sqhold .. => none
  | .sqtear .. => none
  | .sqwait .. => none
  | .sqjmp .. => none
  | .sqloop .. => none
  | .sqsig .. => none
  | .sqhalt .. => none
  | .segmentApply => none
  | .leaseExpiry .. => none
  | .circuitLive .. => none
  | .laserFault .. => none
  | .ringTuningFault .. => none
  | .dbell .. => none
  | .launchAccept .. => none
  | .gangDispatch .. => none
  | .instanceComplete .. => none
  | .launchComplete .. => none
  | .launchSlot .. => none
  | .preempt .. => none
  | .preemptStop .. => none
  | .restore .. => none
  | .unitpartWrite .. => none
  | .oportpartWrite .. => none
  | .seqpartWrite .. => none
  | .vfpartWrite .. => none
  | .policyWrite .. => none
  | .frtWrite .. => none
  | .cntWrite .. => none
  | .qpcfgWrite .. => none
  | .qpringWrite .. => none
  | .qperrWrite .. => none
  | .apertureWrite .. => none
  | .ptctlWrite .. => none
  | .ptoffWrite .. => none
  | .ptpMessage .. => none
  | .pcfgWrite .. => none
  | .kswWrite .. => none
  | .fecctlWrite .. => none
  | .keySlotWrite .. => none
  | .lendingBoundary .. => none
  | .laneServe .. => none
  | .flitData .. => none
  | .req .. => none
  | .resp .. => none
  | .flitAck .. => none
  | .nak .. => none
  | .keysw .. => none
  | .propose .. => none
  | .accept .. => none
  | .fecCommit .. => none
  | .decline .. => none
  | .flitAckTimeout .. => none
  | .flitPassDeadline .. => none
  | .fecAcceptTimeout .. => none
  | .fecWaitExpiry .. => none
  | .linkDown .. => none
  | .farAccessTimeout .. => none
  | .uetPacket .. => none
  | .entryFire .. => none
  | .write .. => none
  | .wred .. => none
  | .orderedCombine .. => none
  | .entryRetire .. => none
  | .pnb .. => none
  | .ruleStart .. => none
  | .blockCommit .. => none
  | .pnNotice .. => none
  | .pnAck .. => none
  | .pnDemote .. => none
  | .pnTakeover .. => none
  | .pnFenced .. => none
  | .stepDeadline .. => none
  | .pncfgEffect .. => none
  | .strandEccError .. => none
  | .coreEccError .. => none
  | .dieLoss .. => none
  | .hostDma .. => none
  | .boot .. => none
  | .clockStep .. => none
  | .thermalP2 .. => none
  | .trip .. => none
  | .getVersion => none
  | .getCapabilities => none
  | .negotiateAlgorithms .. => none
  | .getCertificate => none
  | .challenge .. => none
  | .getMeasurements .. => none
  | .telemetrySample .. => none
  | .pcapWrite .. => none
  | .mext .. => none
  | .enterP0 .. => none
  | .memoryEccError .. => none
  | .clusterEccError .. => none
  | .entryAckTimeout .. => none
  | .launchSlotDispatchTimeout .. => none
  | .hostCxlMemAccess .. => none

/-! ### One syllable -/

/-- The form table row of a MAJ and FORM pair (R38). -/
noncomputable def lookupForm (maj form : Nat) : Option FormSpec :=
  (formRows maj).find? (fun r => r.forms.contains form)

/-- A 7-bit source field (R39): none where bits [5:2] of a latch field are not 0. -/
def parseSrc (f : BitVec 7) : Option Src :=
  if bit f 6 then
    if field f 5 2 = 0 then some (.latch (slice f 0 2)) else none
  else some (.reg (slice f 0 6))

def encSrc : Src → BitVec 7
  | .reg n => BitVec.ofNat 7 n.toNat
  | .latch n => BitVec.ofNat 7 (64 + n.toNat)

/-- A source field suits its operand kind (R39, R40). -/
def srcOk (k : OpKind) (f : Src) : Bool :=
  match k, f with
  | .none, .reg n => n == 0
  | .w, _ | .v, _ => true
  | .a, .reg n | .p, .reg n => n.toNat < 16
  | .a, .latch _ | .p, .latch _ => true
  | .m, .reg n | .t, .reg n | .pp, .reg n => n.toNat < 8
  | .part, .reg n => n.toNat < 4
  | .cnt, .reg _ => true
  | .patch, _ => true
  | _, _ => false

/-- The D field suits its kind (Table 2-4). -/
def dstOk (k : OpKind) (d : BitVec 6) : Bool :=
  match k with
  | .w | .v => true
  | .a | .p => d.toNat < 16
  | .m | .pp => d.toNat < 8
  | .lvl => d.toNat < 2
  | _ => d == 0

/-- The modifier suits the S2 operand (R46, R47, R48). -/
def modOk (r : FormSpec) (y : Syl) : Bool :=
  if r.modZero || isX y then y.mod == 0
  else match r.s2 with
    | .w => true
    | .v =>
      let pat := field y.mod 7 5
      let k := field y.mod 4 0
      pat == 1 || pat == 4 || ((pat == 0 || pat == 2) && k == 0) || (pat == 3 && k < 8)
    | _ => y.mod == 0

def lenOk (r : FormSpec) (l : Len) : Bool :=
  match l with
  | .s32 => r.s
  | .l64 => r.l
  | .x96 => r.x

/-- The first pattern of Table 2-8 that one syllable shows by itself, if any. -/
def checkSyl (r : FormSpec) (y : Syl) : Option DecodeErr :=
  if !lenOk r y.len then some .lengthNotAccepted
  else if y.guard.neg && y.guard.p == 0 then some .badGuard
  else if y.nwb && (y.d != 0 || !r.result) then some .badNwb
  else if !dstOk r.d y.d then some .badDestination
  else if !srcOk r.s1 y.s1 || !srcOk r.s3 y.s3 then some .badSource
  else if !(if isX y && r.s2 != .patch then y.s2 == .reg 0 else srcOk r.s2 y.s2) then some .badSource
  else if !(if r.rounds then y.rm != 5 && y.rm != 6 else y.rm == 0) then some .badRounding
  else if !r.tys.contains y.ty.toNat then some .badType
  else if !modOk r y then some .badModifier
  else if !isX y && y.lit != 0 then some .badLiteral
  else if !r.chk y then some .entryRule
  else none

/-- The fields an S32 syllable leaves to R37 have those values. -/
def shortOk (r : FormSpec) (y : Syl) : Bool :=
  y.len != .s32 ||
    (y.guard == ⟨0, false⟩ && !y.nwb && y.s3 == .reg 0 && y.form.toNat < 4
      && y.rm == (if r.rounds then 7 else 0) && y.ty == 0 && y.mod == 0)

/-- A decoded slot of a bundle: its class, its row of the form table and its instruction. -/
structure Slot where
  cls : BitVec 2
  maj : Nat
  stop : Bool
  spec : FormSpec
  syl : Syl
  instr : Instr

def parseLen (w0 : BitVec 32) : Option Len :=
  match field w0 1 0 with
  | 0 => some .s32
  | 1 => some .l64
  | 2 => some .x96
  | _ => none

/-- The length in bytes. -/
def Len.bytes : Len → Nat
  | .s32 => 4
  | .l64 => 8
  | .x96 => 12

def lenCode : Len → Nat
  | .s32 => 0
  | .l64 => 1
  | .x96 => 2

/-- Decode one syllable from its words (Tables 2-1 to 2-3). Words the length does not reach are
not read. -/
noncomputable def decodeSyl (w0 w1 w2 : BitVec 32) : Except DecodeErr Slot :=
  match parseLen w0 with
  | none => .error .badLength
  | some len =>
    let short := len == .s32
    let maj := field w0 9 3
    let form := field w0 11 10 + 4 * (if short then 0 else field w1 18 15)
    match lookupForm maj form with
    | none => .error .noForm
    | some r =>
      match parseSrc (slice w0 19 7), parseSrc (slice w0 12 7),
          parseSrc (if short then 0 else slice w1 19 7) with
      | some s1, some s2, some s3 =>
        let y : Syl :=
          { len := len
            guard := if short then ⟨0, false⟩ else ⟨slice w1 27 4, bit w1 31⟩
            nwb := !short && bit w1 26
            d := slice w0 26 6
            s1 := s1
            s2 := s2
            s3 := s3
            form := BitVec.ofNat 6 form
            rm := if short then (if r.rounds then 7 else 0) else slice w1 12 3
            ty := if short then 0 else slice w1 8 4
            mod := if short then 0 else slice w1 0 8
            lit := if len == .x96 then w2 else 0 }
        match checkSyl r y with
        | some e => .error e
        | none => .ok { cls := slice w0 8 2, maj := maj, stop := bit w0 2, spec := r, syl := y,
                        instr := r.make y }
      | _, _, _ => .error .badLatchField

/-! ### Bundles -/

/-- A syllable as fetched: its byte offset in the bundle and its words. -/
structure RawSyl where
  off : Nat
  w0 : BitVec 32
  w1 : BitVec 32
  w2 : BitVec 32
  deriving DecidableEq, Repr

/-- The destinations that R28 counts, each under a number of its own: w, a, p, m, v registers and
control registers. -/
def sylDests (r : FormSpec) (y : Syl) : List Nat :=
  if y.nwb then []
  else match r.d with
    | .w => [y.d.toNat]
    | .a => [100 + y.d.toNat]
    | .p => [200 + y.d.toNat]
    | .m => [300 + y.d.toNat]
    | .v => [400 + y.d.toNat]
    | _ => []

/-- Destinations beyond the D field: WRP, which names p1 to p15 and not p0 (R91; DESIGN CHOICE, log entry 99), VCOMP's count (R193), LOOP's level and the register
that WRSR FORM 6 names (R28). -/
def extraDests (i : Instr) : List Nat :=
  match i with
  | .wrp _ => (List.range 15).map (fun k => 201 + k)
  | .vcomp y => match y.s2 with
    | .reg n => [n.toNat]
    | .latch _ => []
  | .loop y => [1006 + 3 * y.d.toNat, 1007 + 3 * y.d.toNat, 1008 + 3 * y.d.toNat]
  | .wrsr y => if isX y then [1000 + y.lit.toNat] else []
  | _ => []

def Slot.dests (t : Slot) : List Nat := sylDests t.spec t.syl ++ extraDests t.instr

def Src.isLatch : Src → Bool
  | .latch _ => true
  | .reg _ => false

/-- The slot names a latch in a source field (R72). -/
def Slot.readsLatch (t : Slot) : Bool := t.syl.s1.isLatch || t.syl.s2.isLatch || t.syl.s3.isLatch

/-- Must stand alone in its bundle (R112, R137). -/
def aloneOnly (i : Instr) : Bool :=
  match i with
  | .rep _ | .rett _ => true
  | _ => false

/-- Decode the syllables in memory order, remembering those before. The error carries the recorded
syllable (R53). -/
noncomputable def decodeSlots : List RawSyl → List Slot → Except (RawSyl × DecodeErr) (List Slot)
  | [], done => .ok done
  | r :: rest, done =>
    if done.length = 4 then .error (r, .fifthSyllable)
    else match decodeSyl r.w0 r.w1 r.w2 with
      | .error e => .error (r, e)
      | .ok t =>
        if done.any (fun q => t.cls.toNat ≤ q.cls.toNat) then .error (r, .classOrder)
        else if done.any (fun q => q.dests.any (fun d => t.dests.contains d)) then
          .error (r, .doubleWrite)
        else decodeSlots rest (done ++ [t])

/-- Patterns that a whole bundle shows: a lone form in company, and a blocking form beside a latch
read. Answers the index of the syllable to record. -/
def bundleFault (ts : List Slot) : Option (Nat × DecodeErr) :=
  let latch := ts.any Slot.readsLatch
  let bad := fun t : Slot => (aloneOnly t.instr && 1 < ts.length) || (t.spec.blocking && latch)
  match ts.findIdx? bad with
  | some k => some (k, match ts[k]? with
      | some t => if aloneOnly t.instr && 1 < ts.length then .notAlone else .blockingLatch
      | none => .notAlone)
  | none => none

/-- The index of the syllable that decodeSlots refused, in the list it was given. -/
def rawIndex (rs : List RawSyl) (r : RawSyl) : Nat := (rs.findIdx? (fun q => q.off == r.off)).getD 0

/-- The whole decode of a fetched bundle (R27, R28, R52, R53): its slots, or the syllable the
ILLEGAL-INSTRUCTION frame records. Among the patterns, the first syllable in memory order stands. -/
noncomputable def decodeBundle (rs : List RawSyl) : Except (RawSyl × DecodeErr) (List Slot) :=
  match decodeSlots rs [] with
  | .error (r, e) =>
    -- a REP or RETT before the refused syllable is not alone, and stands before it
    match decodeSlots (rs.take (rawIndex rs r)) [] with
    | .ok ts =>
      match ts.findIdx? (fun t => aloneOnly t.instr) with
      | some k => .error ((rs[k]?).getD r, .notAlone)
      | none => .error (r, e)
    | .error _ => .error (r, e)
  | .ok ts =>
    match bundleFault ts with
    | some (k, e) => match rs[k]? with
      | some r => .error (r, e)
      | none => .ok ts
    | none => .ok ts

/-! ### Encoding a syllable -/

/-- Word 0 (Table 2-2). -/
def encWord0 (maj : Nat) (stop : Bool) (y : Syl) : BitVec 32 :=
  BitVec.ofNat 32 (y.d.toNat * 2 ^ 26 + (encSrc y.s1).toNat * 2 ^ 19 + (encSrc y.s2).toNat * 2 ^ 12
    + y.form.toNat % 4 * 2 ^ 10 + maj * 2 ^ 3 + stop.toNat * 4 + lenCode y.len)

/-- Word 1 (Table 2-3). -/
def encWord1 (y : Syl) : BitVec 32 :=
  BitVec.ofNat 32 (y.guard.neg.toNat * 2 ^ 31 + y.guard.p.toNat * 2 ^ 27 + y.nwb.toNat * 2 ^ 26
    + (encSrc y.s3).toNat * 2 ^ 19 + y.form.toNat / 4 * 2 ^ 15 + y.rm.toNat * 2 ^ 12
    + y.ty.toNat * 2 ^ 8 + y.mod.toNat)

/-- The words of a syllable, the first at the lowest address. -/
def encodeSyl (maj : Nat) (stop : Bool) (y : Syl) : List (BitVec 32) :=
  match y.len with
  | .s32 => [encWord0 maj stop y]
  | .l64 => [encWord0 maj stop y, encWord1 y]
  | .x96 => [encWord0 maj stop y, encWord1 y, y.lit]

/-- A slot instruction is well-formed: the form table lists its FORM under its constructor, and its
fields pass every check of Table 2-8 (with R37 for an S32 syllable). -/
noncomputable def wfSyl (i : Instr) (maj : Nat) (y : Syl) : Bool :=
  match lookupForm maj y.form.toNat with
  | none => false
  | some r => decide (r.make y = i) && (checkSyl r y).isNone && shortOk r y

/-- The words that stand for a slot instruction alone in its bundle. -/
def encode (i : Instr) : Option (List (BitVec 32)) :=
  match i.syl? with
  | some (maj, y) => some (encodeSyl maj true y)
  | none => none

/-! ### Engine command words -/

/-- The opcode of a command (Table 2-11) and the engines that take it: MX 0, CP0 1, CP1 2, GA 3. -/
def cmdEngines (op : Nat) : List Nat :=
  match op with
  | 0x01 | 0x02 | 0x03 | 0x04 | 0x05 | 0x06 => [0]
  | 0x10 | 0x11 | 0x12 | 0x13 => [1, 2]
  | 0x20 | 0x21 => [3]
  | 0x3F => [0, 1, 2, 3]
  | _ => []

/-- The commands that round (R210, R211, R215, R263). -/
def cmdRounds (op : Nat) : Bool :=
  op == 0x01 || op == 0x02 || op == 0x04 || op == 0x05 || op == 0x06

/-- The fields of the frame and the payload. -/
def parseCmd (w : CmdWord) : Cmd :=
  { rm := slice w 8 3, ftz := bit w 11, sat := bit w 12, awk := slice w 16 2, rsk := slice w 18 2
    awb := slice w 20 9, awph := bit w 29, rsb := slice w 32 9, awq := slice w 48 5
    awv := slice w 64 64, pay := slice w 128 128 }

def cmdOp (w : CmdWord) : Nat := field w 7 0

/-- The frame check of R57 but for the command's address. -/
def frameOk (e : Nat) (w : CmdWord) : Option DecodeErr :=
  let op := cmdOp w
  let c := parseCmd w
  if (cmdEngines op).isEmpty then some .reservedOpcode
  else if !(cmdEngines op).contains e then some .wrongEngine
  else if c.awk == 3 || c.rsk == 2 || c.rsk == 3 || c.rm == 5 || c.rm == 6 then some .badFrame
  else if field w 15 13 != 0 || field w 31 30 != 0 || field w 47 41 != 0 || field w 63 53 != 0 then
    some .reservedBits
  else if (c.awk != 1 && (c.awb != 0 || c.awph)) || (c.awk != 2 && (c.awq != 0 || c.awv != 0))
      || (c.rsk != 1 && c.rsb != 0) then some .badFrame
  else if !cmdRounds op && (c.rm != 0 || c.ftz || c.sat) then some .badRounding
  else none

/-- The instruction of a command opcode. -/
noncomputable def mkCmd (op : Nat) (q : QRef) (c : Cmd) : Option Instr :=
  match op with
  | 0x01 => some (.mma q c)
  | 0x02 => some (.mmas q c)
  | 0x03 => some (.mzero q c)
  | 0x04 => some (.mload q c)
  | 0x05 => some (.mdrain q c)
  | 0x06 => some (.pacc q c)
  | 0x10 => some (.copy q c)
  | 0x11 => some (.feed q c)
  | 0x12 => some (.feedm q c)
  | 0x13 => some (.send q c)
  | 0x20 => some (.gather q c)
  | 0x21 => some (.scatter q c)
  | 0x3F => some (.notify q c)
  | _ => none

/-- Decode a command word for a queue: the frame check, then the opcode. -/
noncomputable def decodeCmd (q : QRef) (w : CmdWord) : Except DecodeErr Instr :=
  match frameOk (q.queue.toNat % 4) w with
  | some e => .error e
  | none => match mkCmd (cmdOp w) q (parseCmd w) with
    | some i => .ok i
    | none => .error .reservedOpcode

/-- The word of a command from its opcode and fields (Table 2-10). -/
def encodeCmd (op : Nat) (c : Cmd) : CmdWord :=
  BitVec.ofNat 256 (op + c.rm.toNat * 2 ^ 8 + c.ftz.toNat * 2 ^ 11 + c.sat.toNat * 2 ^ 12
    + c.awk.toNat * 2 ^ 16 + c.rsk.toNat * 2 ^ 18 + c.awb.toNat * 2 ^ 20 + c.awph.toNat * 2 ^ 29
    + c.rsb.toNat * 2 ^ 32 + c.awq.toNat * 2 ^ 48 + c.awv.toNat * 2 ^ 64 + c.pay.toNat * 2 ^ 128)


/-! ### Sequencer words -/

/-- The bits of [59:0] that a sequencer opcode uses (Table 15-2). -/
def seqMask (op : Nat) : Nat :=
  match op with
  | 1 => 0xFFFFFFFFC000000
  | 2 => 0xFF0003FFC000000
  | 3 => 0xFF8000000000000
  | 4 => 0x800FFFFFFFFFFFF
  | 5 => 0xFFF
  | 6 => 0xC00FFFF00000FFF
  | 7 => 0x80FFFFFFE000000
  | 8 => 0x800000000000000
  | _ => 0

/-- The word is no SEQ-BAD-WORD: no reserved bit is set and its fields are accepted (R59, R323). -/
def seqFieldsOk (op : Nat) (a : SeqArg) : Bool :=
  1 ≤ op && op ≤ 8 && onlyBits a (seqMask op)
    && (op != 2 || field a 37 26 != 0)
    && (op != 3 || !(bit a 51 && field a 59 52 != 0))
    && (op != 4 || !(bit a 59 && field a 47 0 == 0))
    && (op != 6 || field a 47 32 != 0)

/-- The instruction of a sequencer opcode (Table 2-12). -/
noncomputable def mkSeq (op : Nat) (x : SeqCtx) (a : SeqArg) : Option Instr :=
  match op with
  | 1 => some (.sqest x a)
  | 2 => some (.sqhold x a)
  | 3 => some (.sqtear x a)
  | 4 => some (.sqwait x a)
  | 5 => some (.sqjmp x a)
  | 6 => some (.sqloop x a)
  | 7 => some (.sqsig x a)
  | 8 => some (.sqhalt x a)
  | _ => none

/-- Decode a sequencer word of a context (R58, R59). -/
noncomputable def decodeSeq (x : SeqCtx) (w : BitVec 64) : Except DecodeErr Instr :=
  let op := field w 63 60
  let a := slice w 0 60
  if seqFieldsOk op a then
    match mkSeq op x a with
    | some i => .ok i
    | none => .error .reservedOpcode
  else if 1 ≤ op && op ≤ 8 then .error .reservedBits else .error .reservedOpcode

/-- The word of a sequencer opcode and its bits [59:0]. -/
def encodeSeq (op : Nat) (a : SeqArg) : BitVec 64 := BitVec.ofNat 64 (op * 2 ^ 60 + a.toNat)

/-- The sequencer opcode and bits of an instruction. -/
def Instr.seq? (i : Instr) : Option (Nat × SeqCtx × SeqArg) :=
  match i with
  | .sqest x a => some (1, x, a)
  | .sqhold x a => some (2, x, a)
  | .sqtear x a => some (3, x, a)
  | .sqwait x a => some (4, x, a)
  | .sqjmp x a => some (5, x, a)
  | .sqloop x a => some (6, x, a)
  | .sqsig x a => some (7, x, a)
  | .sqhalt x a => some (8, x, a)
  | _ => none

/-- The command opcode, queue and fields of an instruction. -/
def Instr.cmd? (i : Instr) : Option (Nat × QRef × Cmd) :=
  match i with
  | .mma q c => some (0x01, q, c)
  | .mmas q c => some (0x02, q, c)
  | .mzero q c => some (0x03, q, c)
  | .mload q c => some (0x04, q, c)
  | .mdrain q c => some (0x05, q, c)
  | .pacc q c => some (0x06, q, c)
  | .copy q c => some (0x10, q, c)
  | .feed q c => some (0x11, q, c)
  | .feedm q c => some (0x12, q, c)
  | .send q c => some (0x13, q, c)
  | .gather q c => some (0x20, q, c)
  | .scatter q c => some (0x21, q, c)
  | .notify q c => some (0x3F, q, c)
  | _ => none

/-! ### The words of the opcode table -/

/-- The slot that a word of nbits decodes to as one syllable: its length is the word's, or the word gives
an operand word no bits. -/
noncomputable def tableSyl (nbits w : Nat) : Option Slot :=
  match decodeSyl (BitVec.ofNat 32 w) (BitVec.ofNat 32 (w / 2 ^ 32)) (BitVec.ofNat 32 (w / 2 ^ 64)) with
  | .ok t => if nbits ≤ 8 * t.syl.len.bytes then some t else none
  | .error _ => none

/-- The command of a word, for the first engine that takes it. -/
noncomputable def tableCmd (w : CmdWord) : Option Instr :=
  match (cmdEngines (cmdOp w))[0]? with
  | some e => (decodeCmd ⟨0, BitVec.ofNat 5 e⟩ w).toOption
  | none => none

/-- The instruction of a word numbered as the opcode table numbers it: a syllable of up to three
32-bit words, a command word of 256 bits, or a 64-bit sequencer word. -/
noncomputable def decodeTableWord (nbits w : Nat) : Option Instr :=
  let w := w % 2 ^ nbits
  if nbits = 256 then tableCmd (BitVec.ofNat 256 w)
  else match tableSyl nbits w with
    | some t => some t.instr
    | none => if nbits = 64 then (decodeSeq 0 (BitVec.ofNat 64 w)).toOption else none

end Sys2Proof
end

