-- ==== Sys2Proof/Machine/Numbers.lean ====
section
/-! DEFINITION. Number formats and exact arithmetic (chapter 1): the exact value of an encoding,
exact sums and products, RoundTo in every mode, saturation, conversions, the estimates and the
counter-based generator. Every unit of the module computes with these. -/

namespace Sys2Proof.Machine

/-! ### Exact values -/

/-- The exact value of an encoding (R23): a real (-1)^neg * m * 2^e, an infinity, or NaN. Zero keeps
its sign. -/
inductive FV where
  | nan
  | inf (neg : Bool)
  | fin (neg : Bool) (m : Nat) (e : Int)
  deriving DecidableEq, Repr

def FV.isZero : FV → Bool
  | .fin _ m _ => m == 0
  | _ => false

def FV.isNan : FV → Bool
  | .nan => true
  | _ => false

def FV.isInf : FV → Bool
  | .inf _ => true
  | _ => false

def FV.isFinite : FV → Bool
  | .fin _ _ _ => true
  | _ => false

def FV.neg : FV → FV
  | .nan => .nan
  | .inf s => .inf (!s)
  | .fin s m e => .fin (!s) m e

def FV.signOf : FV → Bool
  | .nan => false
  | .inf s => s
  | .fin s _ _ => s

/-- The natural number n. -/
def FV.ofNat (n : Nat) : FV := .fin false n 0
def FV.ofInt (x : Int) : FV := .fin (x < 0) x.natAbs 0

/-- 2^k times a value. -/
def FV.scale (x : FV) (k : Int) : FV :=
  match x with
  | .fin s m e => .fin s m (e + k)
  | y => y

/-- m * 2^(e - e0) as an integer; e0 is at most e. -/
def FV.intAt (e0 : Int) : FV → Int
  | .fin s m e => (if s then -1 else 1) * (m * 2 ^ (e - e0).toNat : Nat)
  | _ => 0

def FV.expo : FV → Int
  | .fin _ _ e => e
  | _ => 0

/-- The least exponent of the finite values of a list, from e0 down. -/
def minExpo (e0 : Int) : List FV → Int
  | [] => e0
  | x :: xs => minExpo (min e0 x.expo) xs

def sumAt (e0 : Int) : List FV → Int
  | [] => 0
  | x :: xs => x.intAt e0 + sumAt e0 xs

/-- A product of two exact values (R23). -/
def FV.mul (x y : FV) : FV :=
  match x, y with
  | .nan, _ | _, .nan => .nan
  | .inf s, .inf t => .inf (s != t)
  | .inf s, .fin t m _ => if m = 0 then .nan else .inf (s != t)
  | .fin s m _, .inf t => if m = 0 then .nan else .inf (s != t)
  | .fin s m e, .fin t n f => .fin (s != t) (m * n) (e + f)

/-- NaN, an infinity, or none where every term is finite and an exact sum exists (R23). -/
def specialSum (ts : List FV) : Option FV :=
  let pos := ts.any (fun t => t == .inf false)
  let negv := ts.any (fun t => t == .inf true)
  if ts.any FV.isNan || (pos && negv) then some .nan
  else if pos then some (.inf false)
  else if negv then some (.inf true)
  else none

/-- ExactSum(p_1, ..., p_n, acc) with its zero rule (R23). -/
def exactSum (ps : List FV) (acc : FV) : FV :=
  match specialSum (acc :: ps) with
  | some v => v
  | none =>
    let e0 := minExpo acc.expo ps
    let z := sumAt e0 (acc :: ps)
    if z = 0 then .fin (acc.isZero && acc.signOf && ps.all FV.isZero) 0 0
    else .fin (z < 0) z.natAbs e0

/-! ### Rounding -/

/-- The rounding modes (Table 1-5). RSTO carries its 16 random bits r (R19). -/
inductive Mode where
  | rne | rtz | rdn | rup
  | rsto (r : Nat)
  deriving DecidableEq, Repr

/-- Plain two-operand addition with the IEEE sign of an exact zero (R24, R103). -/
def fAdd (mode : Mode) (x y : FV) : FV :=
  match specialSum [x, y] with
  | some v => v
  | none =>
    let e0 := min x.expo y.expo
    let z := x.intAt e0 + y.intAt e0
    if z = 0 then
      if x.isZero && y.isZero && x.signOf == y.signOf then .fin x.signOf 0 0
      else .fin (mode == .rdn) 0 0
    else .fin (z < 0) z.natAbs e0

/-- The parameters of a floating-point format (Table 1-2): width, fraction width, bias, the largest
finite magnitude code, the code of infinity if it has one, and whether NaN exists. -/
structure FFmt where
  width : Nat
  man : Nat
  bias : Int
  maxCode : Nat
  inf? : Option Nat
  nan? : Option Nat
  deriving DecidableEq, Repr

def f32 : FFmt := ⟨32, 23, 127, 0x7F7FFFFF, some 0x7F800000, some 0x7FC00000⟩
def f16 : FFmt := ⟨16, 10, 15, 0x7BFF, some 0x7C00, some 0x7E00⟩
def bf16 : FFmt := ⟨16, 7, 127, 0x7F7F, some 0x7F80, some 0x7FC0⟩
def e4m3 : FFmt := ⟨8, 3, 7, 0x7E, none, some 0x7F⟩
def e5m2 : FFmt := ⟨8, 2, 15, 0x7B, some 0x7C, some 0x7E⟩
def e2m1 : FFmt := ⟨4, 1, 1, 0x7, none, none⟩

/-- The scalar floating formats of Table 1-1, by code. -/
def fmtOf (code : Nat) : FFmt :=
  match code with
  | 0 => f32
  | 1 => f16
  | 2 => bf16
  | 3 => e4m3
  | 4 => e5m2
  | _ => e2m1

/-- Float(v): the exact value of an encoding (R10, R12). -/
def FFmt.decode (f : FFmt) (code : Nat) : FV :=
  let s := code / 2 ^ (f.width - 1) % 2 == 1
  let mag := code % 2 ^ (f.width - 1)
  if f.inf? == some mag then .inf s
  else if f.maxCode < mag then .nan
  else
    let ex := mag / 2 ^ f.man
    let fr := mag % 2 ^ f.man
    if ex = 0 then .fin s fr (1 - f.bias - f.man)
    else .fin s (2 ^ f.man + fr) (ex - f.bias - f.man)

def FFmt.signed (f : FFmt) (s : Bool) (mag : Nat) : Nat := mag + (if s then 2 ^ (f.width - 1) else 0)

/-- The canonical NaN (R12); a format without NaN has none to give and answers 0. -/
def FFmt.nan (f : FFmt) : Nat := f.nan?.getD 0

/-- The overflow value where it is an infinity, under SAT (R17); what an infinite operand rounds to as well (DEDUCED, log
entry 92). -/
def FFmt.infinite (f : FFmt) (sat s : Bool) : Nat :=
  match f.inf? with
  | some c => if sat && f == e5m2 then f.signed s f.maxCode else f.signed s c
  | none => if f == e2m1 || sat then f.signed s f.maxCode else f.nan

/-- The overflow value of a mode (R17). -/
def FFmt.overflow (f : FFmt) (mode : Mode) (sat s : Bool) : Nat :=
  match mode with
  | .rne | .rsto _ => f.infinite sat s
  | .rtz => f.signed s f.maxCode
  | .rdn => if s then f.infinite sat s else f.signed s f.maxCode
  | .rup => if s then f.signed s f.maxCode else f.infinite sat s

/-- num / den rounded to an integer magnitude in a mode (R17, R19 with u = 1). -/
def roundMag (mode : Mode) (s : Bool) (num den : Nat) : Nat :=
  let q := num / den
  let r := num % den
  match mode with
  | .rtz => q
  | .rne => if den < 2 * r || (2 * r == den && q % 2 == 1) then q + 1 else q
  | .rdn => if s && r != 0 then q + 1 else q
  | .rup => if !s && r != 0 then q + 1 else q
  | .rsto rnd => (num * 2 ^ 16 / den + rnd) / 2 ^ 16

/-- The exponent of the unit in the last place at m * 2^e, m not 0 (subnormal magnitudes share the
least one). -/
def FFmt.ulpExp (f : FFmt) (m : Nat) (e : Int) : Int :=
  max ((m.log2 : Int) + e - f.man) (1 - f.bias - f.man)

/-- RoundTo(fmt, x) with SAT and the flush rule (R17, R18). -/
def FFmt.roundTo (f : FFmt) (mode : Mode) (sat ftz : Bool) (x : FV) : Nat :=
  match x with
  | .nan => f.nan
  | .inf s => f.infinite sat s
  | .fin s m e =>
    if m = 0 then f.signed s 0
    else
      let ue := f.ulpExp m e
      let q := if ue ≤ e then m * 2 ^ (e - ue).toNat else roundMag mode s m (2 ^ (ue - e).toNat)
      let mag := (ue - (1 - f.bias - f.man)).toNat * 2 ^ f.man + q
      if f.maxCode < mag then f.overflow mode sat s
      else if ftz && mag < 2 ^ f.man then f.signed s 0
      else f.signed s mag

/-- An encoding written unchanged but for canonical NaN and the flush rule (R103, R106). -/
def FFmt.canon (f : FFmt) (ftz : Bool) (code : Nat) : Nat := f.roundTo .rtz false ftz (f.decode code)

/-! ### Integer types -/

/-- The integer types of Table 1-4: width and signedness. -/
structure ITy where
  width : Nat
  signed : Bool
  deriving DecidableEq, Repr

/-- The integer type of a format code (Table 1-1). -/
def ityOf (code : Nat) : ITy :=
  match code with
  | 8 => ⟨32, true⟩
  | 9 => ⟨32, false⟩
  | 10 => ⟨16, true⟩
  | 11 => ⟨16, false⟩
  | 12 => ⟨8, true⟩
  | 13 => ⟨8, false⟩
  | 14 => ⟨4, true⟩
  | _ => ⟨4, false⟩

def ITy.min (t : ITy) : Int := if t.signed then -(2 ^ (t.width - 1) : Nat) else 0
def ITy.max (t : ITy) : Int := if t.signed then (2 ^ (t.width - 1) : Nat) - 1 else (2 ^ t.width : Nat) - 1

/-- An element's bits read as its type. -/
def ITy.read (t : ITy) (bits : Nat) : Int :=
  let b := bits % 2 ^ t.width
  if t.signed && 2 ^ (t.width - 1) ≤ b then (b : Int) - (2 ^ t.width : Nat) else b

/-- Saturate(type, x) (R21). -/
def ITy.saturate (t : ITy) (x : Int) : Int := if x < t.min then t.min else if t.max < x then t.max else x

/-- The W bits of an integer: wrapping (R14). -/
def ITy.bits (t : ITy) (x : Int) : Nat := (x % ((2 ^ t.width : Nat) : Int)).toNat

/-- Saturate or wrap, as SAT says (R88). -/
def ITy.fit (t : ITy) (sat : Bool) (x : Int) : Nat := t.bits (if sat then t.saturate x else x)

/-- A conversion from floating point to integer (R21). -/
def FV.toInt (x : FV) (t : ITy) (mode : Mode) : Int :=
  match x with
  | .nan => 0
  | .inf s => if s then t.min else t.max
  | .fin s m e =>
    let q := if 0 ≤ e then m * 2 ^ e.toNat else roundMag mode s m (2 ^ (-e).toNat)
    t.saturate (if s then -(q : Int) else q)

/-- Extension of an element to 32 bits by its signedness (R107, R124). -/
def ITy.extend32 (t : ITy) (bits : Nat) : BitVec 32 := BitVec.ofInt 32 (t.read bits)

/-! ### Comparison and selection -/

/-- The order of two values that are not NaN; zeros of either sign are equal (R105). -/
def FV.cmp (x y : FV) : Ordering :=
  match x, y with
  | .inf s, .inf t => if s == t then .eq else if s then .lt else .gt
  | .inf s, _ => if s then .lt else .gt
  | _, .inf t => if t then .gt else .lt
  | _, _ =>
    let e0 := min x.expo y.expo
    compare (x.intAt e0) (y.intAt e0)

/-- The conditions of the compares. -/
inductive Cond where
  | eq | ne | lt | le | gt | ge
  deriving DecidableEq, Repr

def Cond.holds (c : Cond) (o : Ordering) : Bool :=
  match c with
  | .eq => o == .eq
  | .ne => o != .eq
  | .lt => o == .lt
  | .le => o != .gt
  | .gt => o == .gt
  | .ge => o != .lt

/-- A floating compare: a NaN makes every condition false but ne (R105). -/
def fCond (c : Cond) (x y : FV) : Bool := if x.isNan || y.isNan then c == .ne else c.holds (x.cmp y)
def iCond (c : Cond) (x y : Int) : Bool := c.holds (compare x y)

/-- The total order of selection: -0 lies below +0 (R106). -/
def selLess (x y : FV) : Bool :=
  match x.cmp y with
  | .lt => true
  | .gt => false
  | .eq => x.isZero && x.signOf && !y.signOf

/-- FMIN and FMAX of two encodings (R106). -/
def FFmt.select (f : FFmt) (takeMax ftz : Bool) (a b : Nat) : Nat :=
  let x := f.decode a
  let y := f.decode b
  if x.isNan then f.canon ftz b
  else if y.isNan then f.canon ftz a
  else if takeMax then f.canon ftz (if selLess x y then b else a)
  else f.canon ftz (if selLess y x then b else a)

/-! ### The counter-based generator -/

/-- G(key, stream, ctr) (R197). -/
def genG (key : BitVec 64) (stream ctr : Nat) : BitVec 32 :=
  let x0 := BitVec.ofNat 64 (stream % 2 ^ 32 * 2 ^ 32 + ctr % 2 ^ 32) ^^^ key
  let x1 := x0 * 0xA3B19C57E2D46F0B#64
  let x2 := x1 ^^^ (x1 >>> 31)
  let x3 := x2 * 0x8F29D4C17B6E5A23#64
  let x4 := x3 ^^^ (x3 >>> 29)
  BitVec.ofNat 32 (x4.toNat / 2 ^ 32)

end Sys2Proof.Machine
end

