-- ==== Sys2Proof/Machine/Table.lean ====
section
/-! DEFINITION. The two containers State is built of: a table of numbered things, and a memory of
bytes in canonical form. -/

namespace Sys2Proof.Machine

/-- Numbered things, listed by rising number; what is not listed has a default that the reader gives. -/
abbrev Table (α : Type) := List (Nat × α)

/-- The entry of key k, or the default d. -/
def Table.get {α : Type} (d : α) : Table α → Nat → α
  | [], _ => d
  | (i, v) :: t, k => if i = k then v else Table.get d t k

/-- Put a listed entry in its place among rising keys. -/
def Table.insert {α : Type} (k : Nat) (v : α) : Table α → Table α
  | [] => [(k, v)]
  | (i, x) :: t => if k < i then (k, v) :: (i, x) :: t else (i, x) :: Table.insert k v t

/-- Remove key k. -/
def Table.erase {α : Type} (k : Nat) : Table α → Table α
  | [] => []
  | (i, x) :: t => if i = k then Table.erase k t else (i, x) :: Table.erase k t

/-- Set key k to v. -/
def Table.set {α : Type} (t : Table α) (k : Nat) (v : α) : Table α := Table.insert k v (Table.erase k t)

/-- Whether key k is listed. -/
def Table.has {α : Type} (t : Table α) (k : Nat) : Bool := t.any (fun e => e.1 == k)

/-- A memory: address and byte, addresses strictly rising, no byte equal to what an unlisted address
reads as. -/
abbrev Memory := List Host.Cell

/-- What a byte that nothing has written reads as (DESIGN CHOICE, log entry 2). -/
def emptyByte : Byte := 0

/-- The byte at an address. -/
def Memory.read : Memory → Nat → Byte
  | [], _ => emptyByte
  | (i, b) :: m, a => if i = a then b else Memory.read m a

/-- Write one byte, keeping the canonical form. -/
def Memory.write (m : Memory) (a : Nat) (b : Byte) : Memory :=
  let m' := Table.erase a m
  if b = emptyByte then m' else Table.insert a b m'

/-- n bytes from an address on. -/
def Memory.readN (m : Memory) (a : Nat) : Nat → List Byte
  | 0 => []
  | n + 1 => m.read a :: Memory.readN m (a + 1) n

/-- Write bytes from an address on. -/
def Memory.writeN (m : Memory) (a : Nat) : List Byte → Memory
  | [] => m
  | b :: bs => Memory.writeN (m.write a b) (a + 1) bs

/-- The canonical form. -/
def Memory.wf : Memory → Bool
  | [] => true
  | [(_, b)] => b != emptyByte
  | (i, b) :: (j, c) :: m => b != emptyByte && i < j && Memory.wf ((j, c) :: m)

end Sys2Proof.Machine
end

