-- ==== Sys2Proof/Machine/State.lean ====
section
/-! DEFINITION. The state of the module: everything the spec gives it, as plain data. -/

namespace Sys2Proof.Machine

/-- Why the machine stops. -/
inductive Fault where
  /-- Raised by step when the acting strand's unit number names no unit of the module (R398): safe,
  since no step of the module is of such a unit. -/
  | noSuchUnit
  deriving DecidableEq, Repr

/-- Why the model has no meaning for a step. -/
inductive Refusal where
  /-- Raised by exec's arm of an instruction whose meaning is not written: safe. -/
  | notModelled (mnemonic : String)
  deriving DecidableEq, Repr

/-! ### Strands -/

/-- The content of a latch (R30). `pending` is a result that the load-queue entry of that number has
still to bring (R120). -/
inductive Latch where
  | invalid
  | word (v : W64)
  | row (r : Row)
  | pending (seq : Nat)
  deriving DecidableEq, Repr

/-- Where a load's value goes: a register, or row r of tile t as key 64 * t + r (R201). `none`, `latW`
and `latV` are an a, a w and a v result that reach the latch alone (NWB, or a0). -/
inductive Dest where
  | none
  | latW
  | latV
  | w (n : Nat)
  | a (n : Nat)
  | row (key : Nat)
  deriving DecidableEq, Repr

/-- The run states (Table 3-3). -/
inductive RunState where
  | ready | running | blocked | halted | stopped
  deriving DecidableEq, Repr

/-- What a blocked strand waits for (R72). -/
inductive Wait where
  | none
  | barrier (b : Nat) (ph : Bool)
  | timeline (q : Nat) (n : W64)
  | cycle (t : W64)
  | queueFull (q : Nat)
  | queuesFull (q r : Nat)
  | tlbinv (n : W64)
  | circuit (h : Nat) (gen : Nat)
  | counter (c : Nat) (v : W64)
  | group (g : Nat) (mask : BitVec 16)
  | sync (g : Nat)
  deriving DecidableEq, Repr

/-- A routed fault or notice on its way to a strand, taken as an asynchronous trap (R82, R83); it is fresh
while the strand has been RUNNING and has committed no bundle since it came. -/
structure AsyncTrap where
  code : BitVec 8
  faddr : W64
  finfo : W64
  origin : W64
  fresh : Bool
  deriving DecidableEq, Repr

/-- What a trap carries to its frame. -/
structure TrapInfo where
  code : BitVec 8
  async : Bool
  slot : Nat
  syloff : Nat
  faddr : W64
  finfo : W64
  origin : W64
  tpc : W64
  npc : W64
  deriving DecidableEq, Repr

/-- How an access reaches memory: through the local space, or through the global one at a leaf whose lines
the slices hold, or at one they do not (R126, R270, R273). -/
inductive Space where
  | loc | cached | direct
  deriving DecidableEq, Repr

/-- A read-modify-write of an atomic (Table 5-3): operation number, the key of its first byte, its
width, operands, type, and for a floating add the mode and flush flag fixed at commit (R131). -/
structure AtomicOp where
  op : Nat
  space : Space
  key : Nat
  bytes : Nat
  x : W64
  y : W64
  ty : BitVec 4
  mode : BitVec 3
  ftz : Bool
  dst : Dest
  site : BitVec 4
  ea : W64
  pc : W64
  deriving DecidableEq, Repr

/-- An entry of the load queue (R81): a load of the bytes in `segs` (first key, length) with the pieces it
has already brought (R201), a marker, the mark of an atomic whose operation stands in the store queue under
the same number, or the fill of a region block, from its global page through a leaf of that space, which a
strand's access or its PREF.L started (R150). -/
inductive LqKind where
  | load (segs : List (Nat × Nat)) (space : Space) (dst : Dest) (ty : BitVec 4) (ea pc : W64) (sent : Bool)
      (got : List (Nat × Byte))
  | marker (pod : Bool)
  | atomic
  | fill (region block key : Nat) (space : Space) (pref : Bool)
  deriving DecidableEq, Repr

structure LqItem where
  seq : Nat
  kind : LqKind
  deriving DecidableEq, Repr

/-- An entry of the store queue: what takes effect in store-queue order (R81, R132, R145, R171, R300,
R355, R410, R414, R431). A store lists the bytes it writes, and the keys of those whose leaf has CMP set (first key,
length). A block is a write-back whose contents, and the bytes of it that are poisoned, a reset has fixed (R362). -/
inductive SqKind where
  | store (cells : List (Nat × Byte)) (space : Space) (ea : W64) (cmp : List (Nat × Nat)) (sent : Bool)
  | marker (pod : Bool)
  | atomic (a : AtomicOp) (sent : Bool)
  | posted (a : AtomicOp) (sent : Bool)
  | barr (unit bid n : Nat)
  | binit (bid count : Nat)
  | regBlock (region block : Nat) (segs : List (Nat × Nat)) (cmp : Bool)
  | block (cells : List (Nat × Byte)) (bad : List Nat) (cmp : List (Nat × Nat))
  | tlbinv (n : W64) (form : Nat) (va page : W64)
  | launch (ticket desc : W64) (arg : Option W64) (sup : Bool) (pkr : W64)
  | cntadd (c : Nat) (v : W64)
  | qarm (forager pair : Nat) (n : W64)
  | pncfg (tensor : Nat) (desc : List Byte) (dst : Dest) (sup : Bool) (pkr : W64)
  deriving DecidableEq, Repr

structure SqItem where
  seq : Nat
  kind : SqKind
  deriving DecidableEq, Repr

/-- A destination whose load, number seq, found POISON or PATH-LOST, and whether its trap has been
taken (R121). -/
structure BadDest where
  seq : Nat
  dst : Dest
  taken : Bool
  code : BitVec 8
  ea : W64
  pc : W64
  deriving DecidableEq, Repr

/-- A trap whose entry waits for earlier loads (R122): what it carries, the loads that had failed before
it, and the failed load it is the trap of. -/
structure Entering where
  info : TrapInfo
  seen : List Nat
  own : Option BadDest
  deriving DecidableEq, Repr

/-- An instance of a node of a launch (R350). -/
structure InstRef where
  part : Nat
  ticket : W64
  node : Nat
  num : Nat
  deriving DecidableEq, Repr

/-- A TLBINV that has left the store queue: its number, the dies still to acknowledge, and what they wait
for: queue entries (strand key, number) and commands (unit, queue, number) under way at its dispatch
(R300). -/
structure InvWait where
  n : W64
  dies : List Nat
  accs : List (Nat × Nat)
  cmds : List (Nat × Nat × W64)
  deriving DecidableEq, Repr

/-- A MIGHINT that waits for a migration engine's answer (R282): its number, destination and request, and
the rights it was made with (R304). -/
structure Hint where
  seq : Nat
  dst : Dest
  ea : W64
  home : BitVec 4
  sup : Bool
  pkr : W64
  deriving DecidableEq, Repr

/-- The architectural state of one strand (Tables 3-1, 3-2, 5-6, 6-1, 13-6, 15-2, 16-3, 20-3). -/
structure Strand where
  run : RunState
  pc : W64
  w : Table W32
  a : Table W64
  p : BitVec 16
  m : Table MaskReg
  lat : Table Latch
  td : Bool
  /-- Runs the update rule of a tensor's block, with supervisor rights (R422). -/
  rule : Option (Nat × Nat)
  /-- An update rule that met an uncorrectable error: its block will not commit (R422). -/
  ruleErr : Bool
  rm : BitVec 3
  ftz : Bool
  srkey : W64
  srctr : W32
  tvec : W64
  tfbase : W64
  lcnt0 : W32
  lbeg0 : W64
  lend0 : W64
  lcnt1 : W32
  lbeg1 : W64
  lend1 : W64
  repn : BitVec 16
  repi : BitVec 16
  /-- REP had a count of 0: the next bundle is decoded and passed over (R113). -/
  repSkip : Bool
  /-- A trap was taken in front of a bundle still to be passed over: its address, until trap return (R113,
  log entry 78). -/
  skipAt : Option W64
  runs : BitVec 32
  deferrals : BitVec 16
  keeps : BitVec 16
  atFwd : Bool
  atSite : BitVec 4
  wid : W64
  widfmt : W64
  vwin : BitVec 3
  promise : W64
  pkr : W64
  ivtl : W64
  ivnx : W64
  circctx : W64
  cstep : W64
  corig : W64
  larg : W64
  linfo : W64
  pathrec : W64
  lq : List LqItem
  sq : List SqItem
  seq : Nat
  bad : List BadDest
  held : List AsyncTrap
  /-- A trap is about to be entered (R122). -/
  entering : Option Entering
  wait : Wait
  /-- TLBINVs dispatched and not yet counted in order (R301). -/
  invs : List InvWait
  /-- Bundles committed in the current run (R73). -/
  runLen : Nat
  /-- Queues into which the strand's instance has enqueued, and the last number (R173). -/
  used : Table W64
  exitStatus : Option W32
  /-- The instance the strand belongs to: partition, ticket, node and instance (R352). -/
  inst : Option InstRef
  /-- PREEMPT-NOTICE was taken and its RETT has not committed (R361). -/
  noticed : Bool
  hints : List Hint
  deriving DecidableEq, Repr

/-- Reset values of a strand (Table 3-1, Table 3-2 and the later tables). Before its first launch a
strand is HALTED with a program counter of 0 and no circuit program (DEDUCED, log entry 5). -/
def Strand.reset : Strand :=
  { run := .halted, pc := 0, w := [], a := [], p := 1, m := [], lat := [], td := false, rule := none, ruleErr := false
    rm := 0, ftz := false, srkey := 0, srctr := 0, tvec := 0, tfbase := 0
    lcnt0 := 0, lbeg0 := 0, lend0 := 0, lcnt1 := 0, lbeg1 := 0, lend1 := 0, repn := 0, repi := 0, repSkip := false, skipAt := none
    runs := 0, deferrals := 0, keeps := 0, atFwd := false, atSite := 0, wid := 0, widfmt := 0
    vwin := 0, promise := BitVec.allOnes 64, pkr := 0, ivtl := 0, ivnx := 0
    circctx := 8, cstep := 0, corig := 0, larg := 0, linfo := 0, pathrec := 0
    lq := [], sq := [], seq := 0, bad := [], held := [], entering := none, wait := .none, invs := [], runLen := 0
    used := [], exitStatus := none, inst := none, noticed := false, hints := [] }

/-! ### Cores -/

/-- The 32-bit status register of a tile (R158): its sticky bits and the drain count. -/
structure TileStat where
  nan : Bool
  ovf : Bool
  dcnt : BitVec 16
  deriving DecidableEq, Repr

/-- A drain's update of a tile status, at the cycle its drain completed: reflected 12 cc later. -/
structure StatEvent where
  cc : W64
  tile : Nat
  nan : Bool
  ovf : Bool
  deriving DecidableEq, Repr

/-- A copied command word in a queue (R160, R164), with what ENQ captured: its number, the RSTO key and
counter (R20), the privilege and keys it translates with (R293), the strand's access number that its
release waits for (R161), the FEEDM it hangs on (R220) and its promise (R223). -/
structure QEntry where
  num : W64
  word : CmdWord
  key : W64
  ctr : W32
  sup : Bool
  pkr : W64
  seq : Nat
  /-- Follow-on of the FEEDM of that queue and number. -/
  pend : Option (Nat × W64)
  /-- Its FEEDM failed: it completes FEED-FAILED. -/
  failed : Bool
  promise : W64
  /-- The entry holds an uncorrectable error (R175). -/
  bad : Bool
  deriving DecidableEq, Repr

/-- A queue with its timeline (Table 6-4), open chain (R212) and the opcode of the last command
enqueued, which the combiner asks for (R173). -/
structure Queue where
  entries : List QEntry
  head : BitVec 4
  tail : BitVec 4
  nx : W64
  tl : W64
  fault : W64
  chain : Option (BitVec 3)
  lastOp : BitVec 8
  /-- The last command enqueued has completed, with this FAULT (R173). -/
  doneFault : W64
  /-- A SEND held CIRC-NOT-LIVE, and whether its fault was routed (R337). -/
  circHeld : Bool
  /-- The translation fault word of the XLATE-FAULT that wrote FAULT (R294; DESIGN CHOICE, log entry 82). -/
  xword : W64
  /-- Uncorrectable error in the queue or timeline: it is frozen (R175). -/
  frozen : Bool
  deriving DecidableEq, Repr

def Queue.reset : Queue :=
  { entries := [], head := 0, tail := 0, nx := 0, tl := 0, fault := 0, chain := none, lastOp := 0, doneFault := 0
    circHeld := false, xword := 0, frozen := false }

/-- A named barrier (R170). -/
structure Barrier where
  count : BitVec 16
  arrived : BitVec 16
  phn : W32
  frozen : Bool
  deriving DecidableEq, Repr

def Barrier.reset : Barrier := { count := 1, arrived := 0, phn := 0, frozen := false }

/-- The state of a FIFO slot (R205). -/
inductive SlotState where
  | empty | filling | full | failed
  deriving DecidableEq, Repr

/-- One operand FIFO slot (R205): 64 lines of 48 bytes, 12 side bytes a line, and its tag. -/
structure FSlot where
  state : SlotState
  pos : W32
  fmt : BitVec 4
  tsc : Byte
  spr : Bool
  data : BitVec 24576
  side : BitVec 6144
  bad : Bool
  deriving DecidableEq, Repr

def FSlot.reset : FSlot :=
  { state := .empty, pos := 0, fmt := 0, tsc := 0, spr := false, data := 0, side := 0, bad := false }

/-- What a started command will do when it completes (R162): its status and the address its fault names;
the bytes it writes, by key, and the blocks of compressed pages among them; the bytes of tile rows it
writes, by key 64 * tile + row, with the mask of those bytes; the drain update of R217; the slots it
fills. -/
structure CmdOut where
  status : BitVec 8
  faddr : W64
  /-- The translation fault word of an XLATE-FAULT (R294). -/
  xword : W64
  cells : List (Nat × Byte)
  packed : List Nat
  /-- Bytes of another module it writes: first key, length and the virtual address of the first. -/
  fars : List (Nat × Nat × W64)
  rows : List (Nat × MaskReg × Row)
  /-- MDRAIN: its tile, NAN and OVF. -/
  drain : Option (Nat × Bool × Bool)
  /-- FEED: FIFO B or A, and the slots it fills with their contents. -/
  fills : List (Bool × Nat × FSlot)
  /-- Releases the consumed slots: A, and so many of B (R207). -/
  release : Option Nat
  /-- SEND: context, handle and generation of its circuit, and the unit and barrier it signals. -/
  circ : Option (Nat × Nat × Nat)
  signal : Option (Nat × Nat)
  deriving DecidableEq, Repr

def CmdOut.plain (st : BitVec 8) (faddr : W64) : CmdOut :=
  { status := st, faddr := faddr, xword := 0, cells := [], packed := [], fars := [], rows := [], drain := none, fills := [], release := none
    circ := none, signal := none }

/-- A captured operation of the PPA (R233): what it does, and the Mode, FTZ and RSTO values taken at
commit. `factors` lists the lanes a PPMULV has still to apply. -/
inductive PpKind where
  | const (c : W32)
  | degree (n : BitVec 6)
  | factors (fs : List (Nat × Nat × Nat))
  | remove (a b : Nat)
  | merge (src : BitVec 3)
  | scale (k : W32)
  | load (row : Row) (scl stat : W32)
  deriving DecidableEq, Repr

structure PpOp where
  kind : PpKind
  mode : BitVec 3
  ftz : Bool
  key : W64
  ctr : W32
  deriving DecidableEq, Repr

/-- An accumulator of the PPA (Table 9-1). -/
structure PpAcc where
  c : Table W32
  scl : W32
  deg : BitVec 6
  trunc : Bool
  unstable : Bool
  nan : Bool
  range : Bool
  psn : Bool
  ops : List PpOp
  deriving DecidableEq, Repr

def PpAcc.reset : PpAcc :=
  { c := [], scl := 0, deg := 63, trunc := false, unstable := false, nan := false, range := false
    psn := false, ops := [] }

/-- The messages of a pair (R264). -/
inductive PairKind where
  | data | commit | mismatch | abort | withdraw | closed | faulted | parked
  deriving DecidableEq, Repr

/-- A message in a pair unit's inbox: its sender's unit, its tag, whether a FAULTED comes after the DATA of
its attempt, and, for DATA, the sender's fields (TTY, RM, FTZ) and tile rows. -/
structure PairMsg where
  kind : PairKind
  src : Nat
  tag : Byte
  after : Bool
  tty : BitVec 4
  rm : BitVec 3
  ftz : Bool
  tile : BitVec 3
  rows : Table Row
  deriving DecidableEq, Repr

/-- A command that an engine has started and not completed (R161). What it will do stands from its start
on, but for a PACC, which a message decides; `own` is the tile that a PACC sent (R264). -/
structure EngRun where
  queue : Nat
  num : W64
  op : Nat
  cc : W64
  out : Option CmdOut
  own : Option PairMsg
  /-- Its RSK arrival is made already (R171, R369; DEDUCED, log entry 7). -/
  rung : Bool
  /-- The global ranges it has translated (R300). -/
  vas : List (W64 × Nat)
  deriving DecidableEq, Repr

/-- One pair unit (R264, R266): its inbox, the pair buffer, the aborted marks, ABORTs held for a PACC not
yet started with their senders, whether WITHDRAW was sent, whether it is parked with its saved context,
and the cycle at which its own timeout stopped because its partner is saved. -/
structure PairUnit where
  inbox : List PairMsg
  buf : Option PairMsg
  aborted : List Byte
  heldAborts : List (Nat × Byte)
  withdrawn : Bool
  saved : Bool
  pausedAt : Option W64
  /-- The queues whose PACC failed or was skipped: the partner's half is kept until FAULT of one is cleared (R265). -/
  keptFor : List Nat
  /-- The buffer holds an uncorrectable error (R267). -/
  bad : Bool
  deriving DecidableEq, Repr

def PairUnit.reset : PairUnit :=
  { inbox := [], buf := none, aborted := [], heldAborts := [], withdrawn := false, saved := false
    pausedAt := none, keptFor := [], bad := false }

/-- A translation cached in a TLB (R295): partition, first page number and size in bytes of the range it
covers, the leaf word (that of e0 for a group), its level and the physical key of its entry. -/
structure TlbEntry where
  part : Nat
  base : Nat
  size : Nat
  leaf : W64
  level : Nat
  entry : Nat
  table : Nat
  deriving DecidableEq, Repr

/-- What the command, or the entry, that starts now has reached (R273, R380): the mark of its far reads, the bytes it
reads at their home though a slice may hold them, and the far bytes that are still to be asked for, with their
addresses. -/
structure Reach where
  mark : Nat
  direct : List Nat
  need : List (Nat × Nat × W64)
  /-- The global ranges it has translated: address and length (R300). -/
  vas : List (W64 × Nat)
  deriving DecidableEq, Repr

/-- What the eight strands of a unit share (Tables 6-1, 8-1, 10-1, 12-2, 20-3). -/
structure Core where
  cmdarea : W64
  tidsel : BitVec 6
  tids : Table (BitVec 256)
  rgnlo : Table W64
  rgnhi : Table W64
  filled : Table (BitVec 512)
  dirty : Table (BitVec 512)
  rows : Table Row
  tstat : Table TileStat
  statEv : List StatEvent
  queues : Table Queue
  barriers : Table Barrier
  mxpos : W64
  fifoA : Table FSlot
  fifoB : Table FSlot
  /-- The command each engine has started, by engine. -/
  eng : Table EngRun
  /-- The queue each engine served last (R161). -/
  served : Table Nat
  /-- The matrix engine takes commands only from the queue whose chain is open, and the cycle at which
  its last command completed (R212). -/
  chainLock : Bool
  chainAt : W64
  pp : Table PpAcc
  pair : PairUnit
  tlb : List TlbEntry
  cycle : W64
  /-- Timelines and barriers that changed in the present cc, as they stood before it (R162). -/
  tlOld : Table W64
  barOld : Table Barrier
  /-- IVTL of strands as it stood before the present cc, where a completion was recorded in it (R301). -/
  ivOld : Table W64
  /-- The strand whose run ended last, the cycle from which the gap of 2 cc counts, the strands that became
  READY in one cc of idling, and the RUNNING strand (R71). -/
  lastRun : StrandNo
  gapEnd : W64
  woken : List Nat
  active : Option StrandNo
  ilvsel : BitVec 9
  fportsel : W64
  uecsel : W64
  /-- The core is a member of this group of its cluster. -/
  group : Option (BitVec 2)
  /-- Poisoned elements of tiles: 64 * (64 * tile + row) + lane of 4 bytes (R175). -/
  badElems : List Nat
  /-- Tensor and region entries that hold an uncorrectable error (R175). -/
  badTids : List Nat
  badRgns : List Nat
  /-- Corrected single-bit errors counted (R86, R175). -/
  corrected : Nat
  /-- The unit is stopped for a pre-emption (R361). -/
  stoppedEngines : Bool
  /-- How much of the write log the fetch path of the core has seen (R32). -/
  codeMark : Nat
  /-- Held only while a start is worked out; none in every state a step leaves. -/
  reach : Option Reach
  deriving DecidableEq, Repr

/-- Reset values of a unit (Tables 6-1, 8-1, 10-1, R158, R160, R170). -/
def Core.reset : Core :=
  { cmdarea := 0x0000000F000001F0, tidsel := 0, tids := [], rgnlo := [], rgnhi := [], filled := []
    dirty := [], rows := [], tstat := [], statEv := [], queues := [], barriers := [], mxpos := 0
    fifoA := [], fifoB := [], eng := [], served := [], chainLock := false, chainAt := 0, pp := [], pair := PairUnit.reset, tlb := []
    cycle := 0, tlOld := [], barOld := [], ivOld := [], lastRun := 7, gapEnd := 0, woken := [], active := none, ilvsel := 0, fportsel := 0, uecsel := 0
    group := none, badElems := [], badTids := [], badRgns := [], corrected := 0, stoppedEngines := false, codeMark := 0, reach := none }

/-! ### Clusters -/

/-- A group slot (R256, R257): the member mask, the joined cores, each member's strand, the schedule
counter, the parked cores, whether it has started and at which cycle, and the cycle since which the
stall wire is held. -/
structure Group where
  mask : BitVec 16
  joined : BitVec 16
  strands : Table Nat
  scnt : W64
  parked : BitVec 16
  /-- Members whose SGRP, and whose SGSYNC, has completed. -/
  done : BitVec 16
  synced : BitVec 16
  started : Bool
  /-- The cc at which the members' next bundles may issue (R260, R261). -/
  startAt : W64
  /-- The stall wire is held since this cc (R258): the latest of the members' counters, which show one time. -/
  holdSince : Option W64
  faultHold : BitVec 16
  deriving DecidableEq, Repr

def Group.reset : Group :=
  { mask := 0, joined := 0, strands := [], scnt := 0, parked := 0, done := 0, synced := 0, started := false
    startAt := 0, holdSince := none, faultHold := 0 }

/-- Cluster state (Table 10-1): the split asked for and in effect, the limits, the groups and the L2
TLB. -/
structure Cluster where
  slcfg : BitVec 5
  pin : BitVec 5
  chg : Bool
  sghold : W32
  pairto : W32
  groups : Table Group
  tlb : List TlbEntry
  /-- Bytes that a host DMA write changed under a line this slice still holds (R342). -/
  stale : Table Byte
  /-- Corrected single-bit errors counted (R267). -/
  corrected : Nat
  deriving DecidableEq, Repr

def Cluster.reset : Cluster :=
  { slcfg := 0, pin := 0, chg := false, sghold := 0x00100000, pairto := 0x00010000, groups := []
    tlb := [], stale := [], corrected := 0 }

/-! ### Memory homes, migration and translation structures -/

/-- An admitted move of a page (R277, R279). -/
structure Move where
  id : Nat
  engine : BitVec 1
  leafKey : Nat
  part : PartNo
  va : Nat
  leaf : W64
  dst : Nat
  /-- Frames as numbers of 4 KiB of keys; the new one's physical address as its stack gave it. -/
  oldFrame : Nat
  newFrame : Nat
  newPhys : Nat
  started : Bool
  copyNs : Nat
  committed : Bool
  releasing : Bool
  /-- Accesses that H held at the commit: queue entries by strand key and number, and commands (R279). -/
  heldAccs : List (Nat × Nat)
  heldCmds : List (Nat × Nat × W64)
  deriving DecidableEq, Repr

/-- A write of the Hive or a parameter node that waits at its home: the unit that makes it, its bytes, and the counter that
rises once they are visible (R279, R252). -/
structure HeldWrite where
  unit : Nat
  cells : List (Nat × Byte)
  counter : Option Nat
  deriving DecidableEq, Repr

/-- A record whose eviction waits for what was under way with the entries it dropped (R297). -/
structure Eviction where
  page : Nat
  dies : List Nat
  accs : List (Nat × Nat)
  cmds : List (Nat × Nat × W64)
  deriving DecidableEq, Repr

/-- A translation directory record (R297): the partitions that name its page, the level and range of its first
use, the dies, and whether another use has made it MULTI. -/
structure DirRecord where
  parts : List Nat
  level : Nat
  base : Nat
  dies : List Nat
  multi : Bool
  deriving DecidableEq, Repr

/-- A table entry held by a die's walk cache (R295). -/
structure WalkEntry where
  die : Nat
  part : Nat
  level : Nat
  base : Nat
  table : Nat
  entry : W64
  deriving DecidableEq, Repr

/-- The memory side of the module (Table 12-2, R271, R278, R283, R297). -/
structure Homes where
  /-- Present compute dies, and the interleave table. -/
  present : List Nat
  ilv : Table Nat
  farPresent : List Nat
  /-- Attached CXL expansion bytes of FD0 and FD1. -/
  cxl : Table Nat
  migcommits : BitVec 16
  migholds : BitVec 16
  migaborts : BitVec 16
  migother : BitVec 16
  migrel : W64
  migpool : Table W64
  abud : Table (BitVec 17)
  abudNext : Table (BitVec 17)
  /-- ns used in the period, by 16 * activity + home code. -/
  abused : Table (BitVec 17)
  about : Table (BitVec 16)
  period : Nat
  history : List (Nat × W64 × Option W64)
  moves : List Move
  nextMove : Nat
  dir : Table DirRecord
  walk : List WalkEntry
  /-- Blocks of 512 bytes by number: 0 RAW, 1 PACKED, 2 ZERO (R276). -/
  blocks : Table (BitVec 2)
  /-- Lost stacks, agents and far dies (R284). -/
  lost : List Nat
  /-- Corrected errors counted at the homes (R284, R306). -/
  corrected : Nat
  /-- Records whose eviction is under way (R297). -/
  evicting : List Eviction
  /-- Writes that no queue holds and that wait for a move or a change of split, oldest first (R252, R279). -/
  heldWrites : List HeldWrite
  /-- Ranges whose dirty lines every slice has written back: first key, bytes, and how long the write log
  was then (R360). -/
  cleaned : List (Nat × Nat × Nat)
  deriving DecidableEq, Repr

def Homes.reset : Homes :=
  { present := [0, 1, 2, 3, 4, 5, 6, 7], ilv := [], farPresent := [8, 9], cxl := []
    migcommits := 0, migholds := 0, migaborts := 0, migother := 0, migrel := 0, migpool := []
    abud := [(0, 10000), (1, 2000), (2, 20000), (3, 5000), (4, 1000)], abudNext := [], abused := []
    about := [], period := 0, history := [], moves := [], nextMove := 0, dir := [], walk := []
    blocks := [], lost := [], corrected := 0, evicting := [], heldWrites := [], cleaned := [] }

/-! ### The fabric sequencer -/

/-- The states of a circuit handle (R315). -/
inductive CircState where
  | idle | settling | live | failed | refused
  deriving DecidableEq, Repr

/-- One handle (R315, R333): its state, generation, the ports of its last SQEST, the step of its
expiry, and the time at which it becomes LIVE. -/
structure Handle where
  state : CircState
  gen : W32
  sport : BitVec 7
  dport : BitVec 7
  expiry : Option Nat
  liveAt : W64
  deriving DecidableEq, Repr

def Handle.reset : Handle :=
  { state := .idle, gen := 0, sport := 0, dport := 0, expiry := none, liveAt := 0 }

/-- A settled SQSIG waiting for its time (R329): unit, barrier and count. -/
structure SettledSig where
  at_ : W64
  unit : Nat
  bar : Nat
  n : Nat
  deriving DecidableEq, Repr

/-- A sequencer context (R313): the program, its place, the step in whose boundary the segment now
due is applied, and the handles. -/
structure Seq where
  loaded : Bool
  part : Nat
  owner : Option (W64 × Nat × Nat)
  prog : List W64
  pc : Nat
  lc : Table (BitVec 16)
  step : Nat
  origin : W64
  slots : W64
  status : Byte
  applied : BitVec 48
  next : Option Nat
  /-- Words of the present segment executed (R320). -/
  words : Nat
  handles : Table Handle
  sigs : List SettledSig
  /-- Circuits to establish again, at that boundary, after a restore (R341). -/
  revive : Option (Nat × List Nat)
  deriving DecidableEq, Repr

def Seq.reset : Seq :=
  { loaded := false, part := 0, owner := none, prog := [], pc := 0, lc := [], step := 256, origin := 0
    slots := 0, status := 0, applied := 0, next := none, words := 0, handles := [], sigs := [], revive := none }

/-- The optical side of the package (R319, R338). -/
structure Optics where
  bad0 : W64
  bad1 : BitVec 16
  laser : BitVec 16
  ring : BitVec 16
  late : BitVec 16
  resent : BitVec 16
  deriving DecidableEq, Repr

def Optics.reset : Optics := { bad0 := 0, bad1 := 0, laser := 0, ring := 0, late := 0, resent := 0 }

/-! ### Parameter nodes -/

/-- One block of a tensor (R418, R421): the step it last committed, its bank, the step applying or
waiting to apply with its intake slot and strand, and the held steps with their slots. -/
structure PnBlock where
  last : BitVec 48
  bank : Bool
  applying : Option (BitVec 48 × Nat)
  strand : Option (Nat × Nat)
  held : List (BitVec 48 × Nat)
  /-- Steps of duplicates to answer once the step ends (R421). -/
  dups : List (BitVec 48)
  /-- OTAG of the block that produced the committed weights (R424). -/
  otag : BitVec 16
  deriving DecidableEq, Repr

def PnBlock.reset : PnBlock :=
  { last := 0, bank := false, applying := none, strand := none, held := [], dups := [], otag := 0 }

/-- A commit whose return waits (R428): block, step, time, the return, and the DUP returns of the same weights
that wait with it. -/
structure PnCommit where
  block : Nat
  step : BitVec 48
  at_ : W64
  /-- The status of its reading: one that could not be read is sent to nobody (R425). -/
  status : Byte
  data : List Byte
  dups : Nat
  deriving DecidableEq, Repr

/-- A WRITE of a return or report to another module, not yet acknowledged (R424, R425): its number, engine,
target module and time. -/
structure PnSend where
  id : Nat
  engine : Nat
  mdl : Nat
  at_ : W64
  deriving DecidableEq, Repr

/-- A message from the peer node (R428). -/
inductive PnMsg where
  | notice (b : Nat) (s : BitVec 48)
  | ack (b : Nat) (s : BitVec 48)
  | demote
  deriving DecidableEq, Repr

/-- A parameter tensor (Tables 22-1, R426 to R432). -/
structure Tensor where
  valid : Bool
  desc : List W64
  acting : Bool
  fenced : Bool
  /-- Half of the report ring (R426) and reports written. -/
  half : Bool
  reports : Nat
  /-- A primary that was secondary before: its returns and reports have SRC = 1 (R431). -/
  src : Bool
  blocks : Table PnBlock
  /-- Headers of the intake slots in use. -/
  slots : Table (BitVec 256)
  dup : BitVec 16
  ahead : BitVec 16
  missing : BitVec 16
  failed : BitVec 16
  /-- Deadlines set: step, package time, and whether it has fallen (R427). -/
  deadlines : List (BitVec 48 × W64 × Bool)
  /-- Commits of the primary that wait for their ACK (R428). -/
  waiting : List PnCommit
  /-- Commits of the secondary without their NOTICE, and NOTICEs without their commit. -/
  unnoticed : List PnCommit
  noticed : List (Nat × BitVec 48)
  inbox : List PnMsg
  /-- Returns and reports under way to other modules. -/
  sends : List PnSend
  /-- The peer answers. -/
  mirror : Bool
  deriving DecidableEq, Repr

def Tensor.reset : Tensor :=
  { valid := false, desc := [], acting := false, fenced := false, half := false, reports := 0, src := false
    blocks := [], slots := [], dup := 0, ahead := 0, missing := 0, failed := 0
    deadlines := [], waiting := [], unnoticed := [], noticed := [], inbox := [], sends := [], mirror := false }

/-! ### Launches -/

/-- A node of an accepted launch (Table 16-3) and how far it is. -/
structure Node where
  cls : BitVec 2
  prio : BitVec 3
  nstr : Nat
  noReplay : Bool
  notice : Bool
  circ : Bool
  widfmt : W64
  counts : List Nat
  entry : W64
  tids : List (Nat × List W64)
  rgns : List (Nat × List W64)
  cprog : W64
  clen : Nat
  step : Nat
  slots : W64
  pred : W64
  bufs : List (Nat × Nat)
  /-- Gangs dispatched, and instances of the node complete. -/
  gangs : List Nat
  finished : List Nat
  failed : Bool
  /-- The instance whose failure is the node's. -/
  blamed : Option Nat
  cancelled : Bool
  complete : Bool
  exitStatus : W32
  fault : W64
  noNotify : Bool
  deriving DecidableEq, Repr

/-- A launch (R355 to R359): its ticket, descriptor and argument, the rights of R443, the core that
launched it, and its outcome. -/
structure Launch where
  part : Nat
  ticket : W64
  desc : W64
  arg : Option W64
  sup : Bool
  pkr : W64
  /-- The launching unit; none for a doorbell or a launch-table slot. -/
  origin : Option Nat
  /-- PRIO of a launch-table entry, and the entry. -/
  prio : Option (BitVec 3)
  slot : Option Nat
  at_ : W64
  /-- Past the store queue of the strand (R355). -/
  effective : Bool
  accepted : Bool
  nodes : List Node
  crec : W64
  report : W64
  argv : W64
  status : Byte
  noRecord : Bool
  replays : BitVec 4
  cancelled : Bool
  complete : Bool
  /-- Pre-emption of the instances on these units has begun (R361), the cycle of each unit then, and whether
  instances are saved. -/
  stopping : Bool
  stopUnits : List Nat
  noticeAt : List (Nat × W64)
  /-- An overrun slot of an entry with PREEMPT made the launch: what stands in its way is pre-empted (R357). -/
  preempts : Bool
  saved : Bool
  deriving DecidableEq, Repr

/-- A buffer handle (Table 16-5), the last writer node of its range, and whether a reader has come
since a doorbell (R360). -/
structure BufHandle where
  w0 : W64
  w1 : W64
  w2 : W64
  w3 : W64
  writer : Option (W64 × Nat)
  readers : List (W64 × Nat)
  hostWrote : Bool
  deriving DecidableEq, Repr

def BufHandle.reset : BufHandle :=
  { w0 := 0, w1 := 0, w2 := 0, w3 := 0, writer := none, readers := [], hostWrote := false }

/-- What QPOST captures with an entry (R401, R413). -/
structure QpCap where
  sup : Bool
  pkr : W64
  unit : Nat
  strand : Nat
  seq : Nat
  deriving DecidableEq, Repr

/-- An entry that has fired and not retired (R401). -/
structure QpOut where
  n : W64
  words : BitVec 512
  at_ : W64
  status : Option Byte
  deriving DecidableEq, Repr

/-- A transfer that has reached a pair (R405 to R407, R420): its sender, entry and bytes, and the
pieces still to be placed. -/
structure Arrival where
  src : PairAddr
  n : W64
  words : BitVec 512
  data : List Byte
  todo : List Nat
  checked : Bool
  status : Byte
  /-- Not all pieces have come yet. -/
  partialIn : Bool
  deriving DecidableEq, Repr

/-- A contribution to an ordered combine that is staged and not yet acknowledged: its stage counter, the
pair it came to, its sender and entry, and the status it will have (R407). -/
structure Staged where
  scnt : Nat
  pair : Nat
  src : PairAddr
  n : W64
  status : Byte
  deriving DecidableEq, Repr

/-- A queue pair (Table 21-1). -/
structure Pair where
  cfg : W64
  ring : W64
  posted : W64
  armlim : W64
  retired : W64
  err : W64
  fired : W64
  caps : Table QpCap
  out : List QpOut
  arrivals : List Arrival
  frozen : Bool
  deriving DecidableEq, Repr

def Pair.reset : Pair :=
  { cfg := 0, ring := 0, posted := 0, armlim := 0, retired := 0, err := 0, fired := 0, caps := []
    out := [], arrivals := [], frozen := false }

/-- A saved instance or core (R361): units with their strands and core, scratchpad bytes, and the
sequencer context of its gang. -/
structure Saved where
  ticket : W64
  /-- The number by which entries and blocks name its strands (R401, R429). -/
  id : Nat
  units : List Nat
  strands : List (Nat × Strand)
  cores : List (Nat × Core)
  /-- Contexts of the pairs of saved foragers (R417). -/
  pairs : List (Nat × Pair)
  spads : List (Nat × Memory)
  poisons : List (Nat × Memory)
  groups : List (Nat × Nat × Group)
  ctx : List (Nat × Seq)
  deriving DecidableEq, Repr

/-! ### Partitions -/

/-- The routed record of an engine fault that completes with XLATE-FAULT (R294): FINFO, the faulting address, the
translation fault word beside it, and the origin word. -/
structure XRecord where
  finfo : W64
  faddr : W64
  word : W64
  origin : W64
  deriving DecidableEq, Repr

/-- What a partition holds (R298, R272, Table 16-1). -/
structure Part where
  xroot : W64
  hinten : Bool
  replay : Bool
  rcnt : BitVec 4
  frozen : Bool
  weight : Byte
  frt : W64
  flog : W64
  frlog : W64
  frhead : W32
  save : W64
  pnwin : W32
  ltick : W64
  handles : Table BufHandle
  launches : List Launch
  /-- Doorbell writes that wait while 256 launches are open (R355). -/
  bells : List W64
  /-- Rule strands are being pre-empted, under that ticket of no launch (R429). -/
  stopRules : Option W64
  /-- The routed records of XLATE-FAULTs, with the translation fault word beside the address (R294; DESIGN CHOICE, log
  entry 82). -/
  xrecs : List XRecord
  /-- Fence entries appended to FLOG: ticket and node (R362). -/
  fences : List (W64 × Nat)
  saved : List Saved
  tensors : Table Tensor
  /-- Blocks that wait for a tier strand, in the order of their classification: tensor, block, step (R422). -/
  applies : List (Nat × Nat × BitVec 48)
  /-- Gangs served in the current weighted round (R354). -/
  served : Nat
  deriving DecidableEq, Repr

def Part.reset : Part :=
  { xroot := 0, hinten := false, replay := false, rcnt := 0, frozen := false, weight := 1
    frt := 0x5FD517D00, flog := 0, frlog := 0, frhead := 0, save := 0, pnwin := 16384, ltick := 0
    handles := [], launches := [], bells := [], stopRules := none, xrecs := [], fences := [], saved := [], tensors := [], applies := [], served := 0 }

/-- The assignment registers of the module block (Table 16-10). -/
structure Assign where
  unit : Table W64
  oport : Table W64
  seq : Table W64
  vf : Table W64
  deriving DecidableEq, Repr

def Assign.reset : Assign := { unit := [], oport := [], seq := [], vf := [] }

/-- A launch-table entry (R357): its words, the number of its next slot, whether a slot waits, the time of one that
waits for a free launch and has not overrun, and the ticket of its last launch. -/
structure SlotEntry where
  w0 : W64
  w1 : W64
  w2 : W64
  w3 : W64
  next : Nat
  waiting : Bool
  full : Option W64
  last : Option W64
  deriving DecidableEq, Repr

def SlotEntry.reset : SlotEntry :=
  { w0 := 0, w1 := 0, w2 := 0, w3 := 0, next := 0, waiting := false, full := none, last := none }

/-- Package time registers (R347) and the offset still to be made up by the rate (R346). -/
structure Clock where
  ptctl : W64
  ptoff : W64
  ptstat : W64
  slew : Int
  /-- ns since the last whole ns was made up. -/
  frac : Nat
  /-- Since when every measured offset lay within 100 ns. -/
  within : Option W64
  deriving DecidableEq, Repr

def Clock.reset : Clock := { ptctl := 0, ptoff := 0, ptstat := 0, slew := 0, frac := 0, within := none }

/-! ### The fabric -/

/-- A key slot (Table 20-1): its key, salt and invocation counter. -/
structure KeySlot where
  key : BitVec 256
  salt : W32
  counter : W64
  deriving DecidableEq, Repr

def KeySlot.reset : KeySlot := { key := 0, salt := 0, counter := 0 }

/-- A flit sent and not yet answered (R387): package times of its first and last transmission, and
how many transmissions failed. -/
structure Flight where
  flit : Flit
  first : W64
  sent : W64
  fails : Nat
  deriving DecidableEq, Repr

/-- A logical link (R384 to R390): both directions of it. -/
structure Link where
  up : Bool
  txSlot : Bool
  rxSlot : Bool
  txSeq : W32
  rxSeq : W32
  flights : List Flight
  discarding : Bool
  fecTx : BitVec 2
  fecRx : BitVec 2
  fecOut : BitVec 2
  /-- An open change: code and time, as proposer and as acceptor (R390). -/
  fecProp : Option (BitVec 2 × W64)
  fecAcc : Option (BitVec 2 × W64)
  deriving DecidableEq, Repr

def Link.reset : Link :=
  { up := false, txSlot := false, rxSlot := false, txSeq := 0, rxSeq := 0, flights := []
    discarding := false, fecTx := 0, fecRx := 0, fecOut := 0, fecProp := none
    fecAcc := none }

/-- A message that waits in an egress queue (R383): its TYPE, final destination and content. -/
structure OutMsg where
  type : Byte
  src : BitVec 6
  dst : BitVec 6
  msg : FabMsg
  /-- The place of its flit in the queue's space in HBM; none while it is on chip (R383). -/
  spill : Option Nat
  deriving DecidableEq, Repr

/-- A lane of an engine (R382): its port, the destination it serves, flits sent in this turn, and
until when it retunes. -/
structure Lane where
  port : Option Nat
  dest : Nat
  count : Nat
  ready : W64
  deriving DecidableEq, Repr

def Lane.reset : Lane := { port := none, dest := 63, count := 16, ready := 0 }

/-- A far access that has been sent and not answered (R129, R392): who made it, its queue entry, where
it went, when, and whether it is a store. -/
structure FarReq where
  id : Nat
  /-- The unit and the strand; from 8 on the second is the mark of a read that no strand's queue makes. -/
  owner : Option (Nat × Nat)
  seq : Nat
  mdl : Nat
  engine : Nat
  port : Nat
  hop : Nat
  at_ : W64
  store : Bool
  /-- It is a posted atomic (R134). -/
  posted : Bool
  ea : W64
  part : Nat
  /-- The bytes it names: address in the module and length. -/
  key : Nat
  bytes : Nat
  /-- The answer: the bytes, or the cause of the fault it found. -/
  got : Option (List Byte)
  fail : Option (BitVec 8)
  /-- Of a lost access, the module whose onward link failed, where it is known (R392). -/
  via : Option Nat
  /-- It was forwarded across a migration at its home (R280). -/
  fwd : Bool
  deriving DecidableEq, Repr

/-- A far request or store that has arrived at this module (R368). -/
structure FarIn where
  src : BitVec 6
  engine : Nat
  msg : FabMsg
  deriving DecidableEq, Repr

/-- A delivery context of Ultra Ethernet (Table 20-3). -/
structure Pdc where
  valid : Bool
  part : Nat
  wnd : W32
  inflight : W32
  rtt : W32
  base : W32
  ecn : BitVec 16
  trimmed : BitVec 16
  retrans : BitVec 16
  deriving DecidableEq, Repr

def Pdc.reset : Pdc :=
  { valid := false, part := 0, wnd := 0, inflight := 0, rtt := 0, base := 0, ecn := 0, trimmed := 0
    retrans := 0 }

/-- A receive context (R395): its partition, unit and barrier, and for each message of it the bytes
received by offset, until its arrival is made. -/
structure RxCtx where
  valid : Bool
  part : Nat
  unit : Nat
  bar : Nat
  got : Table (List Nat)
  arrived : List Nat
  deriving DecidableEq, Repr

def RxCtx.reset : RxCtx := { valid := false, part := 0, unit := 0, bar := 0, got := [], arrived := [] }

/-- What leaves the module through a port in Ethernet mode (R395, R404): a message of a queue pair on its delivery
context, and the standard's answers to what came. -/
inductive UetOut where
  | message (port : Nat) (pdc : Nat) (pair : Nat) (entry : W64) (dst : W64) (data : List Byte)
  | again (port : Nat) (pdc : Nat)
  | ack (ctx message : Nat)
  | error (ctx message : Nat)
  | refused (ctx message : Nat)
  | trimmed (ctx message : Nat)
  deriving DecidableEq, Repr

/-- The fabric side of the module (Tables 20-1, 20-3, R381 to R395, R399, R400). -/
structure Fabric where
  modnum : BitVec 6
  pod : Bool
  /-- The number of modules of the pod (R380). -/
  podSize : Nat
  pcfg : Table W64
  /-- A mode written and not yet in effect (R379). -/
  pcfgNext : Table W64
  portUp : Table Bool
  veqcfg : Table W64
  path : Table W64
  keyTx : Table KeySlot
  keyRx : Table KeySlot
  links : Table Link
  egress : Table (List OutMsg)
  /-- Messages that wait where they arose for room in a full egress queue (R383). -/
  backlog : Table (List OutMsg)
  lanes : Table Lane
  /-- The last lending boundary of each engine that has taken effect (R381). -/
  lent : Table W64
  depth : Table W32
  reqs : List FarReq
  nextReq : Nat
  inbox : List FarIn
  pdcs : Table Pdc
  rxs : Table RxCtx
  /-- What has left through ports in Ethernet mode, newest last. -/
  ethOut : List UetOut
  pairs : Table Pair
  staged : List Staged
  counters : Table W64
  frozenCounters : List Nat
  /-- Every flit sent, newest first, with the link (64 * engine + far module) it left on. -/
  wire : List (Nat × Flit)
  deriving DecidableEq, Repr

def Fabric.reset : Fabric :=
  { modnum := 0, pod := false, podSize := 64, pcfg := [], pcfgNext := [], portUp := [], veqcfg := []
    path := [], keyTx := [], keyRx := [], links := [], egress := [], backlog := [], ethOut := [], lanes := [], lent := [], depth := [], reqs := []
    nextReq := 0, inbox := [], pdcs := [], rxs := [], pairs := [], staged := [], counters := [], frozenCounters := [], wire := [] }

/-! ### Module service -/

/-- The power states (Table 24-1). -/
inductive Power where
  | p0 | p1 | p2 | trip
  deriving DecidableEq, Repr

/-- What the module sends to the host (R359, R362, R440). -/
inductive HostMsg where
  | launchDone (part : Nat) (ticket : W64)
  | faultVector (part : Nat)
  /-- A fault that concerns no partition: FINFO and FADDR (R394). -/
  | fault (finfo faddr : W64)
  /-- What a host read of memory answers (R342); a poisoned answer carries no data (R284). -/
  | dmaRead (addr : Nat) (data : List Byte) (poison : Bool)
  | spdmVersion (versions : List (BitVec 16))
  | spdmCapabilities (version : BitVec 8)
  | spdmAlgorithms (measHash hash asym ext : BitVec 32)
  | spdmError
  | spdmCertificate (root : BitVec 384) (chain : List Byte)
  | spdmChallengeAuth (nonce : BitVec 256) (sig : BitVec 768)
  | spdmMeasurements (nonce : BitVec 256) (regs : List (BitVec 384)) (sig : BitVec 768)
  deriving DecidableEq, Repr

/-- Module service (R435 to R441). -/
structure Service where
  power : Power
  mhz : BitVec 11
  watts : BitVec 16
  temps : W32
  flow : BitVec 16
  drop : W32
  pcap : BitVec 12
  staged : Table W64
  meas : Table (BitVec 384)
  rollback : W32
  recovery : Bool
  /-- Bring-up has come to step 7 since power-on (R437). -/
  booted : Bool
  /-- Package time of the last step of the core clock (Table 24-1). -/
  stepAt : W64
  negotiated : Bool
  out : List HostMsg
  deriving DecidableEq, Repr

def Service.reset : Service :=
  { power := .p0, mhz := 0, watts := 0, temps := 0, flow := 0, drop := 0, pcap := 3200, staged := []
    meas := [], rollback := 0, recovery := false, booted := false, stepAt := 0, negotiated := false, out := [] }

/-! ### Who moves -/

/-- One act of the module: a strand issues its bundle, a group's members issue together (R257), an
engine takes a command, an event of the opcode table comes about, a core's cycle count or package time
moves on. -/
inductive Act where
  | issue (u : UnitNo) (k : StrandNo)
  | group (c : ClusterNo) (g : BitVec 2)
  | engine (u : UnitNo) (e : BitVec 2)
  | event (i : Instr)
  | cycles (u : UnitNo) (n : Nat)
  | advance (ns : Nat)
  deriving DecidableEq, Repr, Inhabited

/-! ### The whole module -/

structure State where
  /-- Every byte the module reaches, by key (R270, R289): a physical address, or a place in a
  scratchpad or in pinned storage (keyOf in Ops). -/
  mem : Memory
  /-- Poisoned bytes, by key: 1 where poisoned (R121, R175, R284). -/
  poison : Memory
  /-- Every byte written, newest first: its key and what it held before (fetch, R32). -/
  codeLog : List (Nat × Byte)
  units : Table Core
  strands : Table Strand
  clusters : Table Cluster
  homes : Homes
  seqs : Table Seq
  optics : Optics
  parts : Table Part
  assign : Assign
  slotTable : Table SlotEntry
  clock : Clock
  fabric : Fabric
  service : Service
  /-- Package time in ns (R139). -/
  ptime : W64
  /-- The strand whose bundle executes. -/
  curU : UnitNo
  curK : StrandNo
  /-- The model's own: the acts still to come, and the counter its free values are drawn with. -/
  agenda : List Act
  tick : Nat
  deriving DecidableEq, Repr

/-- The module right after reset (DESIGN CHOICE, log entries 2 to 6). -/
def State.reset : State :=
  { mem := [], poison := [], codeLog := [], units := [], strands := [], clusters := [], homes := Homes.reset
    seqs := [], optics := Optics.reset, parts := [], assign := Assign.reset, slotTable := []
    clock := Clock.reset, fabric := Fabric.reset, service := Service.reset
    ptime := 0, curU := 0, curK := 0, agenda := [], tick := 0 }

end Sys2Proof.Machine
end

