-- ==== Sys2Proof/Machine/Regs.lean ====
section
/-! DEFINITION. The named operations over strands, cores and registers: one accessor for each register
file, where its special behaviour lives (a0, p0, control bits), and the result of a slot. -/

namespace Sys2Proof.Machine

/-! ### Strands, cores, clusters and partitions by number -/

/-- The key of strand k of unit u. -/
def strandKey (u : UnitNo) (k : StrandNo) : Nat := u.toNat * 8 + k.toNat

def State.strand (s : State) (u : UnitNo) (k : StrandNo) : Strand :=
  Table.get Strand.reset s.strands (strandKey u k)

def State.setStrand (s : State) (u : UnitNo) (k : StrandNo) (t : Strand) : State :=
  { s with strands := Table.set s.strands (strandKey u k) t }

def State.core (s : State) (u : UnitNo) : Core := Table.get Core.reset s.units u.toNat

def State.setCore (s : State) (u : UnitNo) (c : Core) : State :=
  { s with units := Table.set s.units u.toNat c }

/-- The acting strand and its core. -/
def State.me (s : State) : Strand := s.strand s.curU s.curK
def State.setMe (s : State) (t : Strand) : State := s.setStrand s.curU s.curK t
def State.myCore (s : State) : Core := s.core s.curU
def State.setMyCore (s : State) (c : Core) : State := s.setCore s.curU c

/-- Let strand k of unit u act. -/
def State.actAs (s : State) (u : UnitNo) (k : StrandNo) : State := { s with curU := u, curK := k }

def State.cluster (s : State) (c : Nat) : Cluster := Table.get Cluster.reset s.clusters c
def State.setCluster (s : State) (c : Nat) (x : Cluster) : State :=
  { s with clusters := Table.set s.clusters c x }

def State.partOf (s : State) (p : Nat) : Part := Table.get Part.reset s.parts p
def State.setPart (s : State) (p : Nat) (x : Part) : State := { s with parts := Table.set s.parts p x }

/-- The UNITPART word of a unit (Table 16-10). -/
def State.unitWord (s : State) (u : Nat) : W64 := Table.get 0 s.assign.unit u

/-- The partition of a unit (R344); 32 for a unit assigned to none. -/
def State.unitPart (s : State) (u : UnitNo) : Nat :=
  let w := s.unitWord u.toNat
  if w.getLsbD 5 then w.toNat % 32 else 32

/-- sys.STAT.SUP (R344): strand 0 of the unit with SUPV = 1, and the rule strands (R422). -/
def State.isSup (s : State) (u : UnitNo) (k : StrandNo) : Bool :=
  let w := s.unitWord u.toNat
  (k == 0 && w.getLsbD 5 && w.getLsbD 8) || (s.strand u k).rule.isSome

/-- SUP of the acting strand. -/
def State.sup (s : State) : Bool := s.isSup s.curU s.curK

/-- The partition of the acting strand. -/
def State.myPart (s : State) : Nat := s.unitPart s.curU

/-! ### The numbers of a unit (R69, R398) -/

/-- CLASS of sys.STAT: 0 compute core, 1 forager, 2 tier core. -/
def unitClass (u : UnitNo) : Nat := if u.toNat < 512 then 0 else if u.toNat < 528 then 1 else 2

/-- The die field of sys.STAT. -/
def unitDie (u : UnitNo) : Nat :=
  if u.toNat < 512 then u.toNat / 64 else if u.toNat < 528 then 0 else (u.toNat - 528) / 16

/-- The core field of sys.STAT. -/
def unitCoreNo (u : UnitNo) : Nat :=
  if u.toNat < 512 then u.toNat % 64 else if u.toNat < 528 then u.toNat - 512 else (u.toNat - 528) % 16

/-- The die of a translation directory mask: 0 to 7 compute, 8 and 9 far tier, 10 I/O (R297). -/
def dirDie (u : UnitNo) : Nat :=
  if u.toNat < 512 then u.toNat / 64 else if u.toNat < 528 then 10 else 8 + (u.toNat - 528) / 16

/-- The cluster of a compute core (R251). -/
def unitCluster (u : UnitNo) : Nat := u.toNat / 16

/-! ### Registers -/

def Strand.getW (t : Strand) (n : BitVec 6) : W32 := Table.get 0 t.w n.toNat
def Strand.setW (t : Strand) (n : BitVec 6) (v : W32) : Strand :=
  { t with w := Table.set t.w n.toNat v }

/-- a0 reads 0 (Table 2-4). -/
def Strand.getA (t : Strand) (n : BitVec 6) : W64 := if n = 0 then 0 else Table.get 0 t.a n.toNat
/-- A write to a0 is discarded (Table 2-4). -/
def Strand.setA (t : Strand) (n : BitVec 6) (v : W64) : Strand :=
  if n = 0 then t else { t with a := Table.set t.a n.toNat v }

/-- p0 reads 1 (Table 2-4). -/
def Strand.getP (t : Strand) (n : BitVec 6) : Bool := n == 0 || t.p.getLsbD n.toNat
/-- A write to p0 is discarded (Table 2-4). -/
def Strand.setP (t : Strand) (n : BitVec 6) (v : Bool) : Strand :=
  if n = 0 then t
  else { t with p := if v then t.p ||| BitVec.twoPow 16 n.toNat
                     else t.p &&& ~~~(BitVec.twoPow 16 n.toNat) }

def Strand.getM (t : Strand) (n : BitVec 6) : MaskReg := Table.get 0 t.m n.toNat
def Strand.setM (t : Strand) (n : BitVec 6) (v : MaskReg) : Strand :=
  { t with m := Table.set t.m n.toNat v }

def Strand.latch (t : Strand) (n : Nat) : Latch := Table.get Latch.invalid t.lat n

/-- The key of row n of tile t in Core.rows. -/
def rowKey (tile n : Nat) : Nat := tile * 64 + n

def Core.row (c : Core) (key : Nat) : Row := Table.get 0 c.rows key
def Core.setRow (c : Core) (key : Nat) (r : Row) : Core := { c with rows := Table.set c.rows key r }

/-- Row `key` holds a poisoned element (R175). -/
def Core.rowBad (c : Core) (key : Nat) : Bool := c.badElems.any (fun e => e / 64 == key)

/-- The row that v register n names through the strand's window (R155). -/
def State.vKey (s : State) (n : BitVec 6) : Nat := rowKey s.me.vwin.toNat n.toNat

/-- A guard's value (R43). -/
def guardOn (t : Strand) (g : Guard) : Bool := t.getP (BitVec.ofNat 6 g.p.toNat) != g.neg

/-! ### What a slot answers -/

/-- A core's cycle count is n: what changed in an earlier cc is seen (R162). -/
def Core.toCycle (c : Core) (n : W64) : Core :=
  if c.cycle = n then c else { c with cycle := n, tlOld := [], barOld := [], ivOld := [] }

/-- sys.IVTL of strand k of unit u as a check of the present cc sees it: a completion shows from the next cc on (R301,
R162). -/
def State.ivtlSeen (s : State) (u : UnitNo) (k : StrandNo) : W64 := Table.get (s.strand u k).ivtl (s.core u).ivOld k.toNat

/-- sys.IVTL as the acting strand sees it. -/
def State.myIvtl (s : State) : W64 := s.ivtlSeen s.curU s.curK

/-- Why a slot does not complete: a trap with its cause code, FADDR and FINFO (Table 3-6); the trap of a
destination whose load failed (R121); a stall within the run (R71), for region blocks whose fills it starts too
(R150); an unmet condition (R72). -/
inductive Stop where
  | trap (code : BitVec 8) (faddr finfo : W64)
  | badLoad (b : BadDest)
  | stall
  | fill (fs : List (Nat × Nat × Nat × Space)) (va : List W64)
  | block (w : Wait)
  deriving DecidableEq, Repr

/-- Whether the run ends with the bundle (R71): YIELD ends it unless the next bundle reads a latch. -/
inductive EndRun where
  | no | yes | unlessLatch
  deriving DecidableEq, Repr

/-- What the slots of one bundle share besides the state before it: how many counter values the slots
before took (R20), and the length of the bundle in bytes. -/
structure Ctx where
  ctr : Nat
  len : Nat
  deriving DecidableEq, Repr

/-- What a slot hands over for commit (R28): the change it makes, its latch result, its control
transfer, whether it took a stochastic-rounding counter value, and whether the run ends with its
bundle (R71), whether it is a trap return, whose frame gives the pc and the latches (R85), and how many
entries it puts into the load queue and the store queue and how many numbers it takes for them (R81). -/
structure Done where
  apply : State → State
  latch : Latch
  target : Option W64
  ctr : Bool
  endRun : EndRun
  ret : Bool
  lqn : Nat
  sqn : Nat
  seqn : Nat

/-- The answer of a read or of a slot. -/
abbrev Rd (α : Type) := Except Stop α

/-- Trap causes (Table 3-6). -/
def causeIllegalInstruction : BitVec 8 := 0x01
def causeIllegalOperand : BitVec 8 := 0x02
def causeMisalignedTarget : BitVec 8 := 0x03
def causeBadCommand : BitVec 8 := 0x04
def causeLoopNesting : BitVec 8 := 0x05
def causeSoftwareTrap : BitVec 8 := 0x06
def causeMisalignedAccess : BitVec 8 := 0x07
def causeUnsupportedType : BitVec 8 := 0x08
def causePromiseMissed : BitVec 8 := 0x09
def causePageFault : BitVec 8 := 0x10
def causeReservedBit : BitVec 8 := 0x11
def causeProtection : BitVec 8 := 0x12
def causeKey : BitVec 8 := 0x13
def causePathLost : BitVec 8 := 0x18
def causePoison : BitVec 8 := 0x19
def causeRoutedFault : BitVec 8 := 0x20
def causePreemptNotice : BitVec 8 := 0x21
def causeDoubleTrap : BitVec 8 := 0x3F

def illegalOperand {α : Type} : Rd α := .error (.trap causeIllegalOperand 0 0)
def illegalOperandAt {α : Type} (faddr : W64) : Rd α := .error (.trap causeIllegalOperand faddr 0)

/-- Go on if the condition holds, else raise ILLEGAL-OPERAND. -/
def needOp (ok : Bool) : Rd Unit := if ok then .ok () else illegalOperand

/-- The destination is a register or a row, not the latch alone. -/
def Dest.stored : Dest → Bool
  | .none => false
  | .latW => false
  | .latV => false
  | _ => true

/-- A load, an atomic or another late answer still has to write the destination (R120). -/
def Strand.awaits (t : Strand) (d : Dest) : Bool :=
  d.stored &&
    (t.lq.any (fun q => match q.kind with
      | .load _ _ dst _ _ _ _ _ => dst == d
      | _ => false)
    || t.sq.any (fun q => match q.kind with
      | .atomic a _ => a.dst == d
      | .pncfg _ _ dst _ _ => dst == d
      | _ => false)
    || t.hints.any (fun h => h.dst == d))

/-- A destination may be read: its load has performed and brought no fault (R120). While its mark stands every read
traps, one after the mark's trap has been taken too (R121; DEDUCED, log entry 15). -/
def State.readable (s : State) (d : Dest) : Rd Unit :=
  match s.me.bad.find? (fun b => b.dst == d && d.stored) with
  | some b => .error (.badLoad b)
  | none => if s.me.awaits d then .error .stall else .ok ()

/-- A destination may be written: as for a read, but a mark whose trap was taken does not bar the
write, which clears it (R121). -/
def State.writable (s : State) (d : Dest) : Rd Unit :=
  match s.me.bad.find? (fun b => b.dst == d && d.stored && !b.taken) with
  | some b => .error (.badLoad b)
  | none => if s.me.awaits d then .error .stall else .ok ()

def destA (n : BitVec 6) : Dest := if n = 0 then .none else .a n.toNat

/-- The word a latch field reads (R41). -/
def latchWord (s : State) (n : BitVec 2) : Rd W64 :=
  match s.me.latch n.toNat with
  | .word v => .ok v
  | .pending q => match s.me.bad.find? (fun b => b.seq == q) with
    | some b => .error (.badLoad b)
    | none => .error .stall
  | _ => illegalOperand

/-- The row a latch field reads (R41). -/
def latchRow (s : State) (n : BitVec 2) : Rd Row :=
  match s.me.latch n.toNat with
  | .row r => .ok r
  | .pending q => match s.me.bad.find? (fun b => b.seq == q) with
    | some b => .error (.badLoad b)
    | none => .error .stall
  | _ => illegalOperand

/-- A source of kind w (R41). -/
def readW (s : State) (f : Src) : Rd W32 :=
  match f with
  | .reg n => do
    s.readable (.w n.toNat)
    .ok (s.me.getW n)
  | .latch n => do
    let v ← latchWord s n
    .ok (v.setWidth 32)

/-- A source of kind a. -/
def readA (s : State) (f : Src) : Rd W64 :=
  match f with
  | .reg n => do
    s.readable (destA n)
    .ok (s.me.getA n)
  | .latch n => latchWord s n

/-- A source of kind p. -/
def readP (s : State) (f : Src) : Rd Bool :=
  match f with
  | .reg n => .ok (s.me.getP n)
  | .latch n => do
    let v ← latchWord s n
    .ok (v.getLsbD 0)

/-- A source of kind m; no latch is allowed there (R40). -/
def readM (s : State) (f : Src) : Rd MaskReg :=
  match f with
  | .reg n => .ok (s.me.getM n)
  | .latch _ => illegalOperand

/-- Row `key` of the core's tiles: its load has performed, and it holds no uncorrectable error: a vector read raises
POISON (R175), with FADDR 0 and the row's number in FINFO (DESIGN CHOICE, log entry 101). -/
def readRowKey (s : State) (key : Nat) : Rd Row := do
  s.readable (.row key)
  if s.myCore.rowBad key then .error (.trap causePoison 0 (BitVec.ofNat 64 key))
  else .ok (s.myCore.row key)

/-- A source of kind v. -/
def readV (s : State) (f : Src) : Rd Row :=
  match f with
  | .reg n => readRowKey s (s.vKey n)
  | .latch n => latchRow s n

/-- The number a T, PP or part field names. -/
def fieldNo (f : Src) : Nat :=
  match f with
  | .reg n => n.toNat
  | .latch n => n.toNat

/-! ### Results -/

def Done.plain (f : State → State) : Done :=
  { apply := f, latch := .invalid, target := none, ctr := false, endRun := .no, ret := false, lqn := 0, sqn := 0, seqn := 0 }

/-- A change that enters the store queue once. -/
def Done.enters (f : State → State) : Done := { Done.plain f with sqn := 1, seqn := 1 }

/-- A write clears the mark of a failed load (R121). -/
def Strand.clearBad (t : Strand) (d : Dest) : Strand :=
  if d.stored then { t with bad := t.bad.filter (fun b => b.dst != d) } else t

/-- Dst ← v of kind w (R42). -/
def putW (s : State) (y : Syl) (v : W32) : Rd Done :=
  if y.nwb then .ok { Done.plain id with latch := .word (v.setWidth 64) }
  else do
    s.writable (.w y.d.toNat)
    .ok { Done.plain (fun t => t.setMe ((t.me.clearBad (.w y.d.toNat)).setW y.d v)) with
          latch := .word (v.setWidth 64) }

/-- Dst ← v of kind a. -/
def putA (s : State) (y : Syl) (v : W64) : Rd Done :=
  if y.nwb then .ok { Done.plain id with latch := .word v }
  else do
    s.writable (destA y.d)
    .ok { Done.plain (fun t => t.setMe ((t.me.clearBad (destA y.d)).setA y.d v)) with
          latch := .word v }

/-- Dst ← v of kind p; the latch word is 0 or 1 (R30). -/
def putP (y : Syl) (v : Bool) : Rd Done :=
  let l : Latch := .word (if v then 1 else 0)
  if y.nwb then .ok { Done.plain id with latch := l }
  else .ok { Done.plain (fun t => t.setMe (t.me.setP y.d v)) with latch := l }

/-- Dst ← v of kind m, which produces no value (R30, R179). -/
def putM (y : Syl) (v : MaskReg) : Rd Done := .ok (Done.plain (fun t => t.setMe (t.me.setM y.d v)))

/-- Write row `key` of the acting core's tiles. -/
def State.putRow (s : State) (key : Nat) (r : Row) : State :=
  let c := s.myCore
  (s.setMyCore { c.setRow key r with badElems := c.badElems.filter (fun e => e / 64 != key) }).setMe
    (s.me.clearBad (.row key))

/-- Dst ← r of kind v: the row of the window at commit, and the latch (R179). -/
def putV (s : State) (y : Syl) (r : Row) : Rd Done :=
  if y.nwb then .ok { Done.plain id with latch := .row r }
  else do
    let key := s.vKey y.d
    s.writable (.row key)
    .ok { Done.plain (fun t => t.putRow key r) with latch := .row r }

/-- The same result, having taken a stochastic-rounding counter value if the mode is RSTO (R20). -/
def Done.counted (d : Done) (mode : BitVec 3) : Done := { d with ctr := mode == 4 }

/-! ### Rounding of the acting strand -/

/-- RM resolved: DYN is the strand's current mode (R16). -/
def State.modeOf (s : State) (rm : BitVec 3) : BitVec 3 := if rm = 7 then s.me.rm else rm

/-- A mode for the element of a stream; RSTO draws r from the strand's key and counter, `off` values
on (R19, R20). -/
def mkMode (m : BitVec 3) (key : W64) (ctr : Nat) (stream : Nat) : Mode :=
  match m.toNat with
  | 1 => .rtz
  | 2 => .rdn
  | 3 => .rup
  | 4 => .rsto ((genG key stream ctr).toNat % 2 ^ 16)
  | _ => .rne

def State.modeAt (s : State) (m : BitVec 3) (off stream : Nat) : Mode :=
  mkMode m s.me.srkey (s.me.srctr.toNat + off) stream

end Sys2Proof.Machine
end

