-- ==== Sys2Proof/Machine/Operands.lean ====
section
/-! DEFINITION. Every operand form: modifiers, literals, elements of a word, lanes of a row, masks. -/

namespace Sys2Proof.Machine

/-! ### Elements and lanes -/

/-- n elements of W bits, element 0 in the least significant bits (R14, R176). -/
def splitLanes (W : Nat) : Nat → Nat → List Nat
  | 0, _ => []
  | n + 1, x => x % 2 ^ W :: splitLanes W n (x / 2 ^ W)

/-- The word whose elements are those of the list. -/
def joinLanes (W : Nat) : List Nat → Nat
  | [] => 0
  | x :: xs => x % 2 ^ W + 2 ^ W * joinLanes W xs

def rowLanes (W : Nat) (r : Row) : List Nat := splitLanes W (2048 / W) r.toNat
def packRow (W : Nat) (l : List Nat) : Row := BitVec.ofNat 2048 (joinLanes W l)
def wordLanes (W : Nat) (x : W32) : List Nat := splitLanes W (32 / W) x.toNat
def packWord (W : Nat) (l : List Nat) : W32 := BitVec.ofNat 32 (joinLanes W l)

/-- Element i of a list of lanes; lanes past the end are 0. -/
def lane (l : List Nat) (i : Nat) : Nat := (l[i]?).getD 0

/-- The element type of an integer TY (R45). -/
def elemTy (ty : BitVec 4) : ITy := ⟨modeWidth ty, !bit ty 1⟩
def satBit (ty : BitVec 4) : Bool := bit ty 0

/-! ### Modifiers -/

/-- The byte swizzle of R46. -/
def swizzle (x : W32) (m : BitVec 8) : W32 :=
  let b := splitLanes 8 4 x.toNat
  let sel := fun k => (m.toNat / 4 ^ k % 4) ^^^ k
  BitVec.ofNat 32 (joinLanes 8 [lane b (sel 0), lane b (sel 1), lane b (sel 2), lane b (sel 3)])

/-- The source lane of lane i of a block under a lane pattern (Table 2-6). -/
def patternLane (pat k i : Nat) : Nat :=
  match pat with
  | 1 => (i + k) % 32
  | 2 => 31 - i
  | 3 => 8 * (i / 8) + ((i % 8) ^^^ k)
  | 4 => k
  | _ => i

/-- The lane pattern of R47 on lanes of W bits. -/
def lanePattern (W : Nat) (r : Row) (m : BitVec 8) : Row :=
  if m = 0 then r
  else
    let l := rowLanes W r
    let pat := field m 7 5
    let k := field m 4 0
    packRow W ((List.range (2048 / W)).map (fun j => lane l (j / 32 * 32 + patternLane pat k (j % 32))))

/-- Sign extension of a 32-bit word to 64 bits. -/
def sx64 (x : W32) : W64 := x.signExtend 64

/-- The S2 operand of kind w: LIT in X96, else the register with its swizzle (R36, R46). -/
def src2W (s : State) (y : Syl) : Rd W32 :=
  if isX y then .ok y.lit
  else do
    let x ← readW s y.s2
    .ok (swizzle x y.mod)

/-- The S2 operand of kind a: LIT sign-extended in X96 (R90, R101). -/
def src2A (s : State) (y : Syl) : Rd W64 :=
  if isX y then .ok (sx64 y.lit) else readA s y.s2

/-- The S2 operand of kind v on lanes of W bits: LIT in every lane in X96 (R178), else the row with
its lane pattern (R47). -/
def src2V (s : State) (y : Syl) (W : Nat) : Rd Row :=
  if isX y then .ok (packRow W (List.replicate (2048 / W) y.lit.toNat))
  else do
    let r ← readV s y.s2
    .ok (lanePattern W r y.mod)

/-! ### Masks -/

/-- Lane j of W bits is active (R180). -/
def laneOn (W : Nat) (m : MaskReg) (j : Nat) : Bool := m.getLsbD (W / 8 * j)

/-- The mask of W-bit lanes: every bit of a lane has the lane's value (R180). -/
def mkMask (W : Nat) (l : List Bool) : MaskReg :=
  BitVec.ofNat 256 (joinLanes (W / 8) (l.map (fun b => if b then 2 ^ (W / 8) - 1 else 0)))

/-- The lanes that a mask makes active, or every lane without a mask. -/
def activeLanes (W : Nat) (m : Option MaskReg) : List Bool :=
  (List.range (2048 / W)).map (fun j => match m with
    | some x => laneOn W x j
    | none => true)

/-! ### Memory operands -/

/-- The effective address of R117: base alone, base and displacement, or base and scaled index. `ix`
and `sc` are bits 5 and [3:2] of FORM. -/
def effAddr (s : State) (y : Syl) : Rd W64 := do
  let b ← readA s y.s1
  if bit y.form 5 then
    let i ← readW s y.s2
    .ok (b + sx64 i <<< (field y.form 3 2))
  else if isX y then .ok (b + sx64 y.lit)
  else .ok b

/-- The effective address of a form with no index (R130, R141, R200, R299). -/
def effAddrPlain (s : State) (y : Syl) : Rd W64 := do
  let b ← readA s y.s1
  if isX y then .ok (b + sx64 y.lit) else .ok b

end Sys2Proof.Machine
end

