-- ==== Sys2Proof/Machine/Flags.lean ====
section
/-! DEFINITION. The element computations of the integer and floating groups and the conditions that
write predicates and masks. -/

namespace Sys2Proof.Machine

/-! ### Integer elements (R88) -/

/-- One element of a two-operand integer form. -/
def intElem (t : ITy) (sat : Bool) (op : Int → Int → Int) (x y : Nat) : Nat :=
  t.fit sat (op (t.read x) (t.read y))

/-- A two-operand integer form on all elements of W bits. -/
def intLanes (t : ITy) (sat : Bool) (op : Int → Int → Int) (xs ys : List Nat) : List Nat :=
  List.zipWith (intElem t sat op) xs ys

/-- A multiply-add form: the product and the sum are exact (R94). -/
def madLanes (t : ITy) (sat : Bool) (xs ys zs : List Nat) : List Nat :=
  List.zipWith (fun (p : Nat × Nat) z => t.fit sat (t.read p.1 * t.read p.2 + t.read z))
    (List.zip xs ys) zs

/-- |x - y| of an element, stored as a natural element (R93). -/
def absdElem (t : ITy) (x y : Nat) : Nat := (t.read x - t.read y).natAbs

/-- Floor(x * y / 2^W) (R94). -/
def mulhInt (W : Nat) (x y : Int) : Int := x * y / ((2 ^ W : Nat) : Int)

/-- SHL: x * 2^s, with a saturating form (R96). Past the width the product is 0 modulo 2^W, and with
SAT the bound of x's sign. -/
def shlElem (t : ITy) (sat : Bool) (x s : Nat) : Nat := t.fit sat (t.read x * (2 ^ min s (2 * t.width) : Nat))

/-- SHR: Floor(x / 2^s), arithmetic for signed elements and logical for natural ones (R96). -/
def shrElem (t : ITy) (x s : Nat) : Nat := t.bits (t.read x / ((2 ^ min s t.width : Nat) : Int))

/-- Rotate left by s mod W (R96). -/
def rolElem (W x s : Nat) : Nat :=
  let k := s % W
  (x * 2 ^ k + x / 2 ^ (W - k)) % 2 ^ W

/-- Rotate right by s mod W (R96). -/
def rorElem (W x s : Nat) : Nat := rolElem W x (W - s % W)

/-- Leading zeros of an element; W for 0 (R97). -/
def clzElem (W x : Nat) : Nat := if x = 0 then W else W - 1 - x.log2

/-- Trailing zeros among the k low bits. -/
def ctzBits : Nat → Nat → Nat
  | 0, _ => 0
  | k + 1, x => if x % 2 = 1 then 0 else 1 + ctzBits k (x / 2)

def ctzElem (W x : Nat) : Nat := ctzBits W x

/-- One bits among the k low bits. -/
def popBits : Nat → Nat → Nat
  | 0, _ => 0
  | k + 1, x => x % 2 + popBits k (x / 2)

def popElem (W x : Nat) : Nat := popBits W x

/-- The k low bits reversed. -/
def revBits : Nat → Nat → Nat
  | 0, _ => 0
  | k + 1, x => x % 2 * 2 ^ k + revBits k (x / 2)

def brevElem (W x : Nat) : Nat := revBits W x

/-! ### Bit fields (R98) -/

def fieldPos (spec : W32) : Nat := field spec 4 0
def fieldLen (spec : W32) : Nat := min (field spec 13 8) (32 - fieldPos spec)

/-- EXT. -/
def extField (x spec : W32) (signed : Bool) : W32 :=
  let n := fieldLen spec
  let f := x.toNat / 2 ^ fieldPos spec % 2 ^ n
  if n = 0 then 0
  else if signed && 2 ^ (n - 1) ≤ f then BitVec.ofNat 32 (f + (2 ^ 32 - 2 ^ n))
  else BitVec.ofNat 32 f

/-- INS: bits [pos+len-1:pos] of old become the low bits of x. -/
def insField (old x spec : W32) : W32 :=
  let p := fieldPos spec
  let mask := (2 ^ fieldLen spec - 1) * 2 ^ p
  BitVec.ofNat 32 ((old.toNat - (old.toNat &&& mask)) + (x.toNat * 2 ^ p &&& mask))

/-! ### Floating elements (R103, R104) -/

/-- The width of an element of .f32, .f16 or .bf16 and its format. -/
def elemFmt (ty : BitVec 4) : FFmt := fmtOf ty.toNat

/-- Lane-wise evaluation, with each lane's number for its stream (R20). -/
def lanesIdx (xs : List Nat) (f : Nat → Nat → Nat) : List Nat := List.zipWith f (List.range xs.length) xs

def lanesIdx2 (xs ys : List Nat) (f : Nat → Nat → Nat → Nat) : List Nat :=
  lanesIdx xs (fun i x => f i x (lane ys i))

def lanesIdx3 (xs ys zs : List Nat) (f : Nat → Nat → Nat → Nat → Nat) : List Nat :=
  lanesIdx xs (fun i x => f i x (lane ys i) (lane zs i))

/-- FADD and FSUB of one element. -/
def faddElem (f : FFmt) (m : Mode) (ftz sub : Bool) (x y : Nat) : Nat :=
  let b := f.decode y
  f.roundTo m false ftz (fAdd m (f.decode x) (if sub then b.neg else b))

def fmulElem (f : FFmt) (m : Mode) (ftz : Bool) (x y : Nat) : Nat :=
  f.roundTo m false ftz ((f.decode x).mul (f.decode y))

/-- The four multiply-add forms: negate the product, negate the addend (R104). -/
def fmaElem (f : FFmt) (m : Mode) (ftz negP negC : Bool) (x y c : Nat) : Nat :=
  let p := (f.decode x).mul (f.decode y)
  let d := f.decode c
  f.roundTo m false ftz (exactSum [if negP then p.neg else p] (if negC then d.neg else d))

/-- FABS: sign 0, NaN canonical, subnormals flushed with FTZ (R103). -/
def fabsElem (f : FFmt) (ftz : Bool) (x : Nat) : Nat := f.canon ftz (x % 2 ^ (f.width - 1))

/-- FNEG: sign inverted, NaN canonical, subnormals flushed with FTZ (R103). -/
def fnegElem (f : FFmt) (ftz : Bool) (x : Nat) : Nat :=
  f.canon ftz (if x / 2 ^ (f.width - 1) % 2 = 1 then x - 2 ^ (f.width - 1) else x + 2 ^ (f.width - 1))

/-! ### Conversions (R107, R189) -/

/-- The value of a scalar encoding of format code c: floating or integer. -/
inductive Val where
  | flt (v : FV)
  | int (x : Int)
  deriving DecidableEq, Repr

def valOf (c bits : Nat) : Val :=
  if isFloatCode c then .flt ((fmtOf c).decode bits) else .int ((ityOf c).read bits)

/-- Conv of one element to format code d, which is neither MXFP4 nor a nibble type (R107, R189). A conversion to its own
format rounds like every other, so SAT clamps an infinity of E5M2 (DEDUCED, log entry 92). -/
def convTo (d : Nat) (m : Mode) (sat ftz : Bool) (v : Val) : Nat :=
  match v with
  | .flt x =>
    if isFloatCode d then (fmtOf d).roundTo m sat ftz x
    else (ityOf d).bits (x.toInt (ityOf d) m)
  | .int x =>
    if isFloatCode d then (fmtOf d).roundTo m sat ftz (FV.ofInt x)
    else (ityOf d).fit sat x

/-- The width in bits of an element of a format code (Table 1-1). -/
def codeWidth (c : Nat) : Nat :=
  match c with
  | 0 | 8 | 9 => 32
  | 1 | 2 | 10 | 11 => 16
  | 3 | 4 | 12 | 13 => 8
  | _ => 4

/-- Float of an MXFP4 element with its block scale (R11). -/
def mxValue (scale nib : Nat) : FV :=
  if scale = 255 then .nan else (e2m1.decode nib).scale ((scale : Int) - 127)

/-- Floor(Log2 |v|) of a nonzero finite value. -/
def FV.log2 : FV → Int
  | .fin _ m e => (m.log2 : Int) + e
  | _ => 127

/-- The larger of two magnitudes; infinities count as the FP32 maximum (R22). -/
def magMax (x y : FV) : FV :=
  let a := mag x
  let b := mag y
  if a.cmp b == .lt then b else a
where
  mag : FV → FV
    | .fin _ m e => .fin false m e
    | .inf _ => f32.decode f32.maxCode
    | .nan => .nan

/-- A conversion of 32 values to one MXFP4 block: the scale byte and the elements (R22). `m` gives the
mode of each element. -/
def mxBlock (m : Nat → Mode) (sat ftz : Bool) (vs : List FV) : Nat × List Nat :=
  if vs.any FV.isNan || (!sat && vs.any FV.isInf) then (255, vs.map (fun _ => 0))
  else
    let top := vs.foldl magMax (.fin false 0 0)
    let e0 : Int := if top.isZero then 0 else top.log2 - 2
    let e := max (-127) (min 127 e0)
    ((e + 127).toNat,
      List.zipWith (fun i v => e2m1.roundTo (m i) sat ftz (v.scale (-e))) (List.range vs.length) vs)

end Sys2Proof.Machine
end

