-- ==== Sys2Proof/Machine/Control.lean ====
section
/-! DEFINITION. Control transfer, loops, REP, YIELD, HALT and EXIT (R51, R109 to R115). -/

namespace Sys2Proof.Machine

/-- A control transfer to t, checked for alignment (R31). -/
def transfer (d : Done) (t : W64) : Rd Done :=
  if t.toNat % 4 = 0 then .ok { d with target := some t }
  else .error (.trap causeMisalignedTarget 0 0)

/-- A group slot after core i of its cluster has left it: it is freed with its last member (R256, R260), and a hold of
that member's trap ends (R258). -/
def Group.without (x : Group) (i : Nat) : Group :=
  let out := ~~~(BitVec.twoPow 16 i)
  if x.joined &&& out = 0 then Group.reset
  else { x with joined := x.joined &&& out, parked := x.parked &&& out, faultHold := x.faultHold &&& out
                holdSince := if x.faultHold &&& out = 0 then none else x.holdSince
                strands := Table.erase i x.strands }

/-- The acting strand has joined a group slot that has not started. -/
def State.joinedHere (s : State) (x : Group) : Bool :=
  s.curU.toNat < 512 && !x.started && x.joined.getLsbD (s.curU.toNat % 16)
    && Table.get 8 x.strands (s.curU.toNat % 16) == s.curK.toNat

/-- The acting core leaves its group, or its strand the slot that it has joined and that has not started (R256). -/
def State.leaveGroup (s : State) : State :=
  let c := s.myCore
  let cl := s.cluster (unitCluster s.curU)
  let i := s.curU.toNat % 16
  match c.group with
  | none =>
    match cl.groups.find? (fun (p : Nat × Group) => s.joinedHere p.2) with
    | some (g, x) => s.setCluster (unitCluster s.curU) { cl with groups := Table.set cl.groups g (x.without i) }
    | none => s
  | some g =>
    let x := Table.get Group.reset cl.groups g.toNat
    (s.setCluster (unitCluster s.curU) { cl with groups := Table.set cl.groups g.toNat (x.without i) }).setMyCore
      { c with group := none }

def slotNop (_ : Syl) (_ : State) : Rd Done := .ok (Done.plain id)

/-- BR: PC plus the signed offset LIT (R109). -/
def slotBr (y : Syl) (s : State) : Rd Done := transfer (Done.plain id) (s.me.pc + sx64 y.lit)

/-- CALL and CALLR keep the address of the next bundle (R110). -/
def slotCall (y : Syl) (s : State) (c : Ctx) : Rd Done := do
  let d ← putA s y (s.me.pc + BitVec.ofNat 64 c.len)
  transfer d (s.me.pc + sx64 y.lit)

def slotCallr (y : Syl) (s : State) (c : Ctx) : Rd Done := do
  let t ← readA s y.s1
  let d ← putA s y (s.me.pc + BitVec.ofNat 64 c.len)
  transfer d t

def slotJr (y : Syl) (s : State) : Rd Done := do
  let t ← readA s y.s1
  transfer (Done.plain id) t

/-- The remaining count of a loop level. -/
def Strand.lcnt (t : Strand) (k : Nat) : W32 := if k = 0 then t.lcnt0 else t.lcnt1

/-- LOOP loads a level that is not active (R111). -/
def slotLoop (y : Syl) (s : State) (c : Ctx) : Rd Done := do
  let n ← readW s y.s1
  let k := y.d.toNat
  let next := s.me.pc + BitVec.ofNat 64 c.len
  let e := s.me.pc + sx64 y.lit
  if s.me.lcnt k != 0 then .error (.trap causeLoopNesting 0 0)
  else if e.toNat % 4 != 0 then .error (.trap causeMisalignedTarget 0 0)
  else if e.toNat < next.toNat then illegalOperand
  else .ok (Done.plain (fun t =>
    t.setMe (if k = 0 then { t.me with lcnt0 := n, lbeg0 := next, lend0 := e }
             else { t.me with lcnt1 := n, lbeg1 := next, lend1 := e })))

/-- The bundle address is the end of an active level. -/
def Strand.atLoopEnd (t : Strand) : Bool :=
  (t.lcnt0 != 0 && t.pc == t.lend0) || (t.lcnt1 != 0 && t.pc == t.lend1)

/-- REP: the count of iterations of the bundle that follows (R112); a count of 0 skips it. -/
def slotRep (y : Syl) (s : State) : Rd Done := do
  let n ← if isX y then .ok y.lit else readW s y.s1
  needOp (n.toNat ≤ 65535 && !s.me.atLoopEnd)
  .ok (Done.plain (fun t =>
    t.setMe { t.me with repn := n.setWidth 16, repi := 0, repSkip := n == 0 }))

/-- YIELD ends the run unless the next bundle reads a latch (R114). -/
def slotYield (_ : Syl) (_ : State) : Rd Done := .ok { Done.plain id with endRun := .unlessLatch }

/-- HALTED, with TD cleared; a group member leaves (R115, R256). -/
def haltWith (status : Option W32) : Rd Done :=
  .ok { Done.plain (fun t =>
          let t := t.leaveGroup
          t.setMe { t.me with run := .halted, td := false
                              exitStatus := match status with
                                | some v => some v
                                | none => t.me.exitStatus }) with
        endRun := .yes }

def slotHalt (_ : Syl) (_ : State) : Rd Done := haltWith none
def slotExit (_ : Syl) (_ : State) : Rd Done := haltWith (some 0)
def slotExitStatus (y : Syl) (s : State) : Rd Done := do
  let v ← readW s y.s1
  haltWith (some v)

end Sys2Proof.Machine
end

