-- ==== Sys2Proof/Config.lean ====
section
/-! DEFINITION. What the spec leaves open: constants with no body, so that no proof can lean on a value
of one. A counter of the state (tick) or the operands they depend on are their arguments. -/

namespace Sys2Proof

/-- Which act of the module comes next, where the agenda says nothing (DESIGN CHOICE, log entry 10). -/
opaque Config.nextAct : Nat → Machine.Act

/-- A byte that a command reads at another module (DESIGN CHOICE, log entry 11). -/
opaque Config.farByte : Nat → Nat → Byte

/-- Whether a block that holds a nonzero byte is kept PACKED (DESIGN CHOICE, log entry 12). -/
opaque Config.packs : Nat → Bool

/-- Whether a slice still holds the line that a host DMA write changed (DESIGN CHOICE, log entry 13). -/
opaque Config.keepsLine : Nat → Bool

/-- Whether the home of a byte is still behind a slice's dirty line when host DMA reads it (DESIGN CHOICE, log entry 33). -/
opaque Config.homeBehind : Nat → Nat → Bool

/-- Whether a command's arrival comes before its global writes are visible, by draw (DEDUCED, log entry 7). -/
opaque Config.ringsEarly : Nat → Bool

/-- The digest of the vendor key, held in fuses (DESIGN CHOICE, log entry 16). -/
opaque Config.vendorKey : BitVec 384

/-- Whether a 32-byte piece had been moved when a transfer ended early, by draw and piece (DESIGN CHOICE, log entry 18). -/
opaque Config.pieceDone : Nat → Nat → Bool

/-- The record that a pre-emption writes into the SAVE area, by draw (DESIGN CHOICE, log entry 30). -/
opaque Config.saveRecord : Nat → List (BitVec 8)

/-- How the fault of a failed PACC names its partner and tag (DESIGN CHOICE, log entry 19). -/
opaque Config.pairName : Nat → Nat → W64

/-- The DETAIL byte of a CORE fault, by resource (DESIGN CHOICE, log entry 17). -/
opaque Config.coreDetail : Nat → Byte

/-- How long an activity works at its home agent, in ns, by activity and draw (DESIGN CHOICE, log entry 24). -/
opaque Config.activityNs : Nat → Nat → Nat

/-- A signature by the device key (DESIGN CHOICE, log entry 16). -/
opaque Config.sign : BitVec 256 → List (BitVec 384) → BitVec 768

/-- The certificates of the device key, in DER (DESIGN CHOICE, log entry 16). -/
opaque Config.deviceChain : List (BitVec 8)

/-- The bytes of a flit that stands in an egress queue's space in HBM, by draw (DESIGN CHOICE, log entry 22). -/
opaque Config.flitByte : Nat → Nat → Byte

/-- How many units of a SEND were sent again and then delivered, by draw (DESIGN CHOICE, log entry 88). -/
opaque Config.resends : Nat → Nat

/-- The fabric port that a LINK fault names where no flit of the link has failed, by draw (DESIGN CHOICE, log entry 87). -/
opaque Config.linkPort : Nat → BitVec 2

/-- The offset in the module block of the word by which the host clears port marks: 0 for sys.OPTBAD0, 1 for
sys.OPTBAD1 (DESIGN CHOICE, log entry 88). -/
opaque Config.markOffset : Nat → Nat

/-- The offset in a partition's block of the word by which the FAULT of a unit's queue is cleared (DESIGN CHOICE,
log entry 88). -/
opaque Config.faultOffset : Nat → Nat → Nat

end Sys2Proof
end

