-- ==== Sys2Proof/Machine/Space.lean ====
section
/-! DEFINITION. The bytes of the module: the physical map and the interleave (R270, R271), the homes of
bytes, and the reads and writes that everything else uses. One key names each byte: a global byte has
its physical address, an interleaved one that of its place in the local aperture (R271); a scratchpad,
a cluster's pinned storage and the register aperture have keys of their own above those. -/

namespace Sys2Proof.Machine

/-! ### Keys -/

/-- Byte o of unit u's scratchpad (R147). -/
def spadKey (u o : Nat) : Nat := 2 ^ 60 + u * 2 ^ 21 + o % 2 ^ 21

/-- Byte o of cluster c's pinned storage (R289). -/
def pinKey (c o : Nat) : Nat := 2 ^ 61 + c * 2 ^ 26 + o

/-- Offset o of the register aperture (R345). -/
def apKey (o : Nat) : Nat := 2 ^ 62 + o

/-- Where the byte of a key lives. -/
inductive Place where
  | die (d : Nat)
  | far (d : Nat)
  | spad (u : Nat)
  | pinned (c : Nat)
  | aperture
  | module (m : Nat)
  | host
  deriving DecidableEq, Repr

def placeOf (k : Nat) : Place :=
  if 2 ^ 62 ≤ k then .aperture
  else if 2 ^ 61 ≤ k then .pinned ((k - 2 ^ 61) / 2 ^ 26)
  else if 2 ^ 60 ≤ k then .spad ((k - 2 ^ 60) / 2 ^ 21)
  else if 2 ^ 51 ≤ k then .host
  else if 2 ^ 50 ≤ k then .module ((k - 2 ^ 50) / 2 ^ 44)
  else if k < 0x010000000000 then .die ((k - 0x008000000000) / 2 ^ 36)
  else if k < 0x020000000000 then .far 0
  else if k < 0x030000000000 then .far 1
  else if k < 0x080000000000 then .far 0
  else .far 1

/-- The home code of Table 5-8. -/
def Place.code (p : Place) : BitVec 4 :=
  match p with
  | .die d => BitVec.ofNat 4 d
  | .far d => BitVec.ofNat 4 (8 + d)
  | .spad _ => 0xF
  | .pinned c => BitVec.ofNat 4 (c / 4)
  | .aperture => 0xC
  | .module _ => 0xB
  | .host => 0xA

/-! ### Interleave (R271) -/

/-- ILV[e]: the table of boot, round-robin over the present dies where it lists nothing. -/
def Homes.ilvEntry (h : Homes) (e : Nat) : Nat :=
  Table.get ((h.present[e % h.present.length]?).getD 0) h.ilv e

/-- E(d) and the largest E(d). -/
def Homes.ilvCount (h : Homes) (d : Nat) : Nat :=
  ((List.range 512).filter (fun e => h.ilvEntry e == d)).length

def Homes.emax (h : Homes) : Nat := (h.present.map h.ilvCount).foldl Nat.max 0

/-- The number of interleaved frames that are backed, in 2 MiB units: IFR. -/
def Homes.ifr (h : Homes) : Nat := if h.emax = 0 then 0 else 2 ^ 24 / h.emax

/-- The local-aperture address of an interleaved byte. -/
def Homes.deinterleave (h : Homes) (a : Nat) : Nat :=
  let f := a / 4096
  let e := f % 512
  let d := h.ilvEntry e
  let q := ((List.range e).filter (fun j => h.ilvEntry j == d)).length
  0x008000000000 + d * 2 ^ 36 + (f / 512 * h.ilvCount d + q) * 4096 + a % 4096

/-! ### The physical map (Table 12-1) -/

/-- Compute core or other unit u exists: its die is present (R271). -/
def State.unitPresent (s : State) (u : Nat) : Bool :=
  if u < 512 then s.homes.present.contains (u / 64)
  else if u < 528 then true
  else u < 560 && s.homes.farPresent.contains (8 + (u - 528) / 16)

/-- The key of a physical address within this module; none where it is unbacked. -/
def State.localKey (s : State) (a : Nat) : Option Nat :=
  if a < 0x008000000000 then
    if a / 0x200000 < s.homes.ifr then some (s.homes.deinterleave a) else none
  else if a < 0x010000000000 then
    if s.homes.present.contains ((a - 0x008000000000) / 2 ^ 36) then some a else none
  else if a < 0x020000000000 then if s.homes.farPresent.contains 8 then some a else none
  else if a < 0x030000000000 then if s.homes.farPresent.contains 9 then some a else none
  else if a < 0x040000000000 then none
  else if a < 0x080000000000 then
    if s.homes.farPresent.contains 8 && a - 0x040000000000 < Table.get 0 s.homes.cxl 0 then some a
    else none
  else if a < 0x0C0000000000 then
    if s.homes.farPresent.contains 9 && a - 0x080000000000 < Table.get 0 s.homes.cxl 1 then some a
    else none
  else if 0x0E0000000000 ≤ a && a < 0x0E0040000000 then
    let o := a - 0x0E0000000000
    if s.unitPresent (o / 2 ^ 21) then some (spadKey (o / 2 ^ 21) o) else none
  else if 0x0F0000000000 ≤ a && a < 0x100000000000 then some (apKey (a - 0x0F0000000000))
  else none

/-- A partition's unit may reach aperture offset o: only its own block (R345). -/
def apertureOwn (part o : Nat) : Bool := o / 2 ^ 32 == part && o < 2 ^ 39

/-- The key of a physical address as a partition's access reaches it, none where it is unbacked
(R270, R345, R380). The window of this very module names its own bytes. -/
def State.physKey (s : State) (part a : Nat) : Option Nat :=
  let own (x : Nat) : Option Nat := match s.localKey x with
    | some k => if 2 ^ 62 ≤ k && !apertureOwn part (k - 2 ^ 62) then none else some k
    | none => none
  if a < 2 ^ 50 then own a
  else if a < 2 ^ 51 then
    let m := (a - 2 ^ 50) / 2 ^ 44
    if m = s.fabric.modnum.toNat then own (a % 2 ^ 44)
    else if s.fabric.pod && m < s.fabric.podSize && a % 2 ^ 44 < 0x100000000000 then some a
    else none
  else if a < 2 ^ 52 then some a
  else none

/-- Table-eligible memory (R290). -/
def State.tableKey (s : State) (a : Nat) : Option Nat :=
  if a < 0x0C0000000000 then s.localKey a else none

/-! ### Bytes -/

/-- A frame whose page is moving is read and written where R279 says: the old frame until the commit,
the new one after it. -/
def State.liveKey (s : State) (k : Nat) : Nat :=
  match s.homes.moves.find? (fun m => m.committed && k / 4096 == m.oldFrame) with
  | some m => m.newFrame * 4096 + k % 4096
  | none => k

/-- Stores to the page of this byte are held: its move has started and not committed (R279). -/
def State.moveHolds (s : State) (k : Nat) : Bool :=
  s.homes.moves.any (fun m => m.started && !m.committed && k / 4096 == m.oldFrame)

/-- Accesses to pinned storage are held while its cluster changes its split (R252). -/
def State.splitHolds (s : State) (k : Nat) : Bool :=
  match placeOf k with
  | .pinned c => (s.cluster c).chg
  | _ => false

/-- A queue holds entry `seq` of the strand. -/
def Strand.holds (t : Strand) (seq : Nat) : Bool := t.lq.any (fun q => q.seq == seq) || t.sq.any (fun q => q.seq == seq)

/-- Where the numbers of strands that are saved begin, in what a TLBINV waits for. -/
def savedBase : Nat := 2 ^ 16

/-- A queue entry of a strand, or of a saved one, is still there. -/
def State.entryThere (s : State) (key seq : Nat) : Bool :=
  if key < savedBase then (Table.get Strand.reset s.strands key).holds seq
  else s.parts.any (fun (p : Nat × Part) => p.2.saved.any (fun v =>
    v.strands.any (fun (e : Nat × Strand) => e.1 + savedBase == key && e.2.holds seq)))

/-- A started command is still running. -/
def State.commandThere (s : State) (u q : Nat) (num : W64) : Bool :=
  (s.core (BitVec.ofNat 10 u)).eng.any (fun (e : Nat × EngRun) => e.2.queue == q && e.2.num == num)

/-- What an invalidation, an eviction or a commit waits for is not over. -/
def State.someThere (s : State) (accs : List (Nat × Nat)) (cmds : List (Nat × Nat × W64)) : Bool :=
  accs.any (fun a => s.entryThere a.1 a.2) || cmds.any (fun c => s.commandThere c.1 c.2.1 c.2.2)

/-- An access that names a byte of a page's new frame waits behind those that the old home held and
forwarded (R279). -/
def State.behindHeld (s : State) (k : Nat) : Bool :=
  s.homes.moves.any (fun m => m.committed && k / 4096 == m.newFrame && s.someThere m.heldAccs m.heldCmds)

/-- A read of this byte is held. -/
def State.readHeld (s : State) (k : Nat) : Bool := s.splitHolds k || s.behindHeld k

/-- A byte of pinned storage that a change of split has taken away: an access that named it before reads a free
byte, or writes nothing (R252; DESIGN CHOICE, log entry 83). -/
def State.pinGone (s : State) (k : Nat) : Bool :=
  match placeOf k with
  | .pinned c => (s.cluster c).pin.toNat * (3 * 2 ^ 20) ≤ k - pinKey c 0
  | _ => false

/-- A write of this byte is held. -/
def State.writeHeld (s : State) (k : Nat) : Bool := s.moveHolds k || s.splitHolds k || s.behindHeld k

/-- The byte of a key. -/
def State.readByte (s : State) (k : Nat) : Byte := s.mem.read (s.liveKey k)

/-- The byte of a key as an access that was held finds it. -/
def State.heldByte (s : State) (k : Nat) : Byte := if s.pinGone k then Config.farByte s.tick k else s.readByte k

/-- The home of a key is lost (R284). -/
def State.homeLost (s : State) (k : Nat) : Bool :=
  match placeOf (s.liveKey k) with
  | .die d => s.homes.lost.contains d
  | .far d => s.homes.lost.contains (8 + d)
  | _ => false

/-- The home of a key is lost, or the byte is poisoned (R175, R284). -/
def State.poisoned (s : State) (k : Nat) : Bool := s.poison.read (s.liveKey k) != 0 || s.homeLost k

/-- Write one byte: it is no longer poisoned, and fetch keeps what it knew (R32), whoever writes: the host's writes to
code are hidden until the next launch as those of strands and engines are (DESIGN CHOICE, log entry 98). -/
def State.writeByte (s : State) (k : Nat) (b : Byte) : State :=
  let k := s.liveKey k
  { s with mem := s.mem.write k b, poison := s.poison.write k 0
           codeLog := (k, s.mem.read k) :: s.codeLog }

/-- Write listed bytes in order. -/
def State.writeCells (s : State) : List (Nat × Byte) → State
  | [] => s
  | (k, b) :: rest => (s.writeByte k b).writeCells rest

/-- Poison listed bytes. -/
def State.poisonKeys (s : State) : List Nat → State
  | [] => s
  | k :: rest => { s with poison := s.poison.write (s.liveKey k) 1 }.poisonKeys rest

/-- The keys of segments: first key and length. -/
def segKeys : List (Nat × Nat) → List Nat
  | [] => []
  | (k, n) :: rest => (List.range n).map (k + ·) ++ segKeys rest

def State.readSegs (s : State) (segs : List (Nat × Nat)) : List Byte := (segKeys segs).map s.readByte

/-- n bytes from a key on, as a little-endian number. -/
def State.readNat (s : State) (k n : Nat) : Nat := leNat ((List.range n).map (fun i => s.readByte (k + i)))

/-- Write the n low bytes of a number at a key. -/
def State.writeNat (s : State) (k n v : Nat) : State :=
  s.writeCells (List.zip ((List.range n).map (k + ·)) (toBytes n v))

/-- A key lies in one of these segments. -/
def inSegs (segs : List (Nat × Nat)) (k : Nat) : Bool := segs.any (fun p => p.1 ≤ k && k < p.1 + p.2)

def cellsOf (keys : List Nat) (data : List Byte) : List (Nat × Byte) := List.zip keys data

/-! ### Activity budgets (R283) -/

/-- The home agent of a key, by its home code; the I/O die's for what no die holds. -/
def homeAgent (k : Nat) : Nat :=
  match placeOf k with
  | .die d => d % 8
  | .far d => 8 + d
  | _ => 10

/-- The home agents of the dies that are present. -/
def Homes.agents (h : Homes) : List Nat := h.present ++ h.farPresent

/-- The budget of activity k, and what home agent a has used of it in the period. -/
def Homes.budget (h : Homes) (k : Nat) : Nat := (Table.get 0 h.abud k).toNat
def Homes.used (h : Homes) (k a : Nat) : Nat := (Table.get 0 h.abused (16 * k + a)).toNat

/-- The ns that the busiest home agent has used (Table 12-2). -/
def Homes.busiest (h : Homes) (k : Nat) : Nat := ((List.range 16).map (h.used k)).foldl Nat.max 0

/-- The budget of activity k is spent, or 0, at one of these home agents. -/
def Homes.spent (h : Homes) (k : Nat) (agents : List Nat) : Bool := agents.any (fun a => h.budget k ≤ h.used k a)

/-- Activity k works n ns at home agent a, at most to the end of its budget; the periods in which it ran out
somewhere are counted (R283). -/
def Homes.charge (h : Homes) (k a n : Nat) : Homes :=
  let v := Nat.min (h.budget k) (h.used k a + n)
  let out := !(List.range 16).any (fun b => h.budget k ≤ h.used k b) && v = h.budget k
  let x := Table.get 0 h.about k
  { h with abused := Table.set h.abused (16 * k + a) (BitVec.ofNat 17 v)
           about := if out && x != 0xFFFF then Table.set h.about k (x + 1) else h.about }

/-- Activity k works at home agents for times that the spec does not give (DESIGN CHOICE, log entry 24). -/
def State.spend (s : State) (k : Nat) : List Nat → State
  | [] => s
  | a :: rest => { s with homes := s.homes.charge k a (Config.activityNs k s.tick), tick := s.tick + 1 }.spend k rest

/-! ### Compressed blocks (R276) -/

/-- The blocks of 512 bytes of written keys. -/
def blocksOf (cells : List (Nat × Byte)) : List Nat := (cells.map (fun c => c.1 / 512)).eraseDups

/-- A written block of a compressed page is RAW when the budget of activity 2 is spent at its home, ZERO when
all its bytes are 0, and else PACKED where the agent packs it. -/
def State.recompress (s : State) : List Nat → State
  | [] => s
  | b :: rest =>
    let zero := (List.range 512).all (fun i => s.readByte (b * 512 + i) == 0)
    let a := homeAgent (b * 512)
    let st : BitVec 2 := if s.homes.spent 2 [a] then 0 else if zero then 2 else if Config.packs s.tick then 1 else 0
    let s1 := s.spend 2 [a]
    { s1 with homes := { s1.homes with blocks := Table.set s1.homes.blocks b st } }.recompress rest

/-- After a write of bytes, of which those of `cmp` went through a leaf with CMP = 1: blocks in the memory of a compute
die that a leaf compresses, or that are PACKED or ZERO, are compressed again; every other frame ignores CMP. -/
def State.compress (s : State) (cells : List (Nat × Byte)) (cmp : List (Nat × Nat)) : State :=
  let packed := blocksOf ((cells.filter (fun c => inSegs cmp c.1)).map (fun c => (s.liveKey c.1, c.2)))
  s.recompress ((blocksOf (cells.map (fun c => (s.liveKey c.1, c.2)))).filter (fun b => (match placeOf (b * 512) with
    | .die _ => true
    | _ => false) && (packed.contains b || Table.get 0 s.homes.blocks b != 0)))

/-- Write 8 bytes at a key of a home: a compressed block that holds them is compressed again (R276). -/
def State.writeWord (s : State) (k v : Nat) : State :=
  (s.writeNat k 8 v).compress ((List.range 8).map (fun i => (k + i, 0))) []

/-! ### Slices and host DMA (R342) -/

/-- Lines that a slice held behind host DMA's back end where a store makes the bytes new (R342). -/
def State.freshen (s : State) (keys : List Nat) : State :=
  { s with clusters := s.clusters.map (fun (p : Nat × Cluster) =>
      (p.1, { p.2 with stale := p.2.stale.filter (fun (e : Nat × Byte) => !keys.contains e.1) })) }

/-- A load by a core of a cluster takes the byte from a line its slice still holds, where host DMA
changed the home behind it. -/
def State.sliceByte (s : State) (u : Nat) (k : Nat) : Byte :=
  let c := s.cluster (u / 16)
  if u < 512 && Table.has c.stale k && Config.keepsLine s.tick then Table.get 0 c.stale k else s.heldByte k

/-! ### Bytes of other modules -/

/-- A byte of another module of the pod. -/
def isFar (key : Nat) : Bool := 2 ^ 50 ≤ key && key < 2 ^ 51
def farModule (key : Nat) : Nat := (key - 2 ^ 50) / 2 ^ 44

/-- The byte of a far key that the answers bring. -/
def answerByte (rs : List FarReq) (key : Nat) : Byte :=
  match rs.find? (fun r => r.key ≤ key && key < r.key + r.bytes) with
  | some r => (((r.got.getD [])[key - r.key]?)).getD 0
  | none => 0

/-- The mark of the reads of the head command of a queue, of a core's fetch path, and of a pair's entry (R380). -/
def queueMark (n : Nat) : Nat := 8 + n
def fetchMark : Nat := 40
def pairMark (q : Nat) : Nat := 48 + q

/-- The requests of unit u under a mark. -/
def State.markReqs (s : State) (u : UnitNo) (mark : Nat) : List FarReq :=
  s.fabric.reqs.filter (fun r => r.owner == some (u.toNat, mark))

/-- The request has no answer yet. -/
def FarReq.waits (r : FarReq) : Bool := r.got.isNone && r.fail.isNone

/-- One of the requests that bring some of n bytes from key on has failed. -/
def failedAt (rs : List FarReq) (key n : Nat) : Bool :=
  rs.any (fun r => r.fail.isSome && r.key < key + n && key < r.key + r.bytes)

end Sys2Proof.Machine
end

