-- ==== Sys2Proof/Machine/Translate.lean ====
section
/-! DEFINITION. Translation and protection (R285 to R297): the walk, the TLBs, the walk caches and the
translation directory. -/

namespace Sys2Proof.Machine

/-- An access type (R291). -/
inductive Acc where
  | read | write | fetch
  deriving DecidableEq, Repr

def Acc.code : Acc → Nat
  | .read => 0
  | .write => 1
  | .fetch => 2

/-- Who translates: the unit, its partition, and the rights (R291, R293, R443). -/
structure Who where
  unit : UnitNo
  part : Nat
  sup : Bool
  pkr : W64
  deriving DecidableEq, Repr

/-- The acting strand's own rights. -/
def State.who (s : State) : Who := ⟨s.curU, s.myPart, s.sup, s.me.pkr⟩

/-- The rights of the Hive and of system records in a partition (R443), as walks of the I/O die. -/
def hiveWho (p : Nat) : Who := ⟨512, p, true, 0⟩

/-- A translation fault (Table 13-4). -/
structure XFault where
  kind : Nat
  level : Nat
  acc : Acc
  key : Nat
  entry : Nat
  deriving DecidableEq, Repr

/-- The kind that stands for an entry with an uncorrectable error, which is no translation fault (R306). -/
def kindPoison : Nat := 16

def XFault.isPoison (f : XFault) : Bool := f.kind == kindPoison

/-- The translation fault word (Table 13-4), and the 0 of POISON. -/
def XFault.word (f : XFault) : W64 :=
  if f.isPoison then 0
  else BitVec.ofNat 64 (f.kind + f.level * 2 ^ 4 + f.acc.code * 2 ^ 7 + f.key * 2 ^ 9
    + f.entry / 8 % 2 ^ 49 * 2 ^ 14 + 2 ^ 63)

/-- The trap cause of a kind (Table 13-5, R306). -/
def XFault.cause (f : XFault) : BitVec 8 :=
  if f.isPoison then causePoison
  else if f.kind ≤ 4 then causePageFault
  else if f.kind = 5 then causeReservedBit
  else if f.kind = 8 then causeKey
  else causeProtection

/-- A translation found: the key of the byte, and what the leaf says. -/
structure Hit where
  key : Nat
  entry : TlbEntry
  deriving DecidableEq, Repr

/-- Canonical addresses (R285). -/
def canonical (ea : W64) : Bool := ea.toNat / 2 ^ 56 == 0 || ea.toNat / 2 ^ 56 == 255

/-- The byte of ea in the 57-bit space. -/
def va57 (ea : W64) : Nat := ea.toNat % 2 ^ 57

def leafR (e : W64) : Bool := e.getLsbD 2
def leafW (e : W64) : Bool := e.getLsbD 3
def leafX (e : W64) : Bool := e.getLsbD 4
def leafU (e : W64) : Bool := e.getLsbD 5
def leafHome (e : W64) : Nat := field e 7 6
def leafCmp (e : W64) : Bool := e.getLsbD 8
def leafCont (e : W64) : Bool := e.getLsbD 9
def leafA (e : W64) : Bool := e.getLsbD 10
def leafD (e : W64) : Bool := e.getLsbD 11
def leafKey (e : W64) : Nat := field e 56 52
/-- FRAME as a physical address. -/
def leafFrame (e : W64) : Nat := field e 51 12 * 4096

/-- The index of ea at a level (R285). -/
def levelIndex (ea : W64) (k : Nat) : Nat := va57 ea / 2 ^ (9 * k + 3) % 512

/-- The checks of R287 on an entry with V = 1, read at level k. -/
def entryOk (e : W64) (k : Nat) : Bool :=
  if !e.getLsbD 1 then field e 11 2 == 0 && field e 63 52 == 0 && k != 1
  else k ≤ 3 && field e 63 57 == 0
    && (k != 2 || field e 20 12 == 0) && (k != 3 || field e 29 12 == 0)
    && leafHome e != 3 && (!leafW e || leafR e) && !(leafCont e && k == 3)
    && !(leafHome e == 2 && (k == 3 || field e 51 31 != 0))

/-- The checks that R288 adds on a group's first entry. -/
def groupOk (e : W64) (k : Nat) : Bool :=
  e.getLsbD 0 && e.getLsbD 1 && leafCont e && entryOk e k
    && (if k = 1 then field e 15 12 == 0 else field e 24 12 == 0)

/-- The page size of a leaf (Table 13-3). -/
def pageSize (e : W64) (k : Nat) : Nat :=
  2 ^ (12 + 9 * (k - 1)) * (if leafCont e then 16 else 1)

/-! ### Walk caches and the directory -/

/-- The entry that a die's walk cache holds for ea at level k of a table page, if any. -/
def State.cachedEntry (s : State) (die part k : Nat) (ea : W64) (table : Nat) : Option W64 :=
  let base := va57 ea / 2 ^ (9 * k + 3)
  (s.homes.walk.find? (fun w => w.die == die && w.part == part && w.level == k && w.base == base
    && w.table == table)).map (·.entry)

/-- The size of a walk cache at a level (R295). -/
def walkCap (k : Nat) : Nat := if k = 5 then 16 else if k = 4 then 32 else if k = 3 then 64 else 256

/-- Keep a table entry read at levels 5 to 2; the oldest of its level and die gives way. -/
def State.cacheEntry (s : State) (die part k : Nat) (ea : W64) (table : Nat) (e : W64) : State :=
  if k < 2 then s
  else
    let base := va57 ea / 2 ^ (9 * k + 3)
    let w : WalkEntry := { die := die, part := part, level := k, base := base, table := table, entry := e }
    let old := s.homes.walk.filter (fun x => !(x.die == die && x.part == part && x.level == k
      && x.base == base && x.table == table))
    let mine := old.filter (fun x => x.die == die && x.level == k)
    let old := if walkCap k ≤ mine.length then
        match mine.getLast? with
        | some l => old.filter (· != l)
        | none => old
      else old
    { s with homes := { s.homes with walk := w :: old } }

/-- Two ranges of the virtual space meet. -/
def rangesMeet (b1 n1 b2 n2 : Nat) : Bool := b1 < b2 + n2 && b2 < b1 + n1

/-- The range that one entry of level k covers, by its base number. -/
def walkRange (w : WalkEntry) : Nat × Nat := (w.base * 2 ^ (9 * w.level + 3), 2 ^ (9 * w.level + 3))

def unitDirDie (u : Nat) : Nat := if u < 512 then u / 64 else if u < 528 then 10 else 8 + (u - 528) / 16

/-- Drop, at the dies named, the TLB and walk-cache entries of a partition that `hit` picks by range and
table page. -/
def State.dropEntries (s : State) (dies : List Nat) (part : Nat) (hitT : TlbEntry → Bool)
    (hitW : WalkEntry → Bool) : State :=
  { s with
    units := s.units.map (fun p => (p.1, if dies.contains (unitDirDie p.1) then
        { p.2 with tlb := p.2.tlb.filter (fun e => !(e.part == part && hitT e)) } else p.2))
    clusters := s.clusters.map (fun p => (p.1, if dies.contains (p.1 / 4) then
        { p.2 with tlb := p.2.tlb.filter (fun e => !(e.part == part && hitT e)) } else p.2))
    homes := { s.homes with walk := s.homes.walk.filter (fun w =>
        !(dies.contains w.die && w.part == part && hitW w)) } }

/-- The virtual range a record covers: all of it for a MULTI record (R297). -/
def DirRecord.range (r : DirRecord) : Nat × Nat :=
  if r.multi then (0, 2 ^ 57) else (r.base * 2 ^ (12 + 9 * r.level), 2 ^ (12 + 9 * r.level))

/-- Invalidate as TLBINV.TBL does for a record's range, in every partition it names (R297). -/
def State.invalidateRecord (s : State) (r : DirRecord) : State :=
  let (b, n) := r.range
  r.parts.foldl (fun s p => s.dropEntries r.dies p (fun e => rangesMeet e.base e.size b n)
    (fun w => rangesMeet (walkRange w).1 (walkRange w).2 b n)) s

/-- The global address of block b of region k. -/
def Core.blockAddr (c : Core) (k b : Nat) : W64 :=
  BitVec.signExtend 64 (BitVec.ofNat 57 (field (Table.get 0 c.rgnhi k) 56 12 * 4096)) + BitVec.ofNat 64 (b * 4096)

/-- The global range that an entry of a load queue translated: address and length. -/
def LqKind.range (c : Core) : LqKind → Option (W64 × Nat)
  | .load segs .cached _ _ ea _ _ _ => some (ea, (segs.map Prod.snd).sum)
  | .load segs .direct _ _ ea _ _ _ => some (ea, (segs.map Prod.snd).sum)
  | .fill region block _ _ _ => some (c.blockAddr region block, 4096)
  | _ => none

/-- The global range that an entry of a store queue translated; of a row store, the row (log entry 57). -/
def SqKind.range (c : Core) : SqKind → Option (W64 × Nat)
  | .store cells .cached ea _ _ | .store cells .direct ea _ _ => some (ea, if cells.length ≤ 8 then cells.length else 256)
  | .atomic a _ | .posted a _ => if a.space == .loc then none else some (a.ea, a.bytes)
  | .regBlock region blk _ _ => some (c.blockAddr region (blk - field (Table.get 0 c.rgnlo region) 20 12), 4096)
  | .block .. => some (0, 2 ^ 57)
  | _ => none

/-- A range of addresses meets one of the 57-bit space. -/
def meetsRange (b n : Nat) (r : Option (W64 × Nat)) : Bool :=
  match r with
  | some (ea, m) => rangesMeet b n (va57 ea) m
  | none => false

/-- The numbers of a strand's queue entries that translated in a range, under its key. -/
def Strand.entryNos (t : Strand) (c : Core) (key b n : Nat) : List (Nat × Nat) :=
  (t.lq.filter (fun q => meetsRange b n (q.kind.range c))).map (fun q => (key, q.seq))
    ++ (t.sq.filter (fun q => meetsRange b n (q.kind.range c))).map (fun q => (key, q.seq))

/-- Accesses of partitions under way at the dies named that translated in the range of n bytes from b on: queue entries,
saved ones too, and started commands (R300). -/
def State.underWay (s : State) (parts dies : List Nat) (b n : Nat) : List (Nat × Nat) × List (Nat × Nat × W64) :=
  let mine (u : Nat) : Bool := dies.contains (unitDirDie u) && parts.contains (s.unitPart (BitVec.ofNat 10 u))
  let core (u : Nat) : Core := s.core (BitVec.ofNat 10 u)
  (s.strands.flatMap (fun (p : Nat × Strand) => if mine (p.1 / 8) then p.2.entryNos (core (p.1 / 8)) p.1 b n else [])
    ++ s.parts.flatMap (fun (x : Nat × Part) => if parts.contains x.1 then x.2.saved.flatMap (fun v =>
        v.strands.flatMap (fun (e : Nat × Strand) => if dies.contains (unitDirDie (e.1 / 8)) then
          e.2.entryNos (Table.get Core.reset v.cores (e.1 / 8)) (savedBase + e.1) b n else []))
      else []),
   s.units.flatMap (fun (p : Nat × Core) => if mine p.1 then
      (p.2.eng.filter (fun (e : Nat × EngRun) => e.2.vas.any (fun r => meetsRange b n (some r)))).map
        (fun (e : Nat × EngRun) => (p.1, e.2.queue, e.2.num)) else []))

/-- Evictions that are not over. -/
def State.evictions (s : State) : List Eviction := s.homes.evicting.filter (fun e => s.someThere e.accs e.cmds)

/-- The home of a table page, by which the directory's records are counted. -/
def dirHome (page : Nat) : BitVec 4 := (placeOf (page * 4096)).code

/-- Evict the record of a table page: its entries are dropped, and the eviction is over once what used them is
done. It is charged to activity 3 (R297). -/
def State.evict (s : State) (page : Nat) (r : DirRecord) : State :=
  let (accs, cmds) := s.underWay r.parts r.dies r.range.1 r.range.2
  let s := (s.invalidateRecord r).spend 3 [homeAgent (page * 4096)]
  { s with homes := { s.homes with
      dir := Table.erase page s.homes.dir
      evicting := ⟨page, r.dies, accs, cmds⟩ :: s.evictions } }

/-- Evict the oldest record of a home (R297). -/
def State.evictRecord (s : State) (home : BitVec 4) : State :=
  match s.homes.dir.find? (fun p => dirHome p.1 == home) with
  | some (k, r) => s.evict k r
  | none => s

/-- A walk of a die reads an entry of a table page: set the die's bit in the page's record (R297). -/
def State.noteDir (s : State) (die part k : Nat) (ea : W64) (page : Nat) : State :=
  let base := va57 ea / 2 ^ (12 + 9 * k)
  if Table.has s.homes.dir page then
    let r := Table.get ⟨[part], k, base, [], false⟩ s.homes.dir page
    let r := { r with dies := if r.dies.contains die then r.dies else die :: r.dies
                      parts := if r.parts.contains part then r.parts else part :: r.parts
                      multi := r.multi || r.parts != [part] || r.level != k || r.base != base }
    { s with homes := { s.homes with dir := Table.set s.homes.dir page r } }
  else
    let home := dirHome page
    let full := decide (16384 ≤ (s.homes.dir.filter (fun p => dirHome p.1 == home)).length)
    let s := if full then s.evictRecord home else s
    { s with homes := { s.homes with dir := Table.set s.homes.dir page ⟨[part], k, base, [die], false⟩ } }

/-! ### The walk (R291) -/

/-- What a walk found: the fault, or the leaf (e0 of a group), its level, the physical addresses of its
entry and of its table page. -/
structure Leaf where
  word : W64
  level : Nat
  entry : Nat
  table : Nat
  deriving DecidableEq, Repr

/-- The entry at byte key x of a table page has an uncorrectable error (R306). -/
def State.badEntry (s : State) (x : Nat) : Bool := (List.range 8).any (fun i => s.poisoned (x + i))

/-- The keys of the table pages that a walk of ea reads from page t at level k on. -/
def State.walkPages (s : State) (ea : W64) : Nat → Nat → Nat → List Nat
  | 0, _, _ => []
  | n + 1, t, k =>
    match s.tableKey t with
    | none => []
    | some tk =>
      let e := BitVec.ofNat 64 (s.readNat (tk + 8 * levelIndex ea k) 8)
      tk :: (if e.getLsbD 0 && !e.getLsbD 1 && entryOk e k then s.walkPages ea n (field e 51 12 * 4096) (k - 1) else [])

/-- The table pages that a partition's walk of ea reads. -/
def State.pagesOf (s : State) (part : Nat) (ea : W64) : List Nat :=
  s.walkPages ea 5 (field (s.partOf part).xroot 51 12 * 4096) 5

/-- A walk of ea would read a page whose record is being evicted: it waits (R297). -/
def State.walkWaits (s : State) (part : Nat) (ea : W64) : Bool :=
  s.evictions.any (fun e => (s.pagesOf part ea).any (fun k => k / 4096 == e.page))

/-- Walk from table page t (a physical address) at level k; `holder` is the entry that held its NEXT. Every
read of an entry notes the directory; `fill`: fill the walk caches too. -/
def State.walkFrom (s : State) (w : Who) (ea : W64) (acc : Acc) (fill : Bool) :
    Nat → Nat → Nat → Nat → Except XFault Leaf × State
  | 0, _, _, _ => (.error ⟨5, 1, acc, 0, 0⟩, s)
  | fuel + 1, t, k, holder =>
    match s.tableKey t with
    | none => (.error ⟨4, k, acc, 0, holder⟩, s)
    | some tk =>
      let x := t + 8 * levelIndex ea k
      let die := dirDie w.unit
      let s1 := s.noteDir die w.part k ea (tk / 4096)
      let e := match s.cachedEntry die w.part k ea t with
        | some c => c
        | none => BitVec.ofNat 64 (s.readNat (tk + 8 * levelIndex ea k) 8)
      if (s.cachedEntry die w.part k ea t).isNone && s.badEntry (tk + 8 * levelIndex ea k) then
        (.error ⟨kindPoison, k, acc, 0, x⟩, s1)
      else if !e.getLsbD 0 then (.error ⟨0, k, acc, 0, x⟩, s1)
      else if !entryOk e k then (.error ⟨5, k, acc, 0, x⟩, s1)
      else if !e.getLsbD 1 then
        let s2 := if fill && (s.tableKey (field e 51 12 * 4096)).isSome then s1.cacheEntry die w.part k ea t e else s1
        s2.walkFrom w ea acc fill fuel (field e 51 12 * 4096) (k - 1) x
      else if leafCont e then
        let x0 := t + 8 * (levelIndex ea k / 16 * 16)
        let e0 := BitVec.ofNat 64 (s.readNat (tk + 8 * (levelIndex ea k / 16 * 16)) 8)
        if s.badEntry (tk + 8 * (levelIndex ea k / 16 * 16)) then (.error ⟨kindPoison, k, acc, 0, x0⟩, s1)
        else if groupOk e0 k then (.ok ⟨e0, k, x0, t⟩, s1) else (.error ⟨5, k, acc, 0, x0⟩, s1)
      else (.ok ⟨e, k, x, t⟩, s1)

/-- The TLB entry that a leaf gives for ea. -/
def leafEntry (part : Nat) (ea : W64) (l : Leaf) : TlbEntry :=
  let n := pageSize l.word l.level
  { part := part, base := va57 ea / n * n, size := n, leaf := l.word, level := l.level
    entry := l.entry, table := l.table }

/-- The pinned size an access is tested against: the new one while a change is under way (R252). -/
def Cluster.nextPin (c : Cluster) : BitVec 5 := if c.chg then c.slcfg else c.pin

/-- The key of ea under an entry, or the kind of its frame's fault (R289, R270). -/
def State.frameKey (s : State) (part : Nat) (e : TlbEntry) (ea : W64) : Except Nat Nat :=
  let pa := leafFrame e.leaf + va57 ea % e.size
  if leafHome e.leaf = 2 then
    let c := pa / 2 ^ 26 % 32
    if s.homes.present.contains (c / 4) && pa % 2 ^ 26 < (s.cluster c).nextPin.toNat * (3 * 2 ^ 20) then
      .ok (pinKey c (pa % 2 ^ 26))
    else .error 3
  else match s.physKey part pa with
    | some k => .ok k
    | none => .error 2

/-- The checks of R291 after the leaf is known: kind and key of a fault, if any. -/
def permFault (w : Who) (acc : Acc) (e : W64) : Option Nat :=
  if !leafU e && !w.sup then some 6
  else if (acc == Acc.read && !leafR e) || (acc == Acc.write && !leafW e) || (acc == Acc.fetch && !leafX e) then some 7
  else if acc != Acc.fetch && w.pkr.getLsbD (2 * leafKey e) then some 8
  else if acc == Acc.write && w.pkr.getLsbD (2 * leafKey e + 1) then some 8
  else none

/-- An entry of a TLB covers ea for a partition. -/
def TlbEntry.covers (e : TlbEntry) (part : Nat) (ea : W64) : Bool :=
  e.part == part && e.base ≤ va57 ea && va57 ea < e.base + e.size

/-- The TLB entry that serves ea: the unit's L1, then its cluster's L2 (R295). -/
def State.tlbFind (s : State) (w : Who) (ea : W64) : Option TlbEntry :=
  match (s.core w.unit).tlb.find? (·.covers w.part ea) with
  | some e => some e
  | none => if w.unit.toNat < 512 then
      (s.cluster (unitCluster w.unit)).tlb.find? (·.covers w.part ea)
    else none

/-- Fill the L1 TLB and, of a compute core, the L2: 64 and 4,096 entries, the oldest giving way
(R295). -/
def State.tlbFill (s : State) (w : Who) (e : TlbEntry) : State :=
  let put (l : List TlbEntry) (n : Nat) : List TlbEntry :=
    (e :: l.filter (fun x => !(x.part == e.part && rangesMeet x.base x.size e.base e.size))).take n
  let c := s.core w.unit
  let s := s.setCore w.unit { c with tlb := put c.tlb 64 }
  if w.unit.toNat < 512 then
    let cl := s.cluster (unitCluster w.unit)
    s.setCluster (unitCluster w.unit) { cl with tlb := put cl.tlb 4096 }
  else s

/-- Set A, and D for a write, in the entry at its home (R292). -/
def State.setAD (s : State) (l : Leaf) (acc : Acc) : W64 × State :=
  let e := l.word ||| 0x400 ||| (if acc == Acc.write then 0x800 else 0)
  if e = l.word then (e, s)
  else match s.tableKey l.entry with
    | some k => (e, s.writeWord k e.toNat)
    | none => (e, s)

/-- How a translation treats the caches: a demand access sets A and D and fills; XLAT fills only with
entries whose A is 1; LOCQ, MIGHINT and prefetches do neither (R292, R303, R141). -/
inductive XMode where
  | demand | probe | quiet
  deriving DecidableEq, Repr

/-- Translate ea (R291). Answers the fault or the hit, and the state with A, D and the caches as the
walk leaves them. -/
def State.translate (s : State) (w : Who) (ea : W64) (acc : Acc) (mode : XMode) :
    Except XFault Hit × State :=
  if !canonical ea then (.error ⟨1, 0, acc, 0, 0⟩, s)
  else
    let cached := match s.tlbFind w ea with
      | some e => if mode == XMode.demand && acc == Acc.write && !leafD e.leaf then none else some e
      | none => none
    match cached with
    | some e =>
      match s.frameKey w.part e ea with
      | .error kind => (.error ⟨kind, 0, acc, 0, 0⟩, s)
      | .ok k => match permFault w acc e.leaf with
        | some kind => (.error ⟨kind, 0, acc, leafKey e.leaf, 0⟩, s)
        | none => (.ok ⟨k, e⟩, s)
    | none =>
      match s.walkFrom w ea acc (mode != XMode.quiet) 5 (field (s.partOf w.part).xroot 51 12 * 4096) 5 0 with
      | (.error f, s1) => (.error f, s1)
      | (.ok l, s1) =>
        let e := leafEntry w.part ea l
        match s.frameKey w.part e ea with
        | .error kind => (.error ⟨kind, l.level, acc, 0, l.entry⟩, s1)
        | .ok k => match permFault w acc l.word with
          | some kind => (.error ⟨kind, l.level, acc, leafKey l.word, l.entry⟩, s1)
          | none =>
            match mode with
            | .demand =>
              let (word, s2) := s1.setAD l acc
              let e := { e with leaf := word }
              (.ok ⟨k, e⟩, s2.tlbFill w e)
            | .probe => (.ok ⟨k, e⟩, if leafA l.word then s1.tlbFill w e else s1)
            | .quiet => (.ok ⟨k, e⟩, s1)

/-- The bytes ea to ea + n - 1 cut at page boundaries of 4 KiB: address and length of each piece. -/
def pagePieces : Nat → W64 → Nat → List (W64 × Nat)
  | 0, _, _ => []
  | fuel + 1, ea, n =>
    if n = 0 then []
    else
      let m := Nat.min n (4096 - ea.toNat % 4096)
      (ea, m) :: pagePieces fuel (ea + BitVec.ofNat 64 m) (n - m)

/-- Translate every page of a range, the lower first: the segments of keys with the hits, or the first
fault with its address. -/
def State.translateRange (s : State) (w : Who) (acc : Acc) (mode : XMode) :
    List (W64 × Nat) → Except (XFault × W64) (List (Hit × Nat)) × State
  | [] => (.ok [], s)
  | (ea, n) :: rest =>
    match s.translate w ea acc mode with
    | (.error f, s1) => (.error (f, ea), s1)
    | (.ok h, s1) =>
      match s1.translateRange w acc mode rest with
      | (.error f, s2) => (.error f, s2)
      | (.ok hs, s2) => (.ok ((h, n) :: hs), s2)

/-- The pieces of a range of n bytes. -/
def piecesOf (ea : W64) (n : Nat) : List (W64 × Nat) := pagePieces (n / 4096 + 2) ea n

def hitSegs (hs : List (Hit × Nat)) : List (Nat × Nat) := hs.map (fun h => (h.1.key, h.2))

end Sys2Proof.Machine
end

