-- ==== Sys2Proof/Machine/Queues.lean ====
section
/-! DEFINITION. The load and store queues of a strand (R81): entering them, the markers, and the bytes a
load takes from the strand's own stores. -/

namespace Sys2Proof.Machine

/-! ### Entering the queues -/

/-- An entry that a load or a marker made, and no fill that PREF.L started, which enters no queue (R127). -/
def LqItem.counts (q : LqItem) : Bool :=
  match q.kind with
  | .fill _ _ _ _ pref => !pref
  | _ => true

/-- Entries of the load queue. -/
def Strand.lqLen (t : Strand) : Nat := (t.lq.filter LqItem.counts).length

/-- A bundle that would enter a full queue stalls (R81.9). Markers count as entries (DEDUCED, log entry 20). -/
def needLq (s : State) (n : Nat) : Rd Unit := if s.me.lqLen + n ≤ 32 then .ok () else .error .stall
def needSq (s : State) (n : Nat) : Rd Unit := if s.me.sq.length + n ≤ 32 then .ok () else .error .stall

/-- The number of the next entry of the strand. -/
def Strand.nextSeq (t : Strand) : Nat := t.seq + 1

def Strand.addLq (t : Strand) (k : LqKind) : Strand :=
  { t with seq := t.seq + 1, lq := t.lq ++ [⟨t.seq + 1, k⟩] }

def Strand.addSq (t : Strand) (k : SqKind) : Strand :=
  { t with seq := t.seq + 1, sq := t.sq ++ [⟨t.seq + 1, k⟩] }

/-- An entry with one number in both queues. -/
def Strand.addBoth (t : Strand) (l : LqKind) (q : SqKind) : Strand :=
  { t with seq := t.seq + 1, lq := t.lq ++ [⟨t.seq + 1, l⟩], sq := t.sq ++ [⟨t.seq + 1, q⟩] }

/-- Enter the fills an access starts, or a prefetch. -/
def Strand.addFills (t : Strand) (fs : List (Nat × Nat × Nat × Space)) (pref : Bool) : Strand :=
  fs.foldl (fun t f => t.addLq (.fill f.1 f.2.1 f.2.2.1 f.2.2.2 pref)) t

def Strand.addMarker (t : Strand) (pod : Bool) : Strand := t.addBoth (.marker pod) (.marker pod)

/-! ### Markers -/

/-- Pass the markers at the head of both queues (R81.6); one of FENCE.POD waits until the strand has no
far access outstanding (R129). -/
def Strand.passMarkers (far : Bool) : Nat → Strand → Strand
  | 0, t => t
  | n + 1, t =>
    match t.lq, t.sq with
    | ⟨i, .marker pod⟩ :: l, ⟨j, .marker _⟩ :: q =>
      if i == j && !(pod && far) then Strand.passMarkers far n { t with lq := l, sq := q } else t
    | _, _ => t

/-- The strand has a far access that is not answered. -/
def State.farOutstanding (s : State) (u k : Nat) : Bool := s.fabric.reqs.any (fun r => r.owner == some (u, k) && r.seq != 0)

/-- Pass what markers can be passed now. -/
def State.settle (s : State) (u : UnitNo) (k : StrandNo) : State :=
  let t := s.strand u k
  s.setStrand u k (Strand.passMarkers (s.farOutstanding u.toNat k.toNat) t.lq.length t)

/-- A marker or an atomic of the strand has not been passed (R296). -/
def Strand.hasMarker (t : Strand) : Bool :=
  t.lq.any (fun q => match q.kind with
    | .marker _ | .atomic => true
    | _ => false)

/-- Some load, atomic or fill of the strand has not performed (R122). -/
def Strand.loadsPending (t : Strand) : Bool :=
  t.lq.any (fun q => match q.kind with
    | .marker _ => false
    | _ => true)

/-- A latch still waits for a result that has not come (R83; DEDUCED, log entry 79). -/
def Strand.latchesPending (t : Strand) : Bool :=
  t.lat.any (fun p => match p.2 with
    | .pending q => !t.bad.any (fun b => b.seq == q)
    | _ => false)

/-- Entry of a trap waits (R122). -/
def Strand.entryWaits (t : Strand) : Bool := t.loadsPending || t.latchesPending

/-- Some store of the strand numbered `seq` or below is not visible, or some load has not performed
(R161). -/
def Strand.pendingUpTo (t : Strand) (seq : Nat) : Bool :=
  t.lq.any (fun q => q.seq ≤ seq) || t.sq.any (fun q => q.seq ≤ seq)

/-- The bytes that an entry of a store queue writes. -/
def SqKind.keys (q : SqKind) : List Nat :=
  match q with
  | .store cells _ _ _ _ => cells.map (·.1)
  | .atomic a _ | .posted a _ => (List.range a.bytes).map (a.key + ·)
  | .regBlock _ _ segs _ => segKeys segs
  | .block cells _ _ => cells.map (·.1)
  | _ => []

/-- The new value of an atomic (Table 5-3). -/
def AtomicOp.newValue (a : AtomicOp) (old : W64) : W64 :=
  let o32 : W32 := old.setWidth 32
  let x32 : W32 := a.x.setWidth 32
  let t : ITy := ⟨32, !a.ty.getLsbD 1⟩
  match a.op with
  | 0 => (o32 + x32).setWidth 64
  | 1 => (o32 &&& x32).setWidth 64
  | 2 => (o32 ||| x32).setWidth 64
  | 3 => (o32 ^^^ x32).setWidth 64
  | 4 => BitVec.ofNat 64 (intElem t false min o32.toNat x32.toNat)
  | 5 => BitVec.ofNat 64 (intElem t false max o32.toNat x32.toNat)
  | 6 => x32.setWidth 64
  | 7 => if o32 = a.y.setWidth 32 then x32.setWidth 64 else o32.setWidth 64
  | 8 => old + a.x
  | 9 => a.x
  | 10 => if old = a.y then a.x else old
  | _ =>
    let f := fmtOf a.ty.toNat
    let W := f.width
    let m := mkMode a.mode 0 0 0
    let es := List.zipWith (fun o x => faddElem f m a.ftz false o x) (splitLanes W (32 / W) o32.toNat)
      (splitLanes W (32 / W) x32.toNat)
    BitVec.ofNat 64 (joinLanes W es)

/-- A key of a scratchpad. -/
def isSpadKey (k : Nat) : Bool := 2 ^ 60 ≤ k && k < 2 ^ 61

/-- Some store of the strand into scratchpad is not visible (R137). -/
def Strand.localStores (t : Strand) : Bool := t.sq.any (fun q => q.kind.keys.any isSpadKey)

/-! ### Overlap and forwarding (R81.5) -/

/-- Segments as they are found now: a page that has moved is at its new frame (R279). -/
def State.liveSegs (s : State) (segs : List (Nat × Nat)) : List (Nat × Nat) := segs.map (fun p => (s.liveKey p.1, p.2))

/-- Local bytes and global bytes never overlap (R126). -/
def Space.meets (a b : Space) : Bool := (a == .loc) == (b == .loc)

/-- The byte at key k of the strand's scratchpad as its stores older than `seq` leave it (R81.5). -/
def State.localByte (s : State) (t : Strand) (seq k : Nat) : Byte :=
  ((t.sq.filter (fun q => q.seq < seq)).reverse.findSome? (fun q => match q.kind with
    | .store cells .loc _ _ _ => (cells.reverse.find? (fun c => c.1 == k)).map (·.2)
    | _ => none)).getD (s.readByte k)

/-- The byte that an entry of the store queue of a strand of unit u writes at key k of a space, if it does: a
write-back's is the block's byte behind the strand's stores that stand in front of it (R145). -/
def State.sqByte (s : State) (u : Nat) (t : Strand) (q : SqItem) (space : Space) (k : Nat) : Option Byte :=
  match q.kind with
  | .store cells sp _ _ _ =>
    if sp.meets space then (cells.reverse.find? (fun c => s.liveKey c.1 == s.liveKey k)).map (·.2) else none
  | .regBlock _ block segs _ =>
    match s.liveSegs segs with
    | (k0, n) :: _ =>
      if space != .loc && inSegs [(k0, n)] (s.liveKey k) then some (s.localByte t q.seq (spadKey u (block * 4096 + (s.liveKey k - k0))))
      else none
    | [] => none
  | .block cells _ _ =>
    if space != .loc then (cells.find? (fun c => s.liveKey c.1 == s.liveKey k)).map (·.2) else none
  | _ => none

/-- The byte that the youngest store of the strand older than `seq` writes at key k of a space. -/
def State.forward (s : State) (u : UnitNo) (t : Strand) (seq : Nat) (space : Space) (k : Nat) : Option Byte :=
  (t.sq.filter (fun q => q.seq < seq)).reverse.findSome? (fun q => s.sqByte u.toNat t q space k)

/-- An older atomic, posted or not, touches one of these bytes, whose value is not yet known. -/
def State.postedOlder (s : State) (t : Strand) (seq : Nat) (space : Space) (segs : List (Nat × Nat)) : Bool :=
  t.sq.any (fun q => q.seq < seq && (match q.kind with
    | .posted a _ | .atomic a _ => a.space.meets space && (s.liveSegs segs).any (fun p => rangesMeet p.1 p.2 (s.liveKey a.key) a.bytes)
    | _ => false))

/-- An older load of the strand, or an older fill, which is a global load, reads one of these keys of a
space: the store waits (R81.5, R150). -/
def State.loadOlder (s : State) (t : Strand) (seq : Nat) (space : Space) (keys : List Nat) : Bool :=
  t.lq.any (fun q => q.seq < seq && (match q.kind with
    | .load segs sp _ _ _ _ _ _ => sp.meets space && keys.any (fun k => inSegs (s.liveSegs segs) (s.liveKey k))
    | .fill _ _ key _ _ => space != .loc && keys.any (fun k => inSegs (s.liveSegs [(key, 4096)]) (s.liveKey k))
    | _ => false))

/-! ### Regions (R149, R150) -/

def rgnValid (lo : W64) : Bool := lo.getLsbD 0
def rgnWB (lo : W64) : Bool := lo.getLsbD 1
/-- First block of scratchpad, and the number of blocks. -/
def rgnBase (lo : W64) : Nat := field lo 20 12
def rgnLen (lo : W64) : Nat := field lo 40 32 + 1
/-- Global address of the first block, sign-extended from bit 56. -/
def rgnGlobal (hi : W64) : W64 := BitVec.signExtend 64 (BitVec.ofNat 57 (field hi 56 12 * 4096))

def Core.rgnLo (c : Core) (k : Nat) : W64 := Table.get 0 c.rgnlo k
def Core.rgnHi (c : Core) (k : Nat) : W64 := Table.get 0 c.rgnhi k
def Core.isFilled (c : Core) (k b : Nat) : Bool := (Table.get 0 c.filled k).getLsbD b
def Core.isDirty (c : Core) (k b : Nat) : Bool := (Table.get 0 c.dirty k).getLsbD b

def setBit {w : Nat} (x : BitVec w) (i : Nat) (v : Bool) : BitVec w :=
  if v then x ||| BitVec.twoPow w i else x &&& ~~~(BitVec.twoPow w i)

def Core.setFilled (c : Core) (k b : Nat) (v : Bool) : Core :=
  { c with filled := Table.set c.filled k (setBit (Table.get 0 c.filled k) b v) }
def Core.setDirty (c : Core) (k b : Nat) (v : Bool) : Core :=
  { c with dirty := Table.set c.dirty k (setBit (Table.get 0 c.dirty k) b v) }

/-- The valid region and block of it that scratchpad block n lies in. -/
def Core.regionOf (c : Core) (n : Nat) : Option (Nat × Nat) :=
  (List.range 32).findSome? (fun k =>
    let lo := c.rgnLo k
    if rgnValid lo && rgnBase lo ≤ n && n < rgnBase lo + rgnLen lo then some (k, n - rgnBase lo) else none)

/-- The global address of a region's block. -/
def Core.blockVa (c : Core) (k b : Nat) : W64 := rgnGlobal (c.rgnHi k) + BitVec.ofNat 64 (b * 4096)

/-- A fill of the block is under way in some strand of the unit. -/
def State.filling (s : State) (u : UnitNo) (k b : Nat) : Bool :=
  (List.range 8).any (fun i => (s.strand u (BitVec.ofNat 3 i)).lq.any (fun q => match q.kind with
    | .fill r x _ _ _ => r == k && x == b
    | _ => false))

/-- Some fill of a block of region k is under way in the unit. -/
def State.fillsOf (s : State) (u : UnitNo) (k : Nat) : Bool :=
  (List.range 8).any (fun i => (s.strand u (BitVec.ofNat 3 i)).lq.any (fun q => match q.kind with
    | .fill r _ _ _ _ => r == k
    | _ => false))

/-- A local byte lies in a block whose fill is under way. -/
def State.fillHolds (s : State) (u : UnitNo) (key : Nat) : Bool :=
  match placeOf key with
  | .spad n => n == u.toNat && (match (s.core u).regionOf ((key - spadKey n 0) / 4096) with
      | some (k, b) => !(s.core u).isFilled k b && s.filling u k b
      | none => false)
  | _ => false

/-- A fill's bytes that a lost far access did not bring (R392): a load of them finds PATH-LOST, and nothing else may use
them (DESIGN CHOICE, log entry 97). -/
def State.loseBytes (s : State) : List Nat → State
  | [] => s
  | k :: rest => { s with poison := s.poison.write k 2 }.loseBytes rest

/-- The cause of the trap of a load that found one of these bytes poisoned (R121, R392). -/
def State.badCause (s : State) (keys : List Nat) : BitVec 8 :=
  if keys.any (fun k => s.poison.read (s.liveKey k) == 2) then causePathLost else causePoison

/-- Fill a block with the 4 KiB that `byte` gives, poisoned where `bad` says so (R150). -/
def State.fillWith (s : State) (u : UnitNo) (k b : Nat) (byte : Nat → Byte) (bad : Nat → Bool) : State :=
  let c := s.core u
  let base := spadKey u.toNat ((rgnBase (c.rgnLo k) + b) * 4096)
  let s := s.writeCells (cellsOf ((List.range 4096).map (base + ·)) ((List.range 4096).map byte))
  let s := s.poisonKeys (((List.range 4096).filter bad).map (base + ·))
  s.setCore u ((c.setFilled k b true).setDirty k b false)

/-- Mark the blocks that written local keys touch dirty, where filled (R150). -/
def State.markDirty (s : State) (u : UnitNo) : List Nat → State
  | [] => s
  | key :: rest =>
    match placeOf key with
    | .spad n =>
      let c := s.core u
      match (if n == u.toNat then c.regionOf ((key - spadKey n 0) / 4096) else none) with
      | some (k, b) =>
        (if c.isFilled k b then s.setCore u (c.setDirty k b true) else s).markDirty u rest
      | none => s.markDirty u rest
    | _ => s.markDirty u rest

/-! ### Late results (R120, R121) -/

/-- A loaded value of kind w at its type (R124): bytes 4, 2, 1; signed when TY[1] is 0. -/
def loadWord (ty : BitVec 4) (v : Nat) : W32 :=
  match field ty 3 2 with
  | 0 => BitVec.ofNat 32 v
  | 1 => if ty.getLsbD 1 then BitVec.ofNat 32 (v % 2 ^ 16) else (BitVec.ofNat 16 v).signExtend 32
  | _ => if ty.getLsbD 1 then BitVec.ofNat 32 (v % 2 ^ 8) else (BitVec.ofNat 8 v).signExtend 32

/-- The bytes of an access of kind w. -/
def wordBytes (ty : BitVec 4) : Nat :=
  match field ty 3 2 with
  | 0 => 4
  | 1 => 2
  | _ => 1

/-- A late value reaches its destination and the latch that waits for entry `seq`. -/
def State.deliver (s : State) (u : UnitNo) (k : StrandNo) (seq : Nat) (dst : Dest) (ty : BitVec 4)
    (v : Nat) : State :=
  let t := s.strand u k
  let l : Latch := match dst with
    | .row _ | .latV => .row (BitVec.ofNat 2048 v)
    | .w _ | .latW => .word ((loadWord ty v).setWidth 64)
    | _ => .word (BitVec.ofNat 64 v)
  let t := { t with lat := t.lat.map (fun p => (p.1, if p.2 == .pending seq then l else p.2)) }
  match dst with
  | .none | .latW | .latV => s.setStrand u k t
  | .w n => s.setStrand u k (t.setW (BitVec.ofNat 6 n) (loadWord ty v))
  | .a n => s.setStrand u k (t.setA (BitVec.ofNat 6 n) (BitVec.ofNat 64 v))
  | .row key =>
    let c := s.core u
    (s.setStrand u k t).setCore u { c.setRow key (BitVec.ofNat 2048 v) with
      badElems := c.badElems.filter (fun e => e / 64 != key) }

/-- A fault found late marks the destination (R121). -/
def State.markBad (s : State) (u : UnitNo) (k : StrandNo) (b : BadDest) : State :=
  let t := s.strand u k
  s.setStrand u k { t with bad := t.bad ++ [b] }

/-- Remove entry `seq` from both queues. -/
def State.dropEntry (s : State) (u : UnitNo) (k : StrandNo) (seq : Nat) : State :=
  let t := s.strand u k
  s.setStrand u k { t with lq := t.lq.filter (fun q => q.seq != seq), sq := t.sq.filter (fun q => q.seq != seq) }

end Sys2Proof.Machine
end

