-- ==== Sys2Proof/Machine/Ops.lean ====
section
/-! DEFINITION. What everything shares: routed faults (R339, R340, R362), taking a trap and returning
from one (R82, R83, R85), barriers (R170), and the issue of a bundle (R28, R71 to R80). -/

namespace Sys2Proof.Machine

/-! ### Numbers of routed-fault classes (Table 15-5, R394, R411, R444) -/

def clsEngine : Nat := 0x01
def clsCircNotLive : Nat := 0x02
def clsCircLost : Nat := 0x03
def clsCircRefused : Nat := 0x04
def clsLaser : Nat := 0x05
def clsRingTuning : Nat := 0x06
def clsSequencer : Nat := 0x07
def clsSeqLate : Nat := 0x08
def clsGroupBroken : Nat := 0x09
def clsStrand : Nat := 0x0A
def clsCore : Nat := 0x0B
def clsMemory : Nat := 0x0C
def clsMigration : Nat := 0x0D
def clsDie : Nat := 0x0E
def clsLink : Nat := 0x0F
def clsQp : Nat := 0x10
def clsHive : Nat := 0x11

/-- FINFO of a routed fault (R340). -/
def routedInfo (cls detail subject : Nat) : W64 :=
  BitVec.ofNat 64 (cls + detail % 256 * 2 ^ 8 + subject % 2 ^ 48 * 2 ^ 16)

/-- The origin word (R83): unit, strand and node. -/
def originWord (u k node : Nat) : W64 :=
  BitVec.ofNat 64 (u % 1024 + k % 8 * 2 ^ 10 + node % 64 * 2 ^ 13)

/-- The node of a strand's instance, or 0. -/
def Strand.nodeNo (t : Strand) : Nat := match t.inst with
  | some i => i.node
  | none => 0

/-- A write that no queue holds waits at its home (R252, R279). -/
def State.holdWrite (s : State) (u : Nat) (cells : List (Nat × Byte)) (counter : Option Nat) : State :=
  { s with homes := { s.homes with heldWrites := s.homes.heldWrites ++ [⟨u, cells, counter⟩] } }

/-! ### Host messages -/

def State.toHost (s : State) (m : HostMsg) : State :=
  { s with service := { s.service with out := s.service.out ++ [m] } }

/-- The module has power and is past its boot ROM. -/
def State.isUp (s : State) : Bool := s.service.booted && s.service.power != .trip && !s.service.recovery

/-- What only a module that is up does (R436, R437). -/
def State.whenUp (s t : State) : State := if s.isUp then t else s

/-! ### Replay and freezing (R362) -/

def Part.findLaunch (p : Part) (ticket : W64) : Option Launch := p.launches.find? (fun l => l.ticket == ticket)

def Part.setLaunch (p : Part) (l : Launch) : Part :=
  { p with launches := p.launches.map (fun x => if x.ticket == l.ticket then l else x) }

/-- A launch is in flight: accepted and not complete. -/
def Launch.inFlight (l : Launch) : Bool := l.accepted && !l.complete

/-- A node of a launch has instances started and not complete. -/
def Node.running (n : Node) : Bool := !n.gangs.isEmpty && !n.complete

/-- Fill `closure` with every node that has a predecessor in it. -/
def reachStep (nodes : List Node) (bad : List Nat) : List Nat :=
  (List.range nodes.length).filter (fun i => bad.contains i || (match nodes[i]? with
    | some n => bad.any (fun j => n.pred.getLsbD j)
    | none => false))

def reachFrom (nodes : List Node) : Nat → List Nat → List Nat
  | 0, bad => bad
  | n + 1, bad => reachFrom nodes n (reachStep nodes bad)

/-- Cancel every node reachable from the failed nodes and not started (R359). -/
def Launch.cancelAfter (l : Launch) (bad : List Nat) : Launch :=
  let hit := reachFrom l.nodes l.nodes.length bad
  { l with nodes := (List.zip (List.range l.nodes.length) l.nodes).map (fun p =>
      if hit.contains p.1 && !bad.contains p.1 && !p.2.complete then
        { p.2 with cancelled := true, complete := true }
      else p.2) }

/-- The units of a partition. -/
def State.partUnits (s : State) (p : Nat) : List Nat :=
  (List.range 560).filter (fun u => s.unitPart (BitVec.ofNat 10 u) == p)

/-- The bytes of a unit's scratchpad removed from a memory: all at the reset contents. -/
def dropSpad (m : Memory) (u : Nat) : Memory := m.filter (fun c => !(placeOf c.1 == .spad u))

/-- A key of the scratchpad of a unit that is reset with unit u: u itself, or one of its partition. -/
def State.resetSpad (s : State) (u k : Nat) : Bool :=
  match placeOf k with
  | .spad v => v == u || s.unitPart (BitVec.ofNat 10 v) == s.unitPart (BitVec.ofNat 10 u)
  | _ => false

/-- The scratchpad as the strand's queued stores and atomics in front of entry seq leave it. -/
def State.drained (s : State) (t : Strand) (seq : Nat) : State :=
  (t.sq.filter (fun q => q.seq < seq)).foldl (fun (s : State) q => match q.kind with
    | .store cells .loc _ _ _ => s.writeCells cells
    | .posted a _ | .atomic a _ =>
      if !isSpadKey a.key || q.kind.keys.any s.poisoned then s
      else s.writeNat a.key a.bytes (a.newValue (BitVec.ofNat 64 (s.readNat a.key a.bytes))).toNat
    | _ => s) s

/-- What is left of an entry of the store queue of strand t that still drains when its unit u is reset (R362, R363): not
what acts on scratchpads and barriers that are reset with it. No result of an atomic is taken any more, and a
write-back carries the bytes of before the reset, behind the strand's own stores in front of it, with their poison. -/
def State.drains (s : State) (u : Nat) (t : Strand) (q : SqItem) : List SqItem :=
  match q.kind with
  | .store cells sp ea cmp sent =>
    let left := cells.filter (fun c => !s.resetSpad u c.1)
    if left.isEmpty then [] else [⟨q.seq, .store left sp ea cmp sent⟩]
  | .regBlock _ block segs cmp =>
    let d := s.drained t q.seq
    let key (i : Nat) : Nat := spadKey u (block * 4096 + i)
    let bad := (List.range 4096).filter (fun i => d.poisoned (key i))
    [⟨q.seq, .block (cellsOf (segKeys segs) ((List.range 4096).map (fun i => d.readByte (key i))))
      (bad.map ((segs.map Prod.fst).headD 0 + ·)) (if cmp then segs else [])⟩]
  | .atomic a sent => if s.resetSpad u a.key then [] else [⟨q.seq, .posted { a with dst := .none } sent⟩]
  | .posted a _ => if s.resetSpad u a.key then [] else [q]
  | .barr v _ _ => if v == u || s.unitPart (BitVec.ofNat 10 v) == s.unitPart (BitVec.ofNat 10 u) then [] else [q]
  | .binit _ _ => []
  | .pncfg n d _ sup pkr => [⟨q.seq, .pncfg n d .none sup pkr⟩]
  | _ => [q]

/-- A marker of the load queue. -/
def LqItem.isMarker (q : LqItem) : Bool :=
  match q.kind with
  | .marker _ => true
  | _ => false

/-- A strand of a unit that is reset: its store queue drains, in its order. -/
def State.resetStrand (s : State) (u : Nat) (t : Strand) : Strand :=
  { Strand.reset with seq := t.seq, pkr := t.pkr, lq := t.lq.filter LqItem.isMarker, sq := t.sq.flatMap (s.drains u t) }

/-- The groups of a cluster that core i has joined end. -/
def Cluster.leave (c : Cluster) (i : Nat) : Cluster :=
  { c with groups := c.groups.filter (fun (p : Nat × Group) => !p.2.joined.getLsbD i) }

/-- A started command of a unit that is reset completes first: what it writes outside what is reset leaves with
the store queue of its strand (R174, R361, R362). -/
def State.landCommand (s : State) (u : Nat) (r : EngRun) : State :=
  match r.out with
  | none => s
  | some o =>
    let k : StrandNo := BitVec.ofNat 3 (r.queue / 4)
    let t := s.strand (BitVec.ofNat 10 u) k
    let t := if o.cells.isEmpty then t else t.addSq (.store o.cells .direct 0 (o.packed.map (fun b => (512 * b, 512))) false)
    let t := match o.signal with
      | some (v, b) => t.addSq (.barr v b 1)
      | none => t
    s.setStrand (BitVec.ofNat 10 u) k t

/-- Reset a unit: its core, strands and scratchpad (R362). -/
def State.resetUnit (s : State) (u : Nat) : State :=
  let s := (s.core (BitVec.ofNat 10 u)).eng.foldl (fun (s : State) (e : Nat × EngRun) => s.landCommand u e.2) s
  { s with units := Table.erase u s.units
           strands := s.strands.map (fun (p : Nat × Strand) => if p.1 / 8 = u then (p.1, s.resetStrand u p.2) else p)
           clusters := s.clusters.map (fun (p : Nat × Cluster) => if u < 512 && p.1 = u / 16 then (p.1, p.2.leave (u % 16)) else p)
           mem := dropSpad s.mem u, poison := dropSpad s.poison u
           fabric := { s.fabric with reqs := s.fabric.reqs.filter (fun r => r.store || (match r.owner with
             | some (v, _) => v != u
             | none => true)) } }

def State.resetUnits (s : State) : List Nat → State
  | [] => s
  | u :: rest => (s.resetUnit u).resetUnits rest

/-- Dispatch again what is not in FLOG: forget the instances of every other node of a launch. -/
def Launch.replayed (l : Launch) (fences : List (W64 × Nat)) : Launch :=
  if !l.inFlight then l
  else { l with
    replays := l.replays + 1
    saved := false
    stopping := false
    stopUnits := []
    nodes := (List.zip (List.range l.nodes.length) l.nodes).map (fun p =>
      if fences.contains (l.ticket, p.1) then p.2
      else { p.2 with gangs := [], finished := [], failed := false, cancelled := false
                      blamed := none, complete := false, exitStatus := 0, fault := 0, noNotify := false }) }

/-- Commands of a queue that have not started. -/
def State.unstarted (s : State) (u q : Nat) : Nat :=
  let c := s.core (BitVec.ofNat 10 u)
  (Table.get Queue.reset c.queues q).entries.length - (c.eng.filter (fun e => e.2.queue == q)).length

/-- The partition's policy will dispatch again what is in flight (R362). -/
def Part.willReplay (x : Part) : Bool :=
  x.replay && x.rcnt != 0 && !x.launches.any (fun l => l.inFlight && l.nodes.any (fun n => n.running && n.noReplay))

/-- FAULT of the queue of a fault, for its unit and queue. -/
def State.queueFault (s : State) (queue : Option (Nat × Nat)) : W64 :=
  match queue with
  | some (u, q) => (Table.get Queue.reset (s.core (BitVec.ofNat 10 u)).queues q).fault
  | none => 0

/-- A node fails by the policy of its partition: it completes when its instances have (R359, R362). -/
def Node.failBy (n : Node) (num : Nat) (fault : W64) : Node :=
  if n.failed then n else { n with failed := true, blamed := some num, fault := fault }

/-- The partition's policy on a fault routed to the Hive, or on a STOPPED strand (R362), for the
instance where the fault arose and, for a command's fault, its unit and queue. -/
def State.runPolicy (s : State) (p : Nat) (inst : Option InstRef) (queue : Option (Nat × Nat)) : State :=
  let x := s.partOf p
  if x.willReplay then
    let s := s.resetUnits (s.partUnits p)
    let s := { s with seqs := s.seqs.filter (fun (q : Nat × Seq) => !(q.2.loaded && q.2.part == p)) }
    s.setPart p { x with rcnt := x.rcnt - 1, saved := [], stopRules := none
                         launches := x.launches.map (fun l => l.replayed x.fences) }
  else
    let hit (l : Launch) : Launch := match inst with
      | some i =>
        if i.ticket == l.ticket && l.inFlight then
          let nodes := (List.zip (List.range l.nodes.length) l.nodes).map (fun (q : Nat × Node) =>
            if q.1 == i.node then q.2.failBy i.num (s.queueFault queue) else q.2)
          { l with nodes := nodes }.cancelAfter [i.node]
        else l
      | none => l
    s.setPart p { x with frozen := true, launches := x.launches.map hit }

/-! ### Routed faults -/

/-- Write a record of a partition at a virtual address of its tree (R443); nothing where it does not
translate for writing. One that its home holds waits there (R279). -/
def State.writeRecord (s : State) (p : Nat) (va : W64) (data : List Byte) : State :=
  match s.translateRange (hiveWho p) .write .demand (piecesOf va data.length) with
  | (.ok hs, s1) =>
    let cells := cellsOf (segKeys (hitSegs hs)) data
    let cmp := hitSegs (hs.filter (fun h => leafCmp h.1.entry.leaf))
    if cells.any (fun c => s1.writeHeld c.1) then s1.holdWrite 1023 cells none
    else ((s1.writeCells cells).freshen (cells.map Prod.fst)).compress cells cmp
  | (.error _, s1) => s1

/-- Append a record to FRLOG and count it (R362). -/
def State.logFault (s : State) (p : Nat) (finfo faddr origin : W64) : State :=
  let x := s.partOf p
  let cap := field x.frlog 11 0 + 1
  let va := BitVec.ofNat 64 (field x.frlog 56 12 * 4096 + x.frhead.toNat % cap * 32)
  let va := BitVec.signExtend 64 (BitVec.ofNat 57 va.toNat)
  let data := toBytes 8 finfo.toNat ++ toBytes 8 faddr.toNat ++ toBytes 8 origin.toNat ++ toBytes 8 s.ptime.toNat
  let s := s.writeRecord p va data
  s.setPart p { s.partOf p with frhead := x.frhead + 1 }

/-- Hold an asynchronous trap for a strand (R82): it is fresh where the strand is RUNNING. -/
def State.holdTrap (s : State) (u : UnitNo) (k : StrandNo) (a : AsyncTrap) : State :=
  let t := s.strand u k
  s.setStrand u k { t with held := t.held ++ [{ a with fresh := t.run == .running }] }

/-- The strand can take a routed fault (R339). -/
def Strand.takesFaults (t : Strand) : Bool := t.run != .halted && t.run != .stopped

/-- The supervisor strand's unit of a partition (R344). -/
def State.supUnit (s : State) (p : Nat) : Option Nat :=
  (List.range 560).find? (fun u => s.unitPart (BitVec.ofNat 10 u) == p && (s.unitWord u).getLsbD 8)

/-- Route a fault of class cls to the host: record and fault vector (R362). -/
def State.faultToHost (s : State) (p : Nat) (finfo faddr origin : W64) : State :=
  (s.logFault p finfo faddr origin).toHost (.faultVector p)

/-- Route a fault to the supervisor strand, or to the host where none can take it (R339). -/
def State.faultToSup (s : State) (p : Nat) (finfo faddr origin : W64) : State :=
  match s.supUnit p with
  | some v =>
    if (s.strand (BitVec.ofNat 10 v) 0).takesFaults then
      s.holdTrap (BitVec.ofNat 10 v) 0 ⟨causeRoutedFault, faddr, finfo, origin, false⟩
    else s.faultToHost p finfo faddr origin
  | none => s.faultToHost p finfo faddr origin

/-- DETAIL of a fault record (R362): where a replay discards commands of the faulting queue, their number (R363; DESIGN
CHOICE, log entry 85). -/
def State.recordDetail (s : State) (p : Nat) (queue : Option (Nat × Nat)) (detail : Nat) : Nat :=
  match queue with
  | some (u, q) => if (s.partOf p).willReplay && 0 < s.unstarted u q then Nat.min 255 (s.unstarted u q) else detail
  | none => detail

/-- Route a fault of a partition by its fault routing table (R339, R362): class, DETAIL and subject as
FINFO holds them, the address it carries, and the unit and strand where it arose. -/
def State.routeFault (s : State) (p cls detail subject : Nat) (faddr : W64) (u : UnitNo) (k : StrandNo) :
    State :=
  let x := s.partOf p
  let t := s.strand u k
  let finfo := routedInfo cls detail subject
  let origin := originWord u.toNat k.toNat t.nodeNo
  if 32 ≤ p then s.toHost (.fault finfo faddr)
  else match (if cls == clsGroupBroken then 0 else if cls == clsDie then 3 else field x.frt (2 * cls + 1) (2 * cls)) with
    | 0 =>
      if t.takesFaults then s.holdTrap u k ⟨causeRoutedFault, faddr, finfo, origin, false⟩
      else s.faultToSup p finfo faddr origin
    | 1 => s.faultToSup p finfo faddr origin
    | 2 =>
      let queue := if cls == clsEngine || cls == clsCircNotLive || cls == clsCircLost then some (u.toNat, subject % 32) else none
      (s.logFault p (routedInfo cls (s.recordDetail p queue detail) subject) faddr origin).runPolicy p t.inst queue
    | _ => s.faultToHost p finfo faddr origin

/-! ### Taking a trap and returning from one -/

/-- The held traps of a strand are fresh no longer: a bundle has committed, or the run has ended (R82). -/
def Strand.unfresh (t : Strand) : Strand := { t with held := t.held.map (fun a => { a with fresh := false }) }

/-- Some strand of the unit is READY. -/
def State.anyReady (s : State) (u : UnitNo) : Bool :=
  (List.range 8).any (fun k => (s.strand u (BitVec.ofNat 3 k)).run == .ready)

/-- Strand k of unit u becomes READY (R71): while the core idles its run begins 2 cc on, and of those that
become READY in one cc of idling the order of the strands chooses. -/
def State.makeReady (s : State) (u : UnitNo) (k : StrandNo) : State :=
  let c := s.core u
  let c' : Core :=
    if c.active.isSome then c
    else if !s.anyReady u then { c with gapEnd := if c.gapEnd.toNat < c.cycle.toNat then c.cycle else c.gapEnd, woken := [k.toNat] }
    else if !c.woken.isEmpty && c.cycle == c.gapEnd then { c with woken := k.toNat :: c.woken }
    else c
  (s.setCore u c').setStrand u k { s.strand u k with run := .ready }

/-- End the core's run of strand k (R71): the strand takes run state r. -/
def State.endRun (s : State) (u : UnitNo) (k : StrandNo) (r : RunState) : State :=
  let c := s.core u
  let t := s.strand u k
  let s := s.setStrand u k { t.unfresh with run := r, runLen := 0 }
  if c.active == some k then s.setCore u { c with active := none, lastRun := k, gapEnd := c.cycle, woken := [] } else s

/-- The bytes of a latch slot of the frame, its valid bit and its kind bit. -/
def latchBytes : Latch → List Byte × Bool × Bool
  | .word v => (toBytes 256 v.toNat, true, false)
  | .row r => (toBytes 256 r.toNat, true, true)
  | _ => (List.replicate 256 0, false, false)

/-- The trap frame (Table 3-4): what trap entry writes, 1,280 bytes. -/
def frameBytes (t : Strand) (stat tpc npc cause faddr finfo origin : W64) : List Byte :=
  let l := (List.range 4).map (fun n => latchBytes (t.latch n))
  let bits := fun (f : List Byte × Bool × Bool → Bool) =>
    (l.zip (List.range 4)).foldl (fun a p => a + (if f p.1 then 2 ^ p.2 else 0)) 0
  let lstat := bits (fun q => q.2.1) + 16 * bits (fun q => q.2.2)
  let words : List Nat := [tpc.toNat, npc.toNat, cause.toNat, faddr.toNat, finfo.toNat, lstat,
    t.lcnt0.toNat, t.lbeg0.toNat, t.lend0.toNat, t.lcnt1.toNat, t.lbeg1.toNat, t.lend1.toNat,
    t.repn.toNat + t.repi.toNat * 2 ^ 16, stat.toNat, origin.toNat]
  words.flatMap (toBytes 8) ++ List.replicate 136 0 ++ l.flatMap (·.1)

/-- sys.STAT (Table 3-2). -/
def State.statWord (s : State) (u : UnitNo) (k : StrandNo) : W64 :=
  BitVec.ofNat 64 (k.toNat + unitCoreNo u * 2 ^ 3 + unitDie u * 2 ^ 12 + (s.strand u k).td.toNat * 2 ^ 15
    + (s.isSup u k).toNat * 2 ^ 16 + unitClass u * 2 ^ 17)

/-- The keys of the strand's trap frame; addresses wrap modulo 2 MiB (R83). -/
def frameKeys (t : Strand) (u : UnitNo) (n : Nat) : List Nat :=
  (List.range n).map (fun i => spadKey u.toNat (field t.tfbase 20 8 * 256 + i))

/-- Group g of cluster n. -/
def State.groupOf (s : State) (n g : Nat) : Group := Table.get Group.reset (s.cluster n).groups g
def State.setGroup (s : State) (n g : Nat) (x : Group) : State :=
  let cl := s.cluster n
  s.setCluster n { cl with groups := Table.set cl.groups g x }

/-- The latest cycle of the cores of a mask of cluster n: the present cc, which their counters share (R257). -/
def State.latestOf (s : State) (n : Nat) (mask : BitVec 16) : Nat :=
  (((List.range 16).filter (fun i => mask.getLsbD i)).map (fun i => (s.core (BitVec.ofNat 10 (16 * n + i))).cycle.toNat)).foldl Nat.max 0

/-- A member's trap holds its group's stall wire (R258). -/
def State.groupHold (s : State) (u : UnitNo) : State :=
  let c := s.core u
  match c.group with
  | none => s
  | some g =>
    let n := unitCluster u
    let gr := s.groupOf n g.toNat
    let since := gr.holdSince.getD (BitVec.ofNat 64 (s.latestOf n gr.joined))
    s.setGroup n g.toNat { gr with faultHold := gr.faultHold ||| BitVec.twoPow 16 (u.toNat % 16), holdSince := some since }

/-- The member's RETT ends its hold (R258). -/
def State.groupRelease (s : State) (u : UnitNo) : State :=
  match (s.core u).group with
  | none => s
  | some g =>
    let n := unitCluster u
    let gr := s.groupOf n g.toNat
    let f := gr.faultHold &&& ~~~(BitVec.twoPow 16 (u.toNat % 16))
    s.setGroup n g.toNat { gr with faultHold := f, holdSince := if f = 0 then none else gr.holdSince }

/-- The cause word (Table 3-5). -/
def TrapInfo.cause (i : TrapInfo) : W64 :=
  BitVec.ofNat 64 (i.code.toNat + i.async.toNat * 2 ^ 8 + i.slot % 4 * 2 ^ 9 + i.syloff % 64 * 2 ^ 11)

/-- The route of a class that a partition may choose. -/
def Part.route (x : Part) (cls : Nat) : Nat := field x.frt (2 * cls + 1) (2 * cls)

/-- POLICY or FRT arms the Hive (R363): replay, or some class that goes to it. -/
def Part.armed (x : Part) : Bool := x.replay || (List.range 18).any (fun c => c != 0 && x.route c == 2)

/-- A STOPPED strand of an instance invokes the partition's policy (R362), where something arms it (R363; DEDUCED,
log entry 85). -/
def State.policyOnStop (s : State) (u : UnitNo) (k : StrandNo) : State :=
  match (s.strand u k).inst with
  | some i => if (s.partOf i.part).armed then s.runPolicy i.part (some i) none else s
  | none => s

/-- A strand stops, and a strand fault is routed (R82, R86). -/
def State.stopStrand (s : State) (u : UnitNo) (k : StrandNo) (subject : Nat) : State :=
  let s := s.endRun u k .stopped
  let t := s.routeFault (s.unitPart u) clsStrand 0 subject 0 u k
  if (s.partOf (s.unitPart u)).route clsStrand == 2 then t else t.policyOnStop u k

/-- A trap with TD set stops the strand, its state and frame as they are (R82). -/
def State.doubleTrap (s : State) (u : UnitNo) (k : StrandNo) : State := s.stopStrand u k 0

/-- Trap entry (R83): the frame is written to the core's own scratchpad, the loop and REP state is
cleared, TD is set, the latches become invalid, the run ends and the pc is sys.TVEC. A bundle that REP of 0
was to pass over is kept in mind until the return (R113; DEDUCED, log entry 78). -/
def State.enterTrap (s : State) (u : UnitNo) (k : StrandNo) (i : TrapInfo) : State :=
  let t := s.strand u k
  if t.td then s.doubleTrap u k
  else
    let frame := frameBytes t (s.statWord u k) i.tpc i.npc i.cause i.faddr i.finfo i.origin
    let s := s.writeCells (cellsOf (frameKeys t u 1280) frame)
    let t := { t with lcnt0 := 0, lcnt1 := 0, repn := 0, repi := 0, repSkip := false, td := true
                      lat := [], pc := t.tvec &&& ~~~3, skipAt := if t.repSkip then some i.tpc else none }
    let s := s.setStrand u k t
    if (s.core u).group.isSome && (s.core u).active == some k then
      -- a member of a group keeps the issue unit, and its handler runs there (R256, R258)
      (s.setStrand u k { t.unfresh with run := .running, runLen := 0 }).groupHold u
    else if (s.core u).active == some k then s.endRun u k .ready
    else (s.makeReady u k).setStrand u k { t.unfresh with run := .ready, runLen := 0 }

/-- Trap return (R85): the pc, the loop registers, REPSTAT and the valid latches come from the frame,
and TD is cleared. -/
def State.returnTrap (s : State) (u : UnitNo) (k : StrandNo) : State :=
  let t := s.strand u k
  let key (o : Nat) : Nat := spadKey u.toNat (field t.tfbase 20 8 * 256 + o)
  let word (o : Nat) : Nat := leNat ((List.range 8).map (fun j => s.readByte (key (o + j))))
  let lstat := word 0x28
  let latch (n : Nat) : List (Nat × Latch) :=
    if lstat.testBit n then
      let row := leNat ((List.range 256).map (fun j => s.readByte (key (0x100 + 256 * n + j))))
      [(n, if lstat.testBit (4 + n) then .row (BitVec.ofNat 2048 row) else .word (BitVec.ofNat 64 row))]
    else []
  let t := { t with
    pc := BitVec.ofNat 64 (word 0), td := false, noticed := false
    repSkip := t.skipAt == some (BitVec.ofNat 64 (word 0)), skipAt := none
    lcnt0 := BitVec.ofNat 32 (word 0x30), lbeg0 := BitVec.ofNat 64 (word 0x38) &&& ~~~3
    lend0 := BitVec.ofNat 64 (word 0x40) &&& ~~~3
    lcnt1 := BitVec.ofNat 32 (word 0x48), lbeg1 := BitVec.ofNat 64 (word 0x50) &&& ~~~3
    lend1 := BitVec.ofNat 64 (word 0x58) &&& ~~~3
    repn := BitVec.ofNat 16 (word 0x60), repi := BitVec.ofNat 16 (word 0x60 / 2 ^ 16)
    lat := (List.range 4).flatMap latch }
  (s.setStrand u k t).groupRelease u

/-! ### Barriers (R170) -/

def Core.barrier (c : Core) (b : Nat) : Barrier := Table.get Barrier.reset c.barriers b
def Core.setBarrier (c : Core) (b : Nat) (x : Barrier) : Core := { c with barriers := Table.set c.barriers b x }

/-- A barrier as a check of the present cc sees it: as it stood before the cc (R162). -/
def Core.barSeen (c : Core) (b : Nat) : Barrier := Table.get (c.barrier b) c.barOld b

/-- Change a barrier: the checks of this cc do not see it yet (R162). -/
def Core.changeBarrier (c : Core) (b : Nat) (x : Barrier) : Core :=
  { c.setBarrier b x with barOld := if Table.has c.barOld b then c.barOld else Table.insert b (c.barrier b) c.barOld }

/-- An arrival of n: each time ARRIVED reaches COUNT the phase number rises (R170). -/
def Barrier.arrive (x : Barrier) (n : Nat) : Barrier :=
  if x.frozen then x
  else
    let c := Nat.max x.count.toNat 1
    let total := x.arrived.toNat + n
    { x with arrived := BitVec.ofNat 16 (total % c), phn := x.phn + BitVec.ofNat 32 (total / c) }

def State.arrive (s : State) (u : UnitNo) (b n : Nat) : State :=
  let c := s.core u
  s.setCore u (c.changeBarrier b ((c.barrier b).arrive n))

/-- Phase ph of a barrier is complete (R170). -/
def Barrier.phaseDone (x : Barrier) (ph : Bool) : Bool := x.phn.getLsbD 0 != ph

/-! ### Queues and timelines (R160) -/

def Core.queue (c : Core) (q : Nat) : Queue := Table.get Queue.reset c.queues q
def Core.setQueue (c : Core) (q : Nat) (x : Queue) : Core := { c with queues := Table.set c.queues q x }
def Queue.full (q : Queue) : Bool := 16 ≤ q.entries.length

/-- TL of a queue as a check of the present cc sees it (R162). -/
def Core.tlSeen (c : Core) (q : Nat) : W64 := Table.get (c.queue q).tl c.tlOld q

/-- Change a queue whose TL rises: the checks of this cc do not see it yet (R162). -/
def Core.changeQueue (c : Core) (q : Nat) (x : Queue) : Core :=
  { c.setQueue q x with tlOld := if Table.has c.tlOld q then c.tlOld else Table.insert q (c.queue q).tl c.tlOld }

/-- The queue number of a strand's engine. -/
def queueNo (k : StrandNo) (e : Nat) : Nat := k.toNat * 4 + e

end Sys2Proof.Machine
end

