-- ==== Sys2Proof/Machine/Issue.lean ====
section
/-! DEFINITION. Fetch (R26, R32, R83), and the issue of one bundle: what commits, traps, stalls and blocks
(R28, R30, R53, R71 to R73, R78 to R80, R112, R113, R121, R122). -/

namespace Sys2Proof.Machine

/-! ### Fetch -/

/-- The byte that the fetch path of a core sees: what the byte held at the core's last launch (R32). -/
def State.fetchByte (s : State) (u : UnitNo) (key : Nat) : Byte :=
  let k := s.liveKey key
  let since := s.codeLog.take (s.codeLog.length - (s.core u).codeMark)
  match since.reverse.find? (fun e => e.1 == k) with
  | some e => e.2
  | none => s.mem.read k

/-- Why a fetch fails: a translation fault with its address, or poisoned bytes (DEDUCED, log entry 21). -/
inductive FetchErr where
  | xlate (f : XFault) (ea : W64)
  | poison (ea : W64)
  deriving DecidableEq, Repr

/-- The first byte of the bundle at pc that lies in the page of a (R294). -/
def fetchAddr (pc a : W64) : W64 := if a.toNat / 4096 = pc.toNat / 4096 then pc else a &&& ~~~4095

/-- Fetch the word at address a of the bundle at pc: bytes of another module are those that the core has brought, and
lost or poisoned ones are as poisoned bytes (R380; DESIGN CHOICE, log entry 11). -/
def State.fetchWord (s : State) (w : Who) (mode : XMode) (pc a : W64) :
    Except FetchErr (BitVec 32) × State :=
  match s.translate w a .fetch mode with
  | (.error f, s1) => (.error (.xlate f (fetchAddr pc a)), s1)
  | (.ok h, s1) =>
    if isFar h.key then
      let rs := s1.markReqs w.unit fetchMark
      if failedAt rs h.key 4 then (.error (.poison (fetchAddr pc a)), s1)
      else (.ok (BitVec.ofNat 32 (leNat ((List.range 4).map (fun i => answerByte rs (h.key + i))))), s1)
    else if (List.range 4).any (fun i => s1.poisoned (h.key + i)) then (.error (.poison (fetchAddr pc a)), s1)
    else (.ok (BitVec.ofNat 32 (leNat ((List.range 4).map (fun i => s1.fetchByte w.unit (h.key + i))))), s1)

/-- Fetch n words on. -/
def State.fetchWords (s : State) (w : Who) (mode : XMode) (pc : W64) :
    Nat → W64 → Except FetchErr (List (BitVec 32)) × State
  | 0, _ => (.ok [], s)
  | n + 1, a =>
    match s.fetchWord w mode pc a with
    | (.error e, s1) => (.error e, s1)
    | (.ok x, s1) =>
      match s1.fetchWords w mode pc n (a + 4) with
      | (.error e, s2) => (.error e, s2)
      | (.ok xs, s2) => (.ok (x :: xs), s2)

/-- The words a syllable has after its first; a LEN of 0b11 has none (R83). -/
def moreWords (w0 : BitVec 32) : Nat :=
  match field w0 1 0 with
  | 1 => 1
  | 2 => 2
  | _ => 0

/-- The syllables of the bundle at pc from offset off on: those up to the stop bit, to a LEN of 0b11, or
to the fourth; with `extra` the first word of a fifth is read after it (R53). -/
def State.fetchSyls (s : State) (w : Who) (mode : XMode) (pc : W64) (extra : Bool) :
    Nat → Nat → Except FetchErr (List RawSyl) × State
  | 0, off =>
    if !extra then (.ok [], s)
    else match s.fetchWord w mode pc (pc + BitVec.ofNat 64 off) with
      | (.error e, s1) => (.error e, s1)
      | (.ok w0, s1) => (.ok [⟨off, w0, 0, 0⟩], s1)
  | n + 1, off =>
    match s.fetchWord w mode pc (pc + BitVec.ofNat 64 off) with
    | (.error e, s1) => (.error e, s1)
    | (.ok w0, s1) =>
      match s1.fetchWords w mode pc (moreWords w0) (pc + BitVec.ofNat 64 (off + 4)) with
      | (.error e, s2) => (.error e, s2)
      | (.ok ws, s2) =>
        let r : RawSyl := ⟨off, w0, (ws[0]?).getD 0, (ws[1]?).getD 0⟩
        if bit w0 2 || field w0 1 0 == 3 then (.ok [r], s2)
        else match s2.fetchSyls w mode pc extra n (off + 4 + 4 * moreWords w0) with
          | (.error e, s3) => (.error e, s3)
          | (.ok rs, s3) => (.ok (r :: rs), s3)

/-- Who fetches for strand k of unit u. -/
def State.fetchWho (s : State) (u : UnitNo) (k : StrandNo) : Who := ⟨u, s.unitPart u, s.isSup u k, (s.strand u k).pkr⟩

/-- Fetch the bundle at the pc of strand k of unit u. -/
def State.fetchBundle (s : State) (u : UnitNo) (k : StrandNo) (mode : XMode) :
    Except FetchErr (List RawSyl) × State :=
  s.fetchSyls (s.fetchWho u k) mode (s.strand u k).pc true 4 0

/-- The length of the measured syllables, at most four (R83). -/
def rawLen (rs : List RawSyl) : Nat := ((rs.take 4).map (fun r => 4 + 4 * moreWords r.w0)).foldl (· + ·) 0

/-- NPC: the address of the bundle after the one at the pc, of which four syllables are measured (R83). -/
def State.npc (s : State) (u : UnitNo) (k : StrandNo) : W64 :=
  let t := s.strand u k
  match s.fetchSyls (s.fetchWho u k) .quiet t.pc false 4 0 with
  | (.ok rs, _) => t.pc + BitVec.ofNat 64 (rawLen rs)
  | (.error _, _) => t.pc

/-- The bundle at the pc names a latch in a source field (R71, R73). -/
def State.nextReadsLatch (s : State) (u : UnitNo) (k : StrandNo) : Bool :=
  match s.fetchBundle u k .quiet with
  | (.ok rs, _) => (rs.take 4).any (fun r => bit r.w0 25 || bit r.w0 18
      || (moreWords r.w0 != 0 && bit r.w1 25))
  | (.error _, _) => false

/-! ### One slot of a bundle about to issue -/

/-- A decoded slot with its meaning: class, major opcode, offset in the bundle, whether it is one of the
instructions R121 names, its guard, and what it does. -/
structure SlotRun where
  cls : Nat
  maj : Nat
  off : Nat
  marks : Bool
  guard : Guard
  run : Ctx → Rd Done

/-- A bundle about to issue: its length in bytes and its slots in class order. -/
structure Bundle where
  len : Nat
  slots : List SlotRun

/-- The instructions before which a failed load traps (R121), by major opcode and FORM. -/
def marksBad (maj form : Nat) : Bool :=
  maj == 0x46 || maj == 0x47 || maj == 0x49
    || ((maj == 0x41 || maj == 0x42 || maj == 0x43 || maj == 0x44) && 2 ≤ form % 4)
    || (maj == 0x0F && form != 0) || (maj == 0x48 && form == 1)

/-- A slot from its class, major opcode, offset, syllable and meaning. -/
def mkSlot (maj off : Nat) (y : Syl) (f : Ctx → Rd Done) : SlotRun :=
  { cls := maj / 32, maj := maj, off := off, marks := marksBad maj y.form.toNat, guard := y.guard, run := f }

/-! ### Traps and waits of a bundle -/

/-- One core cycle passes at unit u. -/
def State.tickCore (s : State) (u : UnitNo) (n : Nat) : State :=
  let c := s.core u
  s.setCore u { c with cycle := c.cycle + BitVec.ofNat 64 n, tlOld := [], barOld := [], ivOld := [] }

/-- The first failed load whose trap has not been taken. -/
def Strand.untaken (t : Strand) : Option BadDest := t.bad.find? (fun b => !b.taken)

/-- The mark's trap has been taken (R121). -/
def Strand.takeBad (t : Strand) (b : BadDest) : Strand :=
  { t with bad := t.bad.map (fun x => if x == b then { x with taken := true } else x) }

/-- Strand k of unit u enters a trap: own is the failed load it is the trap of, and an asynchronous one
leaves the list of held traps and ends the strand's wait (R82, R83, R121). -/
def State.enterNow (s : State) (u : UnitNo) (k : StrandNo) (i : TrapInfo) (own : Option BadDest) : State :=
  let t := { s.strand u k with entering := none }
  let t := match own with
    | some b => t.takeBad b
    | none => t
  let t := if i.async then { t with held := t.held.drop 1, wait := .none
                                    noticed := t.noticed || i.code == causePreemptNotice } else t
  let t := { t with ruleErr := t.ruleErr || (t.rule.isSome && i.code == causePoison) }
  (s.setStrand u k t).enterTrap u k i

/-- Strand k of unit u takes a trap: with TD set it is a DOUBLE-TRAP at once; else its entry waits until the
earlier loads have performed (R82, R122; DEDUCED, log entry 74). -/
def State.takeTrap (s : State) (u : UnitNo) (k : StrandNo) (i : TrapInfo) (own : Option BadDest) : State :=
  let t := s.strand u k
  if t.td then s.doubleTrap u k
  else if t.entryWaits then
    s.setStrand u k { t with entering := some ⟨i, (t.bad.filter (fun b => !b.taken)).map (·.seq), own⟩ }
  else s.enterNow u k i own

/-- The trap that strand k of unit u is about to enter: once no load is outstanding it is entered, but a load
that failed during the wait has its trap taken instead (R122; DEDUCED, log entry 74). -/
def State.finishTrap (s : State) (u : UnitNo) (k : StrandNo) (e : Entering) : State :=
  let t := s.strand u k
  if t.entryWaits then s
  else match t.bad.find? (fun b => !b.taken && !e.seen.contains b.seq) with
    | some b => s.enterNow u k { e.info with code := b.code, async := false, faddr := b.ea, finfo := b.pc, origin := 0 } (some b)
    | none => s.enterNow u k e.info e.own

/-- The access type that a translation fault word names. -/
def accOf (word : W64) : Acc := match field word 8 7 with
  | 0 => .read
  | 1 => .write
  | _ => .fetch

/-- The walk behind a translation fault has set the die's bit in the records of the pages that it read (R297). Only
slot M translates. -/
def State.noteWalk (s : State) (slot : Nat) (code : BitVec 8) (faddr word : W64) : State :=
  if slot ≠ 2 then s
  else match s.translate s.who faddr (accOf word) .quiet with
  | (.error f, s1) => if f.cause = code && (if f.isPoison then word == 0 else word.getLsbD 63) then s1 else s
  | _ => s

/-- The acting strand takes a synchronous trap at its pc (R82). -/
def State.trapHere (s : State) (code : BitVec 8) (faddr finfo : W64) (slot syloff : Nat) : State :=
  (s.takeTrap s.curU s.curK { code := code, async := false, slot := slot, syloff := syloff, faddr := faddr
                              finfo := finfo, origin := 0, tpc := s.me.pc, npc := s.npc s.curU s.curK } none)

/-- The trap of a failed load at the bundle that meets it (R121). -/
def State.trapBad (s : State) (b : BadDest) (slot syloff : Nat) : State :=
  s.takeTrap s.curU s.curK { code := b.code, async := false, slot := slot, syloff := syloff, faddr := b.ea
                             finfo := b.pc, origin := 0, tpc := s.me.pc, npc := s.npc s.curU s.curK } (some b)

/-- An asynchronous trap is taken between two bundles: after the next commit, or at once if the strand is not
RUNNING; not with TD set, and not before a bundle that REP of 0 passes over (R82, R113; DEDUCED, log entry 74). -/
def State.asyncDue (s : State) (u : UnitNo) (k : StrandNo) : Bool :=
  let t := s.strand u k
  (match t.held with
    | a :: _ => !(a.fresh && t.run == .running)
    | [] => false)
  && t.entering.isNone && !t.td && !t.repSkip && t.run != .halted && t.run != .stopped

/-- Take the oldest held trap of a strand. -/
def State.takeAsync (s : State) (u : UnitNo) (k : StrandNo) : State :=
  let t := s.strand u k
  match t.held with
  | [] => s
  | a :: _ => s.takeTrap u k { code := a.code, async := true, slot := 0, syloff := 0, faddr := a.faddr
                               finfo := a.finfo, origin := a.origin, tpc := t.pc, npc := s.npc u k } none

/-- The first join of a member, or a park at a rendezvous, is what the blocking bundle leaves behind
(R260, R261). -/
def State.blockEffect (s : State) (w : Wait) : State :=
  let core := s.curU.toNat % 16
  let n := unitCluster s.curU
  match w with
  | .group g mask =>
    let x := s.groupOf n g
    let joined := x.joined ||| BitVec.twoPow 16 core
    if x.started || x.joined.getLsbD core then s
    else s.setGroup n g { x with mask := mask, joined := joined
                                 strands := Table.set x.strands core s.curK.toNat
                                 startAt := BitVec.ofNat 64 (s.latestOf n joined + 16) }
  | .sync g =>
    let x := s.groupOf n g
    s.setGroup n g { x with parked := x.parked ||| BitVec.twoPow 16 core }
  | _ => s

/-- The acting strand's condition is unmet (R72): it blocks in front of the bundle; a member of a group
stays RUNNING (R257). -/
def State.blockHere (s : State) (w : Wait) : State :=
  let member := s.myCore.group.isSome
  let s := s.blockEffect w
  let s := s.tickCore s.curU 1
  if member then s.setMe { s.me with wait := w }
  else
    let s := s.endRun s.curU s.curK .blocked
    s.setMe { s.me with wait := w, lat := [] }

/-! ### Commit -/

/-- The pc after a committed bundle that transferred no control: the loop-back rule (R78). -/
def Strand.loopBack (t : Strand) (next : W64) : Strand :=
  if t.lcnt1 != 0 && t.pc == t.lend1 && t.lcnt1 != 1 then
    { t with lcnt1 := t.lcnt1 - 1, pc := t.lbeg1 }
  else
    let t1 := if t.lcnt1 != 0 && t.pc == t.lend1 then { t with lcnt1 := 0 } else t
    if t1.lcnt0 != 0 && t1.pc == t1.lend0 then
      if t1.lcnt0 != 1 then { t1 with lcnt0 := t1.lcnt0 - 1, pc := t1.lbeg0 }
      else { t1 with lcnt0 := 0, pc := next }
    else { t1 with pc := next }

/-- Move the pc after a committed bundle of `len` bytes: `rep` is REPN before it (R78, R79, R138). -/
def Strand.advance (t : Strand) (rep : BitVec 16) (target : Option W64) (len : Nat) : Strand :=
  let next := t.pc + BitVec.ofNat 64 len
  let t1 := if rep = 0 || t.repn = 0 then t else { t with repn := t.repn - 1, repi := t.repi + 1 }
  if rep != 0 && t1.repn != 0 then t1
  else match target with
    | some a => { t1 with pc := a }
    | none => t1.loopBack next

/-- A latch of a slot before which the bundle takes n numbers for queue entries (R28, R120). -/
def Latch.shift (n : Nat) : Latch → Latch
  | .pending q => .pending (q + n)
  | l => l

/-- The latches that the slots of a bundle leave, n numbers having been taken before (R30). -/
def latchesOf : Nat → List (Nat × Done) → Table Latch
  | _, [] => []
  | n, (c, d) :: rest =>
    if d.latch == .invalid then latchesOf (n + d.seqn) rest
    else Table.insert c (d.latch.shift n) (latchesOf (n + d.seqn) rest)

/-- Apply the changes of the slots in order (R28). -/
def applyAll : List (Nat × Done) → State → State
  | [], s => s
  | (_, d) :: rest, s => applyAll rest (d.apply s)

/-- The run ends at its quantum (R73): after 512 bundles in front of one that reads no latch, or after
32 more, when the latches are kept. -/
def State.quantumDue (s : State) (u : UnitNo) (k : StrandNo) : Bool :=
  let t := s.strand u k
  544 ≤ t.runLen || (512 ≤ t.runLen && !s.nextReadsLatch u k)

/-- End the run of strand k, its latches lost but at the limit of 32 further bundles (R73, R76). -/
def State.quantumEnd (s : State) (u : UnitNo) (k : StrandNo) : State :=
  let t := s.strand u k
  let keep := s.nextReadsLatch u k
  let t := if keep then { t with keeps := if t.keeps.toNat = 65535 then t.keeps else t.keeps + 1 }
           else { t with lat := [] }
  (s.setStrand u k t).endRun u k .ready

/-- Count a run that passes its quantum (sys.RUNSTAT). -/
def State.countDeferral (s : State) : State :=
  if s.me.runLen = 512 && s.nextReadsLatch s.curU s.curK then
    s.setMe { s.me with deferrals := if s.me.deferrals.toNat = 65535 then s.me.deferrals else s.me.deferrals + 1 }
  else s

/-- Commit a bundle (R28, R30): the counter values it took, the slots' changes in order, the latches, the
pc, one core cycle, and the end of the run where it ends. -/
def State.commit (s : State) (len : Nat) (ds : List (Nat × Done)) : State :=
  let rep := s.me.repn
  let used := (ds.filter (fun d => d.2.ctr)).length
  let s1 := s.setMe { s.me with srctr := s.me.srctr + BitVec.ofNat 32 used, wait := .none }
  let s2 := applyAll ds s1
  let target := (ds.find? (fun d => d.2.target.isSome)).bind (fun d => d.2.target)
  let s3 := if ds.any (fun d => d.2.ret) then s2.returnTrap s.curU s.curK
            else s2.setMe { s2.me.advance rep target len with lat := latchesOf 0 ds }
  let s4 := (s3.setMe { s3.me.unfresh with runLen := s3.me.runLen + 1 }).tickCore s.curU 1
  let s5 := s4.settle s.curU s.curK
  if ds.any (fun d => d.2.endRun == .yes) then s5.endRun s.curU s.curK s5.me.run
  else if ds.any (fun d => d.2.endRun == .unlessLatch) && !s5.nextReadsLatch s.curU s.curK
      && s5.myCore.group.isNone then
    (s5.setMe { s5.me with lat := [] }).endRun s.curU s.curK .ready
  else s5.countDeferral

/-! ### Running a bundle -/

/-- What the active slots answer, in class order, with the counter values of R20: slot V takes the one
after slot B, and an ENQ in slot M the one after both. -/
def slotResults (len : Nat) (t : Strand) : List SlotRun → List (SlotRun × Rd Done) :=
  fun slots =>
    let act := slots.filter (fun x => guardOn t x.guard)
    let uses (c n : Nat) : Nat := match act.find? (fun x => x.cls == c) with
      | some x => match x.run ⟨n, len⟩ with
        | .ok d => d.ctr.toNat
        | .error _ => 0
      | none => 0
    let b := uses 1 0
    let v := uses 3 b
    act.map (fun x => (x, x.run ⟨if x.cls = 2 then b + v else if x.cls = 3 then b else 0, len⟩))

def isBlock : SlotRun × Rd Done → Option Wait
  | (_, .error (.block w)) => some w
  | _ => none

def isStall : SlotRun × Rd Done → Bool
  | (_, .error .stall) => true
  | (_, .error (.fill _ _)) => true
  | _ => false

/-- Enter the fills of region blocks for which a slot waits (R150): each block's page is translated as by an access. -/
def State.startFill (s : State) (fs : List (Nat × Nat × Nat × Space)) (va : List W64) : State :=
  let s := va.foldl (fun (s : State) a => (s.translate s.who a .read .demand).2) s
  s.setMe (s.me.addFills fs false)

def State.startFills (s : State) : List (SlotRun × Rd Done) → State
  | (_, .error (.fill fs va)) :: rest => (s.startFill fs va).startFills rest
  | _ :: rest => s.startFills rest
  | [] => s

/-- The slots' results, all of which completed. -/
def donesOf : List (SlotRun × Rd Done) → List (Nat × Done)
  | [] => []
  | (x, .ok d) :: rest => (x.cls, d) :: donesOf rest
  | _ :: rest => donesOf rest

/-- The entries of all slots together do not fit the strand's queues: the bundle stalls (R81.9). A single slot
has tested its own. -/
def State.noRoom (s : State) (ds : List (Nat × Done)) : Bool :=
  1 < ds.length && (32 < s.me.lqLen + (ds.map (fun d => d.2.lqn)).sum || 32 < s.me.sq.length + (ds.map (fun d => d.2.sqn)).sum)

/-- What comes of the active slots' results: an unmet condition first (R72), a stall, the trap of the
lowest slot (R28), or commit. -/
def State.settleBundle (s : State) (len : Nat) (rs : List (SlotRun × Rd Done)) : State :=
  match rs.findSome? isBlock with
  | some w => s.blockHere w
  | none =>
    if rs.any isStall then (s.startFills rs).tickCore s.curU 1
    else match rs.find? (fun r => match r.2 with
        | .error _ => true
        | .ok _ => false) with
      | some (x, .error (.trap c a i)) => (s.noteWalk x.cls c a i).trapHere c a i x.cls x.off
      | some (x, .error (.badLoad b)) => s.trapBad b x.cls x.off
      | _ => if s.noRoom (donesOf rs) then s.tickCore s.curU 1 else s.commit len (donesOf rs)

/-- The acting strand issues a bundle (R28). A bundle that REP of 0 passes over takes the traps of decoding alone, not
that of V.PP on a unit without PPA (R113, R397; DEDUCED, log entry 100). The trap of a failed load is taken where the bundle holds one of R121's
instructions, its guard on or off, before its slots trap, block or stall (DEDUCED, log entry 40). -/
def State.runBundle (s : State) (b : Bundle) : State :=
  if s.me.repSkip then
    -- a repetition of 0: decoded, and passed over (R113)
    (s.setMe { s.me with repSkip := false, lat := [], pc := s.me.pc + BitVec.ofNat 64 b.len }).tickCore s.curU 1
  else match (if s.me.repn != 0 then b.slots.find? (fun x => 0x0B ≤ x.maj && x.maj ≤ 0x0F) else none) with
    | some x => s.trapHere causeIllegalInstruction 0 0 0 x.off
    | none =>
      match b.slots.find? (fun x => x.maj == 0x6E && unitClass s.curU != 0) with
      | some x => s.trapHere causeIllegalInstruction 0 0 x.cls x.off      -- no PPA (R397)
      | none =>
        match (b.slots.find? (·.marks)), s.me.untaken with
        | some x, some bad => s.trapBad bad x.cls x.off
        | _, _ => s.settleBundle b.len (slotResults b.len s.me b.slots)

/-- A bundle that holds one syllable. -/
def State.runOne (s : State) (maj : Nat) (y : Syl) (f : Ctx → Rd Done) : State :=
  s.runBundle ⟨y.len.bytes, [mkSlot maj 0 y f]⟩

end Sys2Proof.Machine
end

