-- ==== Sys2Proof/Machine/Memory.lean ====
section
/-! DEFINITION. The memory instructions of slot M and the row accesses of slot V (R116 to R133, R144 to
R146, R200, R201): what each checks before it commits, and what it puts into the queues. -/

namespace Sys2Proof.Machine

/-! ### Checking an access -/

/-- A checked access: the bytes it touches and the space it reaches them through, the region blocks it starts
to fill (region, block, and key and space of the global page), those bytes whose leaf has CMP set, and what its translations leave in A, D and the TLBs. -/
structure Access where
  segs : List (Nat × Nat)
  space : Space
  fills : List (Nat × Nat × Nat × Space)
  cmp : List (Nat × Nat)
  effect : State → State

def xlateTrap {α : Type} (f : XFault) (ea : W64) : Rd α := .error (.trap f.cause ea f.word)

/-- Behind a marker that has not been passed, an access that misses in the TLBs waits (R296); and so does one
whose walk meets an eviction of the directory (R297). -/
def State.missWaits (s : State) (ps : List (W64 × Nat)) : Bool :=
  ps.any (fun p => canonical p.1 && (s.tlbFind s.who p.1).isNone && (s.me.hasMarker || s.walkWaits s.myPart p.1))

/-- Translate a range for the acting strand; A, D and the TLBs change at commit. -/
def xlateRange (s : State) (acc : Acc) (ps : List (W64 × Nat)) : Rd (List (Hit × Nat) × (State → State)) :=
  if s.missWaits ps then .error .stall
  else match (s.translateRange s.who acc .demand ps).1 with
    | .error (f, a) => xlateTrap f a
    | .ok hs => .ok (hs, fun t => (t.translateRange s.who acc .demand ps).2)

/-- The space of a global access: what every leaf keeps cached at home 0 is held by slices, other leaves
and frames outside the dies and their far memory are not (R126, R273, R286). -/
def spaceOf (hs : List (Hit × Nat)) : Space :=
  if hs.all (fun h => leafHome h.1.entry.leaf == 0 && (match placeOf h.1.key with
    | .die _ | .far _ => true
    | _ => false)) then .cached else .direct

/-- The fill that a local access to block n starts, if any (R118, R150). -/
def fillFor (s : State) (ea : W64) (acc : Acc) (n : Nat) : Rd (List (Nat × Nat × Nat × Space) × (State → State)) :=
  let c := s.myCore
  match c.regionOf n with
  | none => .ok ([], id)
  | some (k, b) =>
    if acc == Acc.write && !rgnWB (c.rgnLo k) then illegalOperandAt ea
    else if c.isFilled k b || s.filling s.curU k b then .ok ([], id)
    else if c.badRgns.contains k then xlateTrap ⟨0, 0, .read, 0, 0⟩ (c.blockVa k b)
    else do
      let (hs, f) ← xlateRange s .read [(c.blockVa k b, 4096)]
      .ok ((hs.map (fun h => (k, b, h.1.key, spaceOf [h]))), f)

/-- The scratchpad blocks that n bytes from ea on touch. -/
def blocksAt (ea : W64) (n : Nat) : List Nat := [ea.toNat / 4096, (ea.toNat + n - 1) / 4096].eraseDups

/-- A local access of n bytes (R118, R200). -/
def accessLocal (s : State) (ea : W64) (n align : Nat) (acc : Acc) : Rd Access :=
  if ea.toNat % align ≠ 0 then .error (.trap causeMisalignedAccess ea 0)
  else if 2 ^ 21 < ea.toNat + n then illegalOperandAt ea
  else do
    let fs ← (blocksAt ea n).mapM (fillFor s ea acc)
    .ok { segs := [(spadKey s.curU.toNat ea.toNat, n)], space := .loc, fills := fs.flatMap (·.1), cmp := []
          effect := fun t => fs.foldl (fun t f => f.2 t) t }

/-- The last address of a range is non-canonical where the first is not: the first byte of the range
in that page is the faulting address. -/
def nonCanonicalAt (ea : W64) (n : Nat) : Option W64 :=
  if !canonical ea then some ea
  else if !canonical (ea + BitVec.ofNat 64 (n - 1)) then some ((ea + BitVec.ofNat 64 (n - 1)) &&& ~~~4095)
  else none

/-- A global access of n bytes (R118, R200). -/
def accessGlobal (s : State) (ea : W64) (n align : Nat) (acc : Acc) : Rd Access :=
  if ea.toNat % align ≠ 0 then .error (.trap causeMisalignedAccess ea 0)
  else match nonCanonicalAt ea n with
    | some a => xlateTrap ⟨1, 0, acc, 0, 0⟩ a
    | none => do
      let (hs, f) ← xlateRange s acc (piecesOf ea n)
      .ok { segs := hitSegs hs, space := spaceOf hs, fills := [], cmp := hitSegs (hs.filter (fun h => leafCmp h.1.entry.leaf)), effect := f }

def access (s : State) (loc : Bool) (ea : W64) (n align : Nat) (acc : Acc) : Rd Access :=
  if loc then accessLocal s ea n align acc else accessGlobal s ea n align acc

/-! ### Loads -/

/-- A load of n bytes at ea to dst, with a marker after it for the acquire forms (R120, R124). -/
def loadTo (s : State) (loc : Bool) (ea : W64) (n align : Nat) (dst : Dest) (ty : BitVec 4) (acq : Bool) :
    Rd Done := do
  s.writable dst
  let x ← access s loc ea n align .read
  needLq s (x.fills.length + 1 + acq.toNat)
  needSq s acq.toNat
  let pc := s.me.pc
  .ok { Done.plain (fun t =>
          let t := x.effect t
          let m := ((t.me.clearBad dst).addFills x.fills false).addLq (.load x.segs x.space dst ty ea pc false [])
          t.setMe (if acq then m.addMarker false else m)) with
        latch := .pending (s.me.seq + x.fills.length + 1)
        lqn := x.fills.length + 1 + acq.toNat, sqn := acq.toNat, seqn := x.fills.length + 1 + acq.toNat }

/-- The destination of a load of kind w or a: no register with NWB, and none for a0 (R42, R124). -/
def dstW (y : Syl) : Dest := if y.nwb then .latW else .w y.d.toNat
def dstA (y : Syl) : Dest := if y.nwb then .none else destA y.d

/-- The forms of Table 5-1: K = 0 and 2 load at a type, K = 1 and 3 load 8 bytes. -/
def loadForm (y : Syl) (s : State) (loc acq : Bool) : Rd Done := do
  let ea ← effAddr s y
  if bit y.form 0 then loadTo s loc ea 8 8 (dstA y) 0 acq
  else loadTo s loc ea (wordBytes y.ty) (wordBytes y.ty) (dstW y) y.ty acq

def slotLdL (y : Syl) (s : State) : Rd Done := loadForm y s true false
def slotLdAcqL (y : Syl) (s : State) : Rd Done := loadForm y s true true
def slotLdG (y : Syl) (s : State) : Rd Done := loadForm y s false false
def slotLdAcqG (y : Syl) (s : State) : Rd Done := loadForm y s false true

/-! ### Stores -/

/-- A store of the bytes `data` at ea, those that `on` picks, with a marker before it for the release
forms (R125). -/
def storeFrom (s : State) (loc : Bool) (ea : W64) (align : Nat) (data : List Byte) (on : Nat → Bool)
    (rel : Bool) : Rd Done := do
  let x ← access s loc ea data.length align .write
  needLq s (x.fills.length + rel.toNat)
  needSq s (1 + rel.toNat)
  let cells := ((cellsOf (segKeys x.segs) data).zip (List.range data.length)).filter (fun p => on p.2)
  .ok { Done.plain (fun t =>
          let t := x.effect t
          let m := if rel then t.me.addMarker false else t.me
          t.setMe ((m.addFills x.fills false).addSq (.store (cells.map (·.1)) x.space ea x.cmp false))) with
        lqn := x.fills.length + rel.toNat, sqn := 1 + rel.toNat, seqn := x.fills.length + 1 + rel.toNat }

/-- The forms of Table 5-2: the low bytes of Src3. -/
def storeForm (y : Syl) (s : State) (loc rel : Bool) : Rd Done := do
  let ea ← effAddr s y
  let (n, v) ← if bit y.form 0 then do
      let v ← readA s y.s3
      .ok (8, v.toNat)
    else do
      let v ← readW s y.s3
      .ok (wordBytes y.ty, v.toNat)
  storeFrom s loc ea n (toBytes n v) (fun _ => true) rel

def slotStL (y : Syl) (s : State) : Rd Done := storeForm y s true false
def slotStRelL (y : Syl) (s : State) : Rd Done := storeForm y s true true
def slotStG (y : Syl) (s : State) : Rd Done := storeForm y s false false
def slotStRelG (y : Syl) (s : State) : Rd Done := storeForm y s false true

/-! ### Prefetches -/

/-- The address a prefetch names: no operand makes a prefetch trap, not an invalid latch either, and one that would
trap is dropped (R127, R41; DESIGN CHOICE, log entry 84). A pending operand still stalls (R120). -/
def prefAddr (s : State) (y : Syl) : Rd (Option W64) :=
  match effAddr s y with
  | .ok a => .ok (some a)
  | .error .stall => .error .stall
  | .error _ => .ok none

/-- PREF.G and PREFW.G change no architectural state (R127). -/
def slotPrefG (y : Syl) (s : State) : Rd Done := do
  let _ ← prefAddr s y
  .ok (Done.plain id)

def slotPrefwG (y : Syl) (s : State) : Rd Done := do
  let _ ← prefAddr s y
  .ok (Done.plain id)

/-- The fill of the block that holds local address ea, if a region maps it and its page translates (R127). -/
def State.prefetchFill (s : State) (ea : W64) : List (Nat × Nat × Nat × Space) :=
  if 2 ^ 21 ≤ ea.toNat then []
  else
    let c := s.myCore
    match c.regionOf (ea.toNat / 4096) with
    | none => []
    | some (k, b) =>
      if c.isFilled k b || s.filling s.curU k b || c.badRgns.contains k then []
      else match (s.translate s.who (c.blockVa k b) .read .quiet).1 with
        | .ok h => [(k, b, h.key, spaceOf [(h, 4096)])]
        | .error _ => []

/-- The directory after the walk of that fill (R297). -/
def State.prefetchWalk (s : State) (w : Who) (ea : W64) : State :=
  match s.myCore.regionOf (ea.toNat / 4096) with
  | some (k, b) => (s.translate w (s.myCore.blockVa k b) .read .quiet).2
  | none => s

/-- The address of the block that holds local address ea, where a region maps it. -/
def State.prefetchVa (s : State) (ea : W64) : List (W64 × Nat) :=
  match s.myCore.regionOf (ea.toNat / 4096) with
  | some (k, b) => [(s.myCore.blockVa k b, 4096)]
  | none => []

/-- PREF.L starts the fill, which performs in load-queue order (R127, R150). -/
def slotPrefL (y : Syl) (s : State) : Rd Done := do
  match ← prefAddr s y with
  | some ea =>
    let fs := s.prefetchFill ea
    let w := s.who
    if !fs.isEmpty && s.missWaits (s.prefetchVa ea) then .error .stall
    else .ok { Done.plain (fun t =>
            let t := if fs.isEmpty then t else t.prefetchWalk w ea
            t.setMe (t.me.addFills fs true)) with seqn := fs.length }
  | none => .ok (Done.plain id)

/-! ### QALIGN and FENCE -/

/-- A marker in both queues (R81.6); FENCE.POD waits for far accesses too (R129). -/
def markerSlot (s : State) (pod : Bool) : Rd Done := do
  needLq s 1
  needSq s 1
  .ok { Done.plain (fun t => t.setMe (t.me.addMarker pod)) with lqn := 1, sqn := 1, seqn := 1 }

def slotQalign (_ : Syl) (s : State) : Rd Done := markerSlot s false
def slotFenceCore (_ : Syl) (s : State) : Rd Done := markerSlot s false
def slotFenceClus (_ : Syl) (s : State) : Rd Done := markerSlot s false
def slotFenceDie (_ : Syl) (s : State) : Rd Done := markerSlot s false
def slotFencePkg (_ : Syl) (s : State) : Rd Done := markerSlot s false
def slotFencePod (_ : Syl) (s : State) : Rd Done := markerSlot s true

/-! ### Atomics -/

/-- Number of an operation of Table 5-3. -/
def atomOp (y : Syl) : Nat := field y.form 3 0
/-- Ops 8, 9 and 10 act on 8 bytes. -/
def atomBytes (y : Syl) : Nat := if 8 ≤ atomOp y && atomOp y ≤ 10 then 8 else 4

/-- The compared operand of a compare-and-swap: S2, with its swizzle where it is of kind w (R46). -/
def atomCmp (s : State) (y : Syl) : Rd W64 :=
  if atomBytes y = 8 then readA s y.s2
  else do
    let v ← readW s y.s2
    .ok ((swizzle v y.mod).setWidth 64)

/-- An operand of an atomic: kind w or kind a with its width. -/
def atomSrc (s : State) (y : Syl) (f : Src) : Rd W64 :=
  if atomBytes y = 8 then readA s f
  else do
    let v ← readW s f
    .ok (v.setWidth 64)

/-- Where an atomic at a key executes (Table 5-4): its home code, or the trap UNSUPPORTED-TYPE. -/
def atomSite (op key : Nat) (ea : W64) : Rd (BitVec 4) :=
  match placeOf key with
  | .aperture => .error (.trap causeUnsupportedType ea 0)
  | .host => if op = 12 then .error (.trap causeUnsupportedType ea 0) else .ok Place.host.code
  | p => .ok p.code

/-- The operation an atomic form makes, with its checks (R130, R131, R133). -/
def atomicOf (y : Syl) (s : State) (dst : Dest) : Rd (AtomicOp × Access) := do
  let ea ← effAddrPlain s y
  let x ← atomSrc s y y.s3
  let y2 ← if atomOp y = 7 || atomOp y = 10 then atomCmp s y else .ok 0
  s.writable dst
  let n := atomBytes y
  let acc ← access s (bit y.form 4) ea n n .write
  let key := (acc.segs.map (·.1)).headD 0
  let site ← atomSite (atomOp y) key ea
  let mode := s.modeOf y.rm
  if atomOp y = 12 && mode == 4 then .error (.trap causeUnsupportedType ea 0)
  else .ok ({ op := atomOp y, space := acc.space, key := key, bytes := n, x := x, y := y2, ty := y.ty, mode := mode
              ftz := s.me.ftz, dst := dst, site := site, ea := ea, pc := s.me.pc }, acc)

/-- An atomic with a result enters both queues (R81.7, R131). -/
def atomSlot (y : Syl) (s : State) : Rd Done := do
  let dst := if atomBytes y = 8 then dstA y else dstW y
  let (a, x) ← atomicOf y s dst
  needLq s (x.fills.length + 1)
  needSq s 1
  .ok { Done.plain (fun t =>
          let t := x.effect t
          t.setMe (((t.me.clearBad dst).addFills x.fills false).addBoth .atomic (.atomic a false))) with
        latch := .pending (s.me.seq + x.fills.length + 1)
        lqn := x.fills.length + 1, sqn := 1, seqn := x.fills.length + 1 }

/-- A posted atomic enters the store queue only (R132). -/
def redSlot (y : Syl) (s : State) : Rd Done := do
  let (a, x) ← atomicOf y s .none
  needLq s x.fills.length
  needSq s 1
  .ok { Done.plain (fun t =>
          let t := x.effect t
          t.setMe ((t.me.addFills x.fills false).addSq (.posted a false))) with
        lqn := x.fills.length, sqn := 1, seqn := x.fills.length + 1 }

def slotAtomAdd (y : Syl) (s : State) : Rd Done := atomSlot y s
def slotAtomAnd (y : Syl) (s : State) : Rd Done := atomSlot y s
def slotAtomOr (y : Syl) (s : State) : Rd Done := atomSlot y s
def slotAtomXor (y : Syl) (s : State) : Rd Done := atomSlot y s
def slotAtomMin (y : Syl) (s : State) : Rd Done := atomSlot y s
def slotAtomMax (y : Syl) (s : State) : Rd Done := atomSlot y s
def slotAtomSwp (y : Syl) (s : State) : Rd Done := atomSlot y s
def slotAtomCas (y : Syl) (s : State) : Rd Done := atomSlot y s
def slotAtomFadd (y : Syl) (s : State) : Rd Done := atomSlot y s
def slotRedAdd (y : Syl) (s : State) : Rd Done := redSlot y s
def slotRedAnd (y : Syl) (s : State) : Rd Done := redSlot y s
def slotRedOr (y : Syl) (s : State) : Rd Done := redSlot y s
def slotRedXor (y : Syl) (s : State) : Rd Done := redSlot y s
def slotRedMin (y : Syl) (s : State) : Rd Done := redSlot y s
def slotRedMax (y : Syl) (s : State) : Rd Done := redSlot y s
def slotRedFadd (y : Syl) (s : State) : Rd Done := redSlot y s

/-! ### Row accesses (R200, R201) -/

def rowSlotLoad (y : Syl) (s : State) (loc : Bool) : Rd Done := do
  let ea ← effAddrPlain s y
  let dst := if y.nwb then .latV else .row (s.vKey y.d)
  loadTo s loc ea 256 32 dst 0 false

def slotVld (y : Syl) (s : State) : Rd Done := rowSlotLoad y s (bit y.form 2)

def slotVst (y : Syl) (s : State) : Rd Done := do
  let ea ← effAddrPlain s y
  let r ← readV s y.s3
  storeFrom s (bit y.form 2) ea 32 (toBytes 256 r.toNat) (fun _ => true) false

/-- VSTM has no displacement: its S2 is the mask. -/
def slotVstm (y : Syl) (s : State) : Rd Done := do
  let ea ← readA s y.s1
  let m ← readM s y.s2
  let r ← readV s y.s3
  storeFrom s (bit y.form 2) ea 32 (toBytes 256 r.toNat) (fun i => m.getLsbD i) false

/-! ### REGSYNC and REGINV -/

/-- The region a REGSYNC or REGINV names: LIT[4:0], or Src2 (R144). -/
def regionNo (s : State) (y : Syl) : Rd Nat :=
  if isX y then .ok y.lit.toNat
  else do
    let v ← src2W s y
    needOp (v.toNat < 32)
    .ok v.toNat

/-- The dirty blocks of a valid region, rising. -/
def Core.dirtyBlocks (c : Core) (k : Nat) : List Nat :=
  if rgnValid (c.rgnLo k) then (List.range (rgnLen (c.rgnLo k))).filter (c.isDirty k) else []

/-- The blocks that a REGSYNC of the acting strand writes back: those that are dirty, and those that one of
its own earlier stores, still in the queue, makes dirty (R145, R81.3). -/
def State.syncBlocks (s : State) (k : Nat) : List Nat :=
  let c := s.myCore
  let queued (b : Nat) : Bool := s.me.sq.any (fun q => q.kind.keys.any (fun a =>
    placeOf a == .spad s.curU.toNat && (a - spadKey s.curU.toNat 0) / 4096 == rgnBase (c.rgnLo k) + b))
  if rgnValid (c.rgnLo k) then (List.range (rgnLen (c.rgnLo k))).filter (fun b => c.isDirty k b || queued b) else []

def Strand.addBlocks (t : Strand) (k base : Nat) : List (Nat × List (Nat × Nat) × Bool) → Strand
  | [] => t
  | (b, segs, cmp) :: rest => (t.addSq (.regBlock k (base + b) segs cmp)).addBlocks k base rest

/-- REGSYNC (R145): one store a dirty block, and each block clean at commit. More blocks than the queue
holds wait for an empty queue. -/
def slotRegsync (y : Syl) (s : State) : Rd Done := do
  let k ← regionNo s y
  let c := s.myCore
  let bs := s.syncBlocks k
  let ps := bs.map (fun b => (c.blockVa k b, 4096))
  let (hs, f) ← xlateRange s .write ps
  needSq s (Nat.min bs.length 32)
  .ok { Done.plain (fun t =>
          let t := f t
          let c := bs.foldl (fun c b => c.setDirty k b false) t.myCore
          let segs := hs.map (fun h => ([(h.1.key, h.2)], leafCmp h.1.entry.leaf))
          (t.setMyCore c).setMe (t.me.addBlocks k (rgnBase (c.rgnLo k)) (bs.zip segs))) with
        sqn := Nat.min bs.length 32, seqn := bs.length }

/-- REGINV (R146): a marker, and every block of the region unfilled. It waits for the fills of the region that
are under way (DEDUCED, log entry 80). -/
def slotReginv (y : Syl) (s : State) : Rd Done := do
  let k ← regionNo s y
  needLq s 1
  needSq s 1
  if s.fillsOf s.curU k then .error .stall
  else .ok { Done.plain (fun t =>
          let c := t.myCore
          let c := if rgnValid (c.rgnLo k) then { c with filled := Table.erase k c.filled, dirty := Table.erase k c.dirty } else c
          (t.setMyCore c).setMe (t.me.addMarker false)) with
        lqn := 1, sqn := 1, seqn := 1 }

end Sys2Proof.Machine
end

