-- ==== Sys2Proof/Machine/Registers.lean ====
section
/-! DEFINITION. The control registers (R69, R138): every register of Tables 3-2, 5-6, 6-1, 8-1, 10-1,
12-2, 13-6, 15-1, 16-6 and 20-3, its read and its write. -/

namespace Sys2Proof.Machine

/-! ### Parts of the words -/

def FSlot.code (f : FSlot) : Nat :=
  match f.state with
  | .empty => 0
  | .filling => 1
  | .full => 2
  | .failed => 3

def Core.slotOf (c : Core) (b : Bool) (k : Nat) : FSlot := Table.get FSlot.reset (if b then c.fifoB else c.fifoA) k

def Core.setSlot (c : Core) (b : Bool) (k : Nat) (f : FSlot) : Core :=
  if b then { c with fifoB := Table.set c.fifoB k f } else { c with fifoA := Table.set c.fifoA k f }

/-- sys.MXSLOT (Table 8-1). -/
def Core.mxslot (c : Core) : W64 :=
  BitVec.ofNat 64 (((List.range 4).map (fun k => (c.slotOf false k).code * 4 ^ k
    + (c.slotOf true k).code * 4 ^ (k + 4))).foldl (· + ·) 0)

/-- Every slot of both FIFOs is EMPTY (R206). -/
def Core.slotsEmpty (c : Core) : Bool :=
  (List.range 4).all (fun k => (c.slotOf false k).state == .empty && (c.slotOf true k).state == .empty)

def countBits {w : Nat} (x : BitVec w) : Nat := ((List.range w).filter (fun i => x.getLsbD i)).length

/-- sys.RGNST (Table 6-1). -/
def Core.rgnst (c : Core) (k : Nat) : W64 :=
  BitVec.ofNat 64 (countBits (Table.get 0 c.filled k) + countBits (Table.get 0 c.dirty k) * 2 ^ 16)

/-- Word n of the selected tensor entry. -/
def Core.tidWord (c : Core) (n : Nat) : W64 :=
  BitVec.ofNat 64 ((Table.get 0 c.tids c.tidsel.toNat).toNat / 2 ^ (64 * n))

/-- Write word n of the selected tensor entry: an entry written holds no error any more (R175). -/
def Core.setTidWord (c : Core) (n : Nat) (v : W64) : Core :=
  let e := (Table.get 0 c.tids c.tidsel.toNat).toNat
  let e' := e - e / 2 ^ (64 * n) % 2 ^ 64 * 2 ^ (64 * n) + v.toNat * 2 ^ (64 * n)
  { c with tids := Table.set c.tids c.tidsel.toNat (BitVec.ofNat 256 e')
           badTids := c.badTids.filter (· != c.tidsel.toNat) }

/-- sys.SGSTAT (Table 10-1). -/
def State.sgstat (s : State) : W64 :=
  match s.myCore.group with
  | none => 0
  | some g =>
    let x := s.groupOf (unitCluster s.curU) g.toNat
    BitVec.ofNat 64 (1 + g.toNat * 2 + x.mask.toNat * 8
      + (x.parked.getLsbD (s.curU.toNat % 16)).toNat * 2 ^ 19 + x.holdSince.isSome.toNat * 2 ^ 20)

/-- sys.CSEQ (Table 15-1). -/
def State.cseq (s : State) : W64 :=
  let c := s.me.circctx
  if c.getLsbD 3 then 0
  else
    let q := Table.get Seq.reset s.seqs (field c 2 0)
    BitVec.ofNat 64 (q.applied.toNat + q.status.toNat * 2 ^ 48)

/-- A lane of engine e (R382). -/
def Fabric.lane (f : Fabric) (e l : Nat) : Lane := Table.get Lane.reset f.lanes (e * 64 + l)
def Fabric.setLane (f : Fabric) (e l : Nat) (x : Lane) : Fabric := { f with lanes := Table.set f.lanes (e * 64 + l) x }

/-- sys.FPORTST (Table 20-3). -/
def State.fportst (s : State) : W64 :=
  let p := field s.myCore.fportsel 3 0
  let f := s.fabric
  let lanes := ((List.range 64).filter (fun l => (f.lane (p / 4) l).port == some p)).length
  BitVec.ofNat 64 (field (Table.get 0 f.pcfg p) 1 0 + (Table.get false f.portUp p).toNat * 4 + lanes * 8
    + (Table.get 0 f.depth p).toNat * 2 ^ 10)

/-- The delivery context that sys.UECSEL names, where the strand's partition may read it (R396). -/
def State.uecCtx (s : State) : Option Pdc :=
  let sel := s.myCore.uecsel
  let x := Table.get Pdc.reset s.fabric.pdcs (field sel 17 14 / 4 * 16384 + field sel 13 0)
  if x.valid && x.part == s.myPart then some x else none

/-- sys.MIGCNT (Table 12-2). -/
def Homes.migcnt (h : Homes) : W64 :=
  h.migother ++ h.migaborts ++ h.migholds ++ h.migcommits

/-- sys.ILVCFG (Table 12-2). -/
def Homes.ilvcfg (h : Homes) : W64 :=
  BitVec.ofNat 64 ((h.present.map (2 ^ ·)).foldl (· + ·) 0 + h.emax % 128 * 2 ^ 8 + h.ifr % 2 ^ 32 * 2 ^ 16)

/-- sys.OPTCNT (Table 15-1). -/
def Optics.cnt (o : Optics) : W64 := o.resent ++ o.late ++ o.ring ++ o.laser

def regionReg (n : Nat) : Bool := 0x100 ≤ n && n < 0x140

/-! ### Reading (RDSR) -/

/-- Every earlier atomic of a strand has performed (R134): none is queued, posted ones included, and none is on
its way to another module. -/
def State.atomicsDone (s : State) (u : UnitNo) (k : StrandNo) : Bool :=
  let t := s.strand u k
  !(t.lq.any (fun q => match q.kind with
    | .atomic => true
    | _ => false))
  && !(t.sq.any (fun q => match q.kind with
    | .posted _ _ => true
    | _ => false))
  && !s.fabric.reqs.any (fun r => r.posted && r.owner == some (u.toNat, k.toNat))

/-- CR[n] as the acting strand reads it. -/
def readCR (s : State) (n : Nat) : Rd W64 :=
  let t := s.me
  let c := s.myCore
  let cl := s.cluster (unitCluster s.curU)
  let noCirc := t.circctx.getLsbD 3
  match n with
  | 0x000 => .ok (s.statWord s.curU s.curK)
  | 0x001 => .ok (BitVec.ofNat 64 (t.rm.toNat + t.ftz.toNat * 8))
  | 0x002 => .ok t.srkey
  | 0x003 => .ok (t.srctr.setWidth 64)
  | 0x004 => .ok t.tvec
  | 0x005 => .ok t.tfbase
  | 0x006 => .ok (t.lcnt0.setWidth 64)
  | 0x007 => .ok t.lbeg0
  | 0x008 => .ok t.lend0
  | 0x009 => .ok (t.lcnt1.setWidth 64)
  | 0x00A => .ok t.lbeg1
  | 0x00B => .ok t.lend1
  | 0x00C => .ok (BitVec.ofNat 64 (t.repn.toNat + t.repi.toNat * 2 ^ 16))
  | 0x00D => .ok (BitVec.ofNat 64 (t.runs.toNat + t.deferrals.toNat * 2 ^ 32 + t.keeps.toNat * 2 ^ 48))
  | 0x00E => .ok c.cycle
  | 0x010 => if s.atomicsDone s.curU s.curK then .ok (BitVec.ofNat 64 (t.atFwd.toNat + t.atSite.toNat * 2)) else .error .stall
  | 0x011 => .ok t.wid
  | 0x012 => .ok t.widfmt
  | 0x013 => .ok s.ptime
  | 0x014 => .ok (t.vwin.setWidth 64)
  | 0x015 => .ok t.promise
  | 0x020 => .ok c.cmdarea
  | 0x021 => .ok (c.tidsel.setWidth 64)
  | 0x022 => .ok (c.tidWord 0)
  | 0x023 => .ok (c.tidWord 1)
  | 0x024 => .ok (c.tidWord 2)
  | 0x025 => .ok (c.tidWord 3)
  | 0x026 => .ok c.mxpos
  | 0x027 => .ok c.mxslot
  | 0x030 => .ok (cl.slcfg.setWidth 64)
  | 0x031 => .ok (BitVec.ofNat 64 (cl.pin.toNat + cl.chg.toNat * 32))
  | 0x032 => .ok s.sgstat
  | 0x033 => .ok (cl.sghold.setWidth 64)
  | 0x034 => .ok (cl.pairto.setWidth 64)
  | 0x040 => .ok s.homes.ilvcfg
  | 0x041 => .ok (c.ilvsel.setWidth 64)
  | 0x042 => .ok (BitVec.ofNat 64 (s.homes.ilvEntry c.ilvsel.toNat))
  | 0x043 => .ok (BitVec.ofNat 64 (s.partOf s.myPart).hinten.toNat)
  | 0x044 => .ok s.homes.migcnt
  | 0x045 => .ok s.homes.migrel
  | 0x060 => .ok (s.partOf s.myPart).xroot
  | 0x061 => .ok t.pkr
  | 0x062 => .ok s.myIvtl
  | 0x063 => .ok t.ivnx
  | 0x070 => .ok 48
  | 0x071 => .ok (if noCirc then 8 else t.circctx)
  | 0x072 => .ok (if noCirc then 0 else t.cstep)
  | 0x073 => .ok (if noCirc then 0 else t.corig)
  | 0x074 => .ok s.cseq
  | 0x075 => .ok s.optics.cnt
  | 0x076 => .ok s.optics.bad0
  | 0x077 => .ok (s.optics.bad1.setWidth 64)
  | 0x080 => .ok t.larg
  | 0x081 => .ok t.linfo
  | 0x090 => .ok c.fportsel
  | 0x091 => .ok s.fportst
  | 0x092 => .ok t.pathrec
  | 0x093 => .ok c.uecsel
  | 0x094 => .ok (match s.uecCtx with
      | some x => BitVec.ofNat 64 (x.wnd.toNat + x.inflight.toNat * 2 ^ 32)
      | none => 0)
  | 0x095 => .ok (match s.uecCtx with
      | some x => BitVec.ofNat 64 (x.rtt.toNat + x.base.toNat * 2 ^ 32)
      | none => 0)
  | 0x096 => .ok (match s.uecCtx with
      | some x => BitVec.ofNat 64 (x.ecn.toNat + x.trimmed.toNat * 2 ^ 16 + x.retrans.toNat * 2 ^ 32 + 2 ^ 48)
      | none => 0)
  | n =>
    if 0x046 ≤ n && n ≤ 0x04F then .ok (Table.get 0 s.homes.migpool (n - 0x046))
    else if 0x050 ≤ n && n ≤ 0x054 then
      .ok ((Table.get (Table.get 0 s.homes.abud (n - 0x050)) s.homes.abudNext (n - 0x050)).setWidth 64)
    else if 0x058 ≤ n && n ≤ 0x05C then
      .ok (BitVec.ofNat 64 (s.homes.busiest (n - 0x058)
        + (Table.get 0 s.homes.about (n - 0x058)).toNat * 2 ^ 32))
    else if regionReg n then
      .ok (if n % 2 = 0 then c.rgnLo ((n - 0x100) / 2) else c.rgnHi ((n - 0x100) / 2))
    else if 0x140 ≤ n && n < 0x160 then .ok (c.rgnst (n - 0x140))
    else illegalOperand

/-! ### Writing (WRSR) -/

/-- The ranges [a, a + m) and [b, b + n) meet. -/
def meets (a m b n : Nat) : Bool := a < b + n && b < a + m

/-- First block and number of blocks of the command area. -/
def Core.areaBase (c : Core) : Nat := field c.cmdarea 8 0
def Core.areaSize (c : Core) : Nat := field c.cmdarea 40 32 + 1

/-- sys.CMDAREA (R148). -/
def cmdareaOk (c : Core) (v : W64) : Bool :=
  let b := field v 8 0
  let n := field v 40 32 + 1
  b + n ≤ 512 && (List.range 32).all (fun k =>
    let lo := c.rgnLo k
    !(rgnValid lo && meets b n (rgnBase lo) (rgnLen lo)))

/-- sys.RGNLO of entry k (R149). A fill under way is no filled block: a write of V = 0 commits, and the fill ends later
(DESIGN CHOICE, log entry 103). -/
def rgnloOk (c : Core) (k : Nat) (v : W64) : Bool :=
  if !rgnValid v then Table.get 0 c.filled k == 0
  else
    let b := rgnBase v
    let n := rgnLen v
    b + n ≤ 512 && !meets b n c.areaBase c.areaSize && (List.range 32).all (fun j =>
      let lo := c.rgnLo j
      j == k || !(rgnValid lo && meets b n (rgnBase lo) (rgnLen lo)))

def cmdareaMask : W64 := 0x000001FF000001FF
def rgnloMask : W64 := 0x000001FF001FF003
/-- The fields of TIDW0; its other bits are reserved (Table 6-3, R4). -/
def tidMask : W64 := 0x0000FFFFFFFFFF3F
def rgnhiMask : W64 := 0x01FFFFFFFFFFF000
def stackMask : W64 := 0x000FFFFFFFFFF3FF
def rootMask : W64 := 0x000FFFFFFFFFF000

/-- The change that CR[n] ← v makes at commit. -/
def writeCR (s : State) (n : Nat) (v : W64) : Rd (State → State) :=
  let c := s.myCore
  let mine (f : Strand → Strand) : Rd (State → State) := .ok (fun t => t.setMe (f t.me))
  let core (f : Core → Core) : Rd (State → State) := .ok (fun t => t.setMyCore (f t.myCore))
  let sup (ok : Bool) (f : State → State) : Rd (State → State) := if s.sup && ok then .ok f else illegalOperand
  let cl (f : Cluster → Cluster) (t : State) : State :=
    t.setCluster (unitCluster t.curU) (f (t.cluster (unitCluster t.curU)))
  match n with
  | 0x000 => mine (fun t => { t with td := v.getLsbD 15 })
  | 0x001 => mine (fun t => { t with rm := if field v 2 0 ≤ 4 then v.setWidth 3 else t.rm, ftz := v.getLsbD 3 })
  | 0x002 => mine (fun t => { t with srkey := v })
  | 0x003 => mine (fun t => { t with srctr := v.setWidth 32 })
  | 0x004 => mine (fun t => { t with tvec := v &&& ~~~3 })
  | 0x005 => mine (fun t => { t with tfbase := v &&& 0x1FFF00 })
  | 0x006 => mine (fun t => { t with lcnt0 := v.setWidth 32 })
  | 0x007 => mine (fun t => { t with lbeg0 := v &&& ~~~3 })
  | 0x008 => mine (fun t => { t with lend0 := v &&& ~~~3 })
  | 0x009 => mine (fun t => { t with lcnt1 := v.setWidth 32 })
  | 0x00A => mine (fun t => { t with lbeg1 := v &&& ~~~3 })
  | 0x00B => mine (fun t => { t with lend1 := v &&& ~~~3 })
  | 0x00C =>
    if v ≠ 0 then illegalOperand
    else if s.me.repn = 0 then .ok id
    else mine (fun t => { t with repn := 0, repi := 0 })
  | 0x020 => if cmdareaOk c v then core (fun c => { c with cmdarea := v &&& cmdareaMask }) else illegalOperand
  | 0x021 => core (fun c => { c with tidsel := v.setWidth 6 })
  | 0x022 => core (·.setTidWord 0 (v &&& tidMask))
  | 0x023 => core (·.setTidWord 1 v)
  | 0x024 => core (·.setTidWord 2 v)
  | 0x025 => core (·.setTidWord 3 v)
  | 0x026 => if c.slotsEmpty then core (fun c => { c with mxpos := v }) else illegalOperand
  | 0x030 => sup (field v 4 0 ≤ 16) (cl (fun x => { x with slcfg := v.setWidth 5, chg := true }))
  | 0x033 => sup true (cl (fun x => { x with sghold := v.setWidth 32 }))
  | 0x034 => sup (field v 31 0 ≠ 0) (cl (fun x => { x with pairto := v.setWidth 32 }))
  | 0x041 => core (fun c => { c with ilvsel := v.setWidth 9 })
  | 0x043 => sup true (fun t => t.setPart t.myPart { t.partOf t.myPart with hinten := v.getLsbD 0 })
  | 0x045 => sup (field v 9 0 ≤ 512) (fun t => { t with homes := { t.homes with migrel := v &&& stackMask } })
  | 0x060 => sup true (fun t => t.setPart t.myPart { t.partOf t.myPart with xroot := v &&& rootMask })
  | 0x090 => if v.toNat ≤ 15 then core (fun c => { c with fportsel := v }) else illegalOperand
  | 0x093 => if v.toNat ≤ 0x3FFFF then core (fun c => { c with uecsel := v }) else illegalOperand
  | n =>
    if 0x046 ≤ n && n ≤ 0x04F then
      sup (field v 9 0 ≤ 512) (fun t =>
        { t with homes := { t.homes with migpool := Table.set t.homes.migpool (n - 0x046) (v &&& stackMask) } })
    else if 0x050 ≤ n && n ≤ 0x054 then
      sup (field v 16 0 ≤ 100000) (fun t =>
        { t with homes := { t.homes with abudNext := Table.set t.homes.abudNext (n - 0x050) (v.setWidth 17) } })
    else if regionReg n then
      let k := (n - 0x100) / 2
      if n % 2 = 0 then
        if rgnloOk c k v then
          core (fun c => { c with rgnlo := Table.set c.rgnlo k (v &&& rgnloMask), badRgns := c.badRgns.filter (· != k) })
        else illegalOperand
      else if rgnValid (c.rgnLo k) then illegalOperand
      else core (fun c => { c with rgnhi := Table.set c.rgnhi k (v &&& rgnhiMask), badRgns := c.badRgns.filter (· != k) })
    else illegalOperand

end Sys2Proof.Machine
end

