-- ==== Sys2Proof/Machine/System.lean ====
section
/-! DEFINITION. The system instructions of slot M: TRAP, RETT, time, control registers, the work
identifier, LOCQ and SLEEPTO (R135 to R143), and the window (R157). -/

namespace Sys2Proof.Machine

/-- TRAP: SOFTWARE-TRAP with the code in FINFO (R136). -/
def slotTrap (y : Syl) (_ : State) : Rd Done :=
  .error (.trap causeSoftwareTrap 0 (if isX y then y.lit.setWidth 64 else 0))

/-- RETT (R137): the frame is read once the strand's stores to scratchpad are visible; a misaligned TPC
traps, which is a DOUBLE-TRAP (R85). -/
def slotRett (_ : Syl) (s : State) : Rd Done := do
  let t := s.me
  needOp t.td
  if t.localStores then .error .stall
  else
    let base := field t.tfbase 20 8 * 256
    let tpc := leNat ((List.range 8).map (fun j => s.readByte (spadKey s.curU.toNat (base + j))))
    if tpc % 4 ≠ 0 then .error (.trap causeMisalignedTarget 0 0)
    else do
      needLq s 1
      needSq s 1
      .ok { Done.plain (fun t => t.setMe (t.me.addMarker false)) with ret := true, lqn := 1, sqn := 1, seqn := 1 }

def slotRdtime (y : Syl) (s : State) : Rd Done := putA s y s.ptime
def slotRdcyc (y : Syl) (s : State) : Rd Done := putA s y s.myCore.cycle

/-- The register number of an access: LIT, or Src2 with bits [31:12] zero (R135). -/
def crNumber (s : State) (y : Syl) : Rd Nat :=
  if isX y then .ok y.lit.toNat
  else do
    let v ← readW s y.s2
    needOp (v.toNat < 4096)
    .ok v.toNat

def slotRdsr (y : Syl) (s : State) : Rd Done := do
  let n ← crNumber s y
  let v ← readCR s n
  putA s y v

def slotWrsr (y : Syl) (s : State) : Rd Done := do
  let n ← crNumber s y
  let v ← readA s y.s1
  let f ← writeCR s n v
  .ok (Done.plain f)

def slotRdwid (y : Syl) (s : State) : Rd Done := putA s y s.me.wid

/-- Width and level of field k of the work identifier (Table 5-6). -/
def widWidth (fmt : W64) (k : Nat) : Nat := field fmt (9 * k + 5) (9 * k) + 1
def widCode (fmt : W64) (k : Nat) : Nat := field fmt (9 * k + 8) (9 * k)

/-- The value of field k (R140). -/
def widField (wid fmt : W64) (k : Nat) : Nat :=
  let off := ((List.range k).map (widWidth fmt)).foldl (· + ·) 0
  wid.toNat / 2 ^ off % 2 ^ widWidth fmt k

/-- The field index of RDWF and RDWFL: LIT, or Src2 up to 5, and below the number of fields. -/
def widIndex (s : State) (y : Syl) : Rd Nat := do
  let k ← if isX y then .ok y.lit.toNat
    else do
      let v ← readW s y.s2
      .ok v.toNat
  needOp (k ≤ 5 && k < field s.me.widfmt 56 54)
  .ok k

def slotRdwf (y : Syl) (s : State) : Rd Done := do
  let k ← widIndex s y
  putA s y (BitVec.ofNat 64 (widField s.me.wid s.me.widfmt k))

def slotRdwfl (y : Syl) (s : State) : Rd Done := do
  let k ← widIndex s y
  putW s y (BitVec.ofNat 32 (widCode s.me.widfmt k))

/-! ### LOCQ (R141) -/

/-- The leaf's history holds it: the older of its last two commits is less than 1 ms old (R278). -/
def State.leafHeld (s : State) (key : Nat) : Bool :=
  match s.homes.history.find? (fun h => h.1 == key) with
  | some (_, _, some older) => s.ptime.toNat - older.toNat < 1000000
  | _ => false

/-- The code of a page size in Table 5-7. -/
def pszCode (n : Nat) : Nat :=
  if n = 2 ^ 12 then 0 else if n = 2 ^ 16 then 1 else if n = 2 ^ 21 then 2 else if n = 2 ^ 25 then 3 else 4

/-- The die of a place, as translation counts dies: 10 for the I/O die. -/
def placeDie : Place → Nat
  | .die d => d
  | .far d => 8 + d
  | .spad u => unitDirDie u
  | .pinned c => c / 4
  | _ => 10

/-- DIST of Table 5-7, the nearest that applies. -/
def distCode (u : UnitNo) (p : Place) : Nat :=
  let sameCluster := match p with
    | .spad v => v < 512 && u.toNat < 512 && v / 16 == u.toNat / 16
    | .pinned c => u.toNat < 512 && c == u.toNat / 16
    | _ => false
  match p with
  | .host => 5
  | .aperture => 5
  | .module _ => 6
  | p =>
    if p == .spad u.toNat then 0
    else if sameCluster then 1
    else if placeDie p = dirDie u then 2
    else if placeDie p = 8 || placeDie p = 9 then 4
    else 3

/-- CLUS, CORE and DIE of Table 5-7. -/
def placeParts : Place → Nat × Nat × Nat
  | .pinned c => (c % 4, 0, c / 4)
  | .spad u => if u < 512 then (u / 16 % 4, u % 16, u / 64) else ((0 : Nat), unitCoreNo (BitVec.ofNat 10 u), 0)
  | _ => (0, 0, 0)

/-- The locality word of Table 5-7. -/
def State.localityWord (s : State) (ea : W64) : W64 :=
  match (s.translate s.who ea .read .quiet).1 with
  | .error _ => BitVec.ofNat 64 (3 * 2 ^ 2 + 7 * 2 ^ 16)
  | .ok h =>
    let e := h.entry
    let p := placeOf (s.liveKey h.key)
    let held := match s.tableKey e.entry with
      | some k => s.leafHeld k
      | none => false
    let (clus, core, die) := placeParts p
    let mdl := match p with
      | .module m => m
      | _ => 0
    BitVec.ofNat 64 (1 + held.toNat * 2 + leafHome e.leaf * 2 ^ 2 + p.code.toNat * 2 ^ 4 + clus * 2 ^ 8
      + core * 2 ^ 12 + pszCode e.size * 2 ^ 16 + (leafCmp e.leaf).toNat * 2 ^ 19
      + distCode s.curU p * 2 ^ 20 + die * 2 ^ 23 + mdl * 2 ^ 32)

/-- The home agents of the table pages that a walk of ea reads. -/
def State.walkHomes (s : State) (part : Nat) (ea : W64) : List Nat := ((s.pagesOf part ea).map homeAgent).eraseDups

/-- LOCQ. Its walk is charged to activity 3, and waits while its budget is spent at a home it reads (R283), or for an
eviction (R297). An operand that names an invalid latch traps (R41, R141; DESIGN CHOICE, log entry 84). -/
def slotLocq (y : Syl) (s : State) : Rd Done := do
  let ea ← effAddrPlain s y
  let walks := (s.tlbFind s.who ea).isNone
  let homes := s.walkHomes s.myPart ea
  if walks && (s.homes.spent 3 homes || s.walkWaits s.myPart ea) then .error .stall
  else do
    let d ← putA s y (s.localityWord ea)
    let w := s.who
    .ok { d with apply := fun t => if walks then ((d.apply t).translate w ea .read .quiet).2.spend 3 homes else d.apply t }

/-! ### SLEEPTO (R143, R169) -/

/-- The time is reached, else the strand blocks. -/
def sleepUntil (s : State) (t : W64) : Rd Unit :=
  if s.myCore.cycle.toNat < t.toNat then .error (.block (.cycle t)) else .ok ()

def slotSleepto (y : Syl) (s : State) : Rd Done := do
  let t ← readA s y.s1
  sleepUntil s t
  .ok (Done.plain id)

/-- The promise check on copy engine e (1 or 2): the timeline has reached n, or PROMISE-MISSED. -/
def sleepPromise (y : Syl) (s : State) (e : Nat) : Rd Done := do
  let t ← readA s y.s1
  let n ← readA s y.s2
  sleepUntil s t
  if n.toNat ≤ (s.myCore.tlSeen (queueNo s.curK e)).toNat then .ok (Done.plain id)
  else .error (.trap causePromiseMissed 0 (BitVec.ofNat 64 (n.toNat % 2 ^ 60 + (e - 1) * 2 ^ 60)))

def slotSleeptoCp0 (y : Syl) (s : State) : Rd Done := sleepPromise y s 1
def slotSleeptoCp1 (y : Syl) (s : State) : Rd Done := sleepPromise y s 2

/-! ### VWIN (R157) -/

def setWindow (n : BitVec 3) : Rd Done := .ok (Done.plain (fun t => t.setMe { t.me with vwin := n }))

def slotVwin (y : Syl) (_ : State) : Rd Done := setWindow (BitVec.ofNat 3 (fieldNo y.s1))

def slotVwinReg (y : Syl) (s : State) : Rd Done := do
  let v ← src2W s y
  needOp (v.toNat < 8)
  setWindow (v.setWidth 3)

end Sys2Proof.Machine
end

