-- ==== Sys2Proof/Machine/Barriers.lean ====
section
/-! DEFINITION. The barrier instructions (R170 to R172), tile status reads (R158, R159) and the
timeline instructions (R167). -/

namespace Sys2Proof.Machine

/-! ### Barriers -/

/-- The specifier of R172: LIT, or Src2 with its reserved bits zero. -/
def barSpec (s : State) (y : Syl) (reserved : Nat) : Rd W32 :=
  if isX y then .ok y.lit
  else do
    let v ← src2W s y
    needOp (v.toNat &&& reserved = 0)
    .ok v

def barId (v : W32) : Nat := field v 8 0
def barPhase (v : W32) : Bool := v.getLsbD 9

/-- BINIT enters the store queue (R171). -/
def slotBinit (y : Syl) (s : State) : Rd Done := do
  let v ← barSpec s y 0xFE00
  needOp (field v 31 16 ≠ 0)
  needSq s 1
  .ok (Done.enters (fun t => t.setMe (t.me.addSq (.binit (barId v) (field v 31 16)))))

/-- The unit that a BARR arrives at: this core, or with RMT a core of its cluster. A unit of no cluster
has none: the number 1023 names no unit. -/
def barrUnit (u : UnitNo) (v : W32) : Nat :=
  if !v.getLsbD 20 then u.toNat
  else if u.toNat < 512 then u.toNat / 16 * 16 + field v 19 16
  else 1023

def slotBarr (y : Syl) (s : State) : Rd Done := do
  let v ← barSpec s y 0xE0FE00
  needSq s 1
  .ok (Done.enters (fun t => t.setMe (t.me.addSq (.barr (barrUnit s.curU v) (barId v) (field v 31 24 + 1)))))

def slotBwait (y : Syl) (s : State) : Rd Done := do
  let v ← barSpec s y 0xFFFFFC00
  if (s.myCore.barSeen (barId v)).phaseDone (barPhase v) then .ok (Done.plain id)
  else .error (.block (.barrier (barId v) (barPhase v)))

def slotBtest (y : Syl) (s : State) : Rd Done := do
  let v ← barSpec s y 0xFFFFFC00
  putP y ((s.myCore.barSeen (barId v)).phaseDone (barPhase v))

def slotBrd (y : Syl) (s : State) : Rd Done := do
  let v ← barSpec s y 0xFFFFFC00
  let b := s.myCore.barSeen (barId v)
  putW s y (BitVec.ofNat 32 (b.arrived.toNat + b.phn.toNat % 2 ^ 16 * 2 ^ 16))

/-! ### Tile status -/

def TileStat.reset : TileStat := ⟨false, false, 0⟩

def Core.tileStat (c : Core) (t : Nat) : TileStat := Table.get TileStat.reset c.tstat t

/-- A drain reaches the status register 12 cc after it completed (R158). The cycle count wraps. -/
def StatEvent.due (e : StatEvent) (now : W64) : Bool := 12 ≤ (now - e.cc).toNat

/-- The status registers as a read at the core's present cycle finds them. -/
def Core.reflect (c : Core) : Core :=
  let put (c : Core) (e : StatEvent) : Core :=
    let x := c.tileStat e.tile
    { c with tstat := Table.set c.tstat e.tile ⟨x.nan || e.nan, x.ovf || e.ovf, x.dcnt + 1⟩ }
  let c' := (c.statEv.filter (·.due c.cycle)).foldl put c
  { c' with statEv := c.statEv.filter (fun e => !e.due c.cycle) }

def TileStat.word (x : TileStat) : W32 :=
  BitVec.ofNat 32 (x.nan.toNat + x.ovf.toNat * 2 + x.dcnt.toNat * 2 ^ 16)

/-- STATRD to a w register, or its bit 0 to a predicate (FORM 9). -/
def slotStatrd (y : Syl) (s : State) : Rd Done :=
  let x := s.myCore.reflect.tileStat (fieldNo y.s1)
  if y.form = 9 then putP y x.nan else putW s y x.word

def slotStatrdc (y : Syl) (s : State) : Rd Done := do
  let k := fieldNo y.s1
  let d ← putW s y (s.myCore.reflect.tileStat k).word
  .ok { d with apply := fun t =>
          let t := d.apply t
          let c := t.myCore.reflect
          let x := c.tileStat k
          t.setMyCore { c with tstat := Table.set c.tstat k ⟨false, false, x.dcnt⟩ } }

/-! ### Timelines -/

/-- The queue a specifier names (R167): LIT or Src2. -/
def queueSpec (s : State) (y : Syl) : Rd Nat := do
  let v ← src2W s y
  needOp (v.toNat < 64 && !(v.getLsbD 5 && field v 4 2 ≠ 0))
  .ok (if v.getLsbD 5 then queueNo s.curK (field v 1 0) else field v 4 0)

def slotTlrd (y : Syl) (s : State) : Rd Done := do
  let q ← queueSpec s y
  putA s y (s.myCore.tlSeen q)

/-- TLWAIT blocks until TL(q) ≥ Src1 (R167); the acquire of R163 holds because a command's writes are in
memory before its TL rises. -/
def slotTlwait (y : Syl) (s : State) : Rd Done := do
  let q ← queueSpec s y
  let n ← readA s y.s1
  if n.toNat ≤ (s.myCore.tlSeen q).toNat then .ok (Done.plain id)
  else .error (.block (.timeline q n))

def slotTlflt (y : Syl) (s : State) : Rd Done := do
  let q ← queueSpec s y
  putA s y (s.myCore.queue q).fault

/-- Clearing FAULT releases a held SEND (R337) and, of the queue of a PACC that failed or was skipped, the pair
buffer kept for it (R265). -/
def Core.clearFault (c : Core) (q : Nat) : Core :=
  let x := c.queue q
  let c := c.setQueue q { x with fault := 0, circHeld := false }
  if c.pair.keptFor.contains q then { c with pair := { c.pair with buf := none, bad := false, keptFor := [] } }
  else c

def slotTlfltc (y : Syl) (s : State) : Rd Done := do
  let q ← queueSpec s y
  needOp (q / 4 = s.curK.toNat)
  let d ← putA s y (s.myCore.queue q).fault
  .ok { d with apply := fun t =>
          let t := d.apply t
          t.setMyCore (t.myCore.clearFault q) }

end Sys2Proof.Machine
end

