-- ==== Sys2Proof/Machine/Enqueue.lean ====
section
/-! DEFINITION. ENQ and ENQP (R164, R166, R220, R223). -/

namespace Sys2Proof.Machine

def badCommand {α : Type} : Rd α := .error (.trap causeBadCommand 0 0)

/-- A command address: 32-byte aligned and inside sys.CMDAREA (R164). -/
def Core.cmdAddrOk (c : Core) (a : W64) : Bool :=
  a.toNat % 32 == 0 && c.areaBase * 4096 ≤ a.toNat && a.toNat + 32 ≤ (c.areaBase + c.areaSize) * 4096

/-- The 32 bytes at a, read as a load of the acting strand would (R81.5). -/
def readCommand (s : State) (a : Nat) : Rd CmdWord :=
  let t := s.me
  let key := spadKey s.curU.toNat a
  let keys := (List.range 32).map (key + ·)
  if s.postedOlder t (t.seq + 1) .loc [(key, 32)] then .error .stall
  else if keys.any (fun k => (s.forward s.curU t (t.seq + 1) .loc k).isNone && s.poisoned k) then
    .error (.trap causePoison (BitVec.ofNat 64 a) t.pc)
  else .ok (BitVec.ofNat 256 (leNat (keys.map (fun k =>
    match s.forward s.curU t (t.seq + 1) .loc k with
    | some b => b
    | none => s.readByte k))))

/-- Write word j of a command: 1 or 2 words of 32 bits (R166). -/
def patchWord (w : CmdWord) (j words v : Nat) : CmdWord :=
  let n := 32 * words
  BitVec.ofNat 256 (w.toNat - w.toNat / 2 ^ (32 * j) % 2 ^ n * 2 ^ (32 * j) + v % 2 ^ n * 2 ^ (32 * j))

/-- A patch of ENQP: enabled, wide, its index and register. -/
def applyPatch (s : State) (w : CmdWord) (on wide : Bool) (j : Nat) (f : Src) : Rd CmdWord :=
  if !on then .ok w
  else if wide then do
    let v ← readA s f
    .ok (patchWord w j 2 v.toNat)
  else do
    let v ← readW s f
    .ok (patchWord w j 1 v.toNat)

/-- The RM field of a command word replaced. -/
def setCmdRm (w : CmdWord) (rm : BitVec 3) : CmdWord :=
  BitVec.ofNat 256 (w.toNat - field w 10 8 * 2 ^ 8 + rm.toNat * 2 ^ 8)

/-- A command with its rounding mode resolved (R16). -/
def resolveRm (s : State) (w : CmdWord) : CmdWord :=
  if field w 10 8 = 7 then setCmdRm w s.me.rm else w

def takesCounter (w : CmdWord) : Bool := field w 10 8 == 4

/-! ### Promises (R168, R223) -/

/-- The bytes of a COPY. -/
def copyBytes (pay : BitVec 128) : Nat := 32 * (64 * field pay 63 58 + field pay 127 122 + 1)

/-- The promised time of a command enqueued now on queue q; all ones where it has none. -/
def promiseOf (cycle : W64) (q : Queue) (w : CmdWord) : W64 :=
  let c := parseCmd w
  if cmdOp w ≠ 0x10 || c.awk ≠ 0 || q.entries.any (fun e => e.promise == BitVec.allOnes 64) then BitVec.allOnes 64
  else
    let tp := match q.entries.getLast? with
      | some e => e.promise.toNat
      | none => 0
    let local_ := bit c.pay 57 && bit c.pay 121
    let bytes := copyBytes c.pay
    let cost := if local_ then 32 + (bytes + 127) / 128 else 2048 + (bytes + 31) / 32
    BitVec.ofNat 64 (Nat.max cycle.toNat tp + cost)

/-! ### Enqueueing -/

/-- The follow-on word of a FEEDM (R220), checked. -/
def followOn (s : State) (w : CmdWord) : Rd CmdWord := do
  let a := field (parseCmd w).pay 103 88 * 32
  if !s.myCore.cmdAddrOk (BitVec.ofNat 64 a) then badCommand
  else do
    let f ← readCommand s a
    let op := cmdOp f
    if (frameOk 0 f).isSome || !(op ≤ 0x05) || (parseCmd f).awk ≠ 0 then badCommand
    else .ok (resolveRm s f)

/-- Put a word at the tail of queue q. -/
def State.pushCommand (s : State) (q : Nat) (w : CmdWord) (key : W64) (ctr : W32) (seq : Nat)
    (pend : Option (Nat × W64)) (promise : W64) : State :=
  let c := s.myCore
  let x := c.queue q
  let t := s.me
  let e : QEntry := { num := x.nx + 1, word := w, key := key, ctr := ctr, sup := s.sup, pkr := t.pkr, seq := seq
                      pend := pend, failed := false, promise := promise, bad := false }
  let x := { x with entries := x.entries ++ [e], nx := x.nx + 1, tail := x.tail + 1
                    lastOp := BitVec.ofNat 8 (cmdOp w) }
  (s.setMyCore (c.setQueue q x)).setMe { t with used := Table.set t.used q x.nx }

/-- Enqueue word w on engine e: the checks of R57 and R397, the wait for room, and the commit of R164. -/
def enqueue (y : Syl) (s : State) (cx : Ctx) (e : Nat) (a : W64) (w : CmdWord) : Rd Done := do
  let c := s.myCore
  if !c.cmdAddrOk a || (frameOk e w).isSome || (e = 0 && unitClass s.curU ≠ 0) then badCommand
  else do
    let q := queueNo s.curK e
    let feedm := cmdOp w = 0x12
    let f ← if feedm then followOn s w else .ok 0
    if feedm && unitClass s.curU ≠ 0 then badCommand
    else if feedm && ((c.queue q).full || (c.queue (queueNo s.curK 0)).full) then
      .error (.block (.queuesFull q (queueNo s.curK 0)))
    else if (c.queue q).full then .error (.block (.queueFull q))
    else do
      let x := c.queue q
      let w := resolveRm s w
      let d ← putA s y (x.nx + 1)
      let key := s.me.srkey
      let ctr := s.me.srctr + BitVec.ofNat 32 cx.ctr
      let seq := s.me.seq
      let promise := promiseOf c.cycle x w
      .ok { d with
            ctr := takesCounter w || (feedm && takesCounter f)
            apply := fun t =>
              let t := d.apply t
              let t := t.setMe { t.me with promise := promise }
              let t := t.pushCommand q w key ctr seq none promise
              if feedm then t.pushCommand (queueNo t.curK 0) f key ctr seq (some (q, x.nx + 1)) (BitVec.allOnes 64)
              else t }

/-- ENQ: the word at LIT or Src1 (R164). -/
def slotEnq (y : Syl) (s : State) (cx : Ctx) : Rd Done := do
  let a ← if isX y then .ok (y.lit.setWidth 64) else readA s y.s1
  if !s.myCore.cmdAddrOk a then badCommand
  else do
    let w ← readCommand s a.toNat
    enqueue y s cx (field y.form 1 0) a w

/-- ENQP: the word at LIT[20:5] * 32 with up to two patches, the second over the first (R166). -/
def slotEnqp (y : Syl) (s : State) (cx : Ctx) : Rd Done := do
  let l := y.lit
  let a := BitVec.ofNat 64 (field l 20 5 * 32)
  if !s.myCore.cmdAddrOk a then badCommand
  else do
    let w ← readCommand s a.toNat
    let w ← applyPatch s w (bit l 29) (bit l 24) (field l 23 21) y.s2
    let w ← applyPatch s w (bit l 30) (bit l 28) (field l 27 25) y.s3
    enqueue y s cx (field y.form 1 0) a w

end Sys2Proof.Machine
end

