-- ==== Sys2Proof/Machine/Groups.lean ====
section
/-! DEFINITION. The group instructions (R256 to R261). A join's SGRP and a rendezvous's SGSYNC complete
when the group has started, or unparked: the masks `done` and `synced` of the group say for whom. -/

namespace Sys2Proof.Machine

/-- The acting core's bit in a member mask. -/
def State.myBit (s : State) : Nat := s.curU.toNat % 16

/-- The group specifier: LIT, or Src2 with bits [31:18] zero (R259). -/
def groupSpec (s : State) (y : Syl) : Rd W32 :=
  if isX y then .ok y.lit
  else do
    let v ← src2W s y
    needOp (v.toNat < 2 ^ 18)
    .ok v

/-- Every core of a mask is present in the acting core's cluster; a unit that is no compute core has no
cluster. -/
def State.maskPresent (s : State) (mask : BitVec 16) : Bool :=
  s.curU.toNat < 512 && (List.range 16).all (fun i => !mask.getLsbD i || s.unitPresent (s.curU.toNat / 16 * 16 + i))

/-- The executing core has joined some group of its cluster (R256). -/
def State.hasJoined (s : State) : Bool :=
  (s.cluster (unitCluster s.curU)).groups.any (fun (p : Nat × Group) => p.2.joined.getLsbD s.myBit)

/-- SGRP (R260): the join, and once the group has started its completion. A join of an active slot with the same
mask blocks until the slot is free. -/
def slotSgrp (y : Syl) (s : State) : Rd Done := do
  let v ← groupSpec s y
  let mask : BitVec 16 := v.setWidth 16
  let g := field v 17 16
  let x := s.groupOf (unitCluster s.curU) g
  let mine := x.joined.getLsbD s.myBit && Table.get 8 x.strands s.myBit == s.curK.toNat && x.mask == mask
    && !x.done.getLsbD s.myBit
  if mine then
    if x.started then
      .ok (Done.plain (fun t =>
        let x := t.groupOf (unitCluster t.curU) g
        t.setGroup (unitCluster t.curU) g { x with done := x.done ||| BitVec.twoPow 16 t.myBit }))
    else .error (.block (.group g mask))
  else do
    needOp (mask.getLsbD s.myBit && s.maskPresent mask && s.myCore.group.isNone
      && !s.hasJoined && (x.joined == 0 || x.mask == mask))
    .error (.block (.group g mask))

/-- The acting core's group; none raises ILLEGAL-OPERAND (R260). -/
def myGroup (s : State) : Rd Nat :=
  match s.myCore.group with
  | some g => .ok g.toNat
  | none => illegalOperand

def slotSgleave (_ : Syl) (s : State) : Rd Done := do
  let _ ← myGroup s
  .ok (Done.plain State.leaveGroup)

/-- SGSYNC parks the member, and completes when all have unparked (R261). -/
def slotSgsync (_ : Syl) (s : State) : Rd Done := do
  let g ← myGroup s
  let x := s.groupOf (unitCluster s.curU) g
  if x.synced.getLsbD s.myBit then
    .ok (Done.plain (fun t =>
      let x := t.groupOf (unitCluster t.curU) g
      t.setGroup (unitCluster t.curU) g { x with synced := x.synced &&& ~~~(BitVec.twoPow 16 t.myBit) }))
  else .error (.block (.sync g))

def slotSgrd (y : Syl) (s : State) : Rd Done := do
  let g ← myGroup s
  putA s y (s.groupOf (unitCluster s.curU) g).scnt

end Sys2Proof.Machine
end

