-- ==== Sys2Proof/Machine/TransOps.lean ====
section
/-! DEFINITION. The instructions of translation (R299 to R304) and MIGHINT (R282). -/

namespace Sys2Proof.Machine

/-! ### TLBINV and TLBWAIT -/

/-- A table-page operand: bits [11:0] and [63:52] zero. -/
def pageOperand (v : W64) : Bool := field v 11 0 == 0 && field v 63 52 == 0

/-- TLBINV enters the store queue under its number (R300). -/
def invSlot (y : Syl) (s : State) (form : Nat) (va page : W64) : Rd Done := do
  needOp (s.sup && pageOperand page && (form != 0 || canonical va))
  if s.me.ivnx - s.myIvtl = 8 then .error .stall
  else do
    needSq s 1
    let n := s.me.ivnx + 1
    let d ← putA s y n
    .ok { d with
          apply := fun t =>
            let t := d.apply t
            t.setMe ({ t.me with ivnx := n }.addSq (.tlbinv n form va page))
          sqn := 1, seqn := 1 }

def slotTlbinvVa (y : Syl) (s : State) : Rd Done := do
  let va ← readA s y.s1
  let page ← readA s y.s2
  invSlot y s 0 va page

def slotTlbinvTbl (y : Syl) (s : State) : Rd Done := do
  let page ← readA s y.s1
  invSlot y s 1 0 page

def slotTlbinvAll (y : Syl) (s : State) : Rd Done := invSlot y s 2 0 0

/-- TLBWAIT blocks until IVTL ≥ Src1 (R302). -/
def slotTlbwait (y : Syl) (s : State) : Rd Done := do
  let n ← readA s y.s1
  needOp (n.toNat ≤ s.me.ivnx.toNat)
  if n.toNat ≤ s.myIvtl.toNat then .ok (Done.plain id) else .error (.block (.tlbinv n))

/-! ### XLAT (R303) -/

/-- The physical address of ea under a leaf, or its pinned encoding. -/
def Hit.physical (h : Hit) (ea : W64) : W64 := BitVec.ofNat 64 (leafFrame h.entry.leaf + va57 ea % h.entry.size)

/-- XLAT; an operand that names an invalid latch traps (R41), and an entry with an uncorrectable error raises POISON
(R303, R306; DESIGN CHOICE, log entry 84). -/
def xlatSlot (y : Syl) (s : State) (acc : Acc) : Rd Done := do
  let ea ← effAddrPlain s y
  if (s.tlbFind s.who ea).isNone && s.walkWaits s.myPart ea then .error .stall
  else do
    let v ← match (s.translate s.who ea acc .probe).1 with
      | .ok h => .ok (h.physical ea)
      | .error f => if f.isPoison then .error (.trap f.cause ea f.word) else .ok f.word
    let d ← putA s y v
    let w := s.who
    .ok { d with apply := fun t => d.apply (t.translate w ea acc .probe).2 }

def slotXlat (y : Syl) (s : State) : Rd Done := xlatSlot y s .read
def slotXlatW (y : Syl) (s : State) : Rd Done := xlatSlot y s .write
def slotXlatX (y : Syl) (s : State) : Rd Done := xlatSlot y s .fetch

/-! ### Keys (R299, R304) -/

/-- WPKR of the whole register, or of key k = LIT. -/
def slotWpkr (y : Syl) (s : State) : Rd Done :=
  if isX y then do
    let v ← readW s y.s1
    needOp (v.toNat < 4)
    let k := y.lit.toNat
    .ok (Done.plain (fun t => t.setMe { t.me with
      pkr := BitVec.ofNat 64 (t.me.pkr.toNat - field t.me.pkr (2 * k + 1) (2 * k) * 4 ^ k + v.toNat * 4 ^ k) }))
  else do
    let v ← readA s y.s1
    .ok (Done.plain (fun t => t.setMe { t.me with pkr := v }))

def slotRpkr (y : Syl) (s : State) : Rd Done := putA s y s.me.pkr

/-! ### MIGHINT (R282) -/

/-- The request waits for the engine's answer, which reaches Dst and the latch. -/
def slotMighint (y : Syl) (s : State) : Rd Done := do
  let ea ← readA s y.s1
  let home ← if isX y then .ok y.lit
    else do
      let v ← readW s y.s2
      needOp (v.toNat < 16)
      .ok v
  let dst := dstW y
  s.writable dst
  let sup := s.sup
  let pkr := s.me.pkr
  .ok { Done.plain (fun t =>
          let m := t.me.clearBad dst
          t.setMe { m with seq := m.seq + 1, hints := m.hints ++ [⟨m.seq + 1, dst, ea, home.setWidth 4, sup, pkr⟩] }) with
        latch := .pending (s.me.seq + 1), seqn := 1 }

end Sys2Proof.Machine
end

