-- ==== Sys2Proof/Machine/CircLaunch.lean ====
section
/-! DEFINITION. CIRCWAIT and CIRCQ (R331 to R333), LAUNCH and LNSTAT (R355, R358). -/

namespace Sys2Proof.Machine

/-! ### Circuits -/

def State.seqOf (s : State) (x : Nat) : Seq := Table.get Seq.reset s.seqs x
def State.setSeq (s : State) (x : Nat) (q : Seq) : State := { s with seqs := Table.set s.seqs x q }
def Seq.handle (q : Seq) (h : Nat) : Handle := Table.get Handle.reset q.handles h
def Seq.setHandle (q : Seq) (h : Nat) (x : Handle) : Seq := { q with handles := Table.set q.handles h x }

def CircState.code : CircState → Nat
  | .idle => 0
  | .settling => 1
  | .live => 2
  | .failed => 3
  | .refused => 4

/-- The handle of a form: LIT, or Src2 with bits [31:8] zero; an instance with no circuit program raises
ILLEGAL-OPERAND (R331). -/
def handleNo (s : State) (y : Syl) : Rd Nat := do
  let v ← if isX y then .ok y.lit else readW s y.s2
  needOp (v.toNat < 256 && !s.me.circctx.getLsbD 3)
  .ok v.toNat

/-- The context of the acting strand's instance. -/
def State.mySeq (s : State) : Seq := s.seqOf (field s.me.circctx 2 0)

/-- A wait for generation g of a handle is over (R332). -/
def Seq.waitDone (q : Seq) (h g : Nat) : Bool :=
  (g ≤ (q.handle h).gen.toNat && (q.handle h).state != .settling) || q.status != 0

def slotCircwait (y : Syl) (s : State) : Rd Done := do
  let h ← handleNo s y
  let g ← if 2 ≤ field y.form 1 0 then do
      let v ← readW s y.s3
      .ok v.toNat
    else .ok 1
  if !s.mySeq.waitDone h g then .error (.block (.circuit h g))
  else putP y ((s.mySeq.handle h).state == .live && g ≤ (s.mySeq.handle h).gen.toNat)

/-- The handle word (R333). -/
def Handle.word (x : Handle) : W64 :=
  BitVec.ofNat 64 (x.state.code + x.sport.toNat * 2 ^ 4 + x.dport.toNat * 2 ^ 11 + x.gen.toNat * 2 ^ 32)

def slotCircq (y : Syl) (s : State) : Rd Done := do
  let h ← handleNo s y
  putA s y (s.mySeq.handle h).word

/-! ### Launches -/

/-- A launch as LAUNCH, DBELL or a slot makes it. -/
def newLaunch (part : Nat) (ticket desc : W64) (arg : Option W64) (sup : Bool) (pkr : W64)
    (origin : Option Nat) (prio : Option (BitVec 3)) (slot : Option Nat) (now : W64) (effective : Bool) : Launch :=
  { part := part, ticket := ticket, desc := desc, arg := arg, sup := sup, pkr := pkr, origin := origin, prio := prio
    slot := slot, at_ := now, effective := effective, accepted := false, nodes := [], crec := 0, report := 0, argv := 0
    status := 0, noRecord := false, replays := 0, cancelled := false, complete := false, stopping := false
    stopUnits := [], noticeAt := [], preempts := false, saved := false }

/-- Give the next ticket of a partition to a launch. -/
def State.addLaunch (s : State) (p : Nat) (f : W64 → Launch) : State :=
  let x := s.partOf p
  s.setPart p { x with ltick := x.ltick + 1, launches := x.launches ++ [f (x.ltick + 1)] }

/-- LAUNCH takes its ticket at commit and enters the store queue (R355). -/
def launchSlot (y : Syl) (s : State) (arg : Option W64) : Rd Done := do
  let desc ← readA s y.s1
  let p := s.myPart
  let x := s.partOf p
  if desc.toNat % 64 ≠ 0 then .error (.trap causeMisalignedAccess desc 0)
  else if 256 ≤ (x.launches.filter (fun l => !l.complete)).length then .error .stall
  else do
    needSq s 1
    let ticket := x.ltick + 1
    let d ← putA s y ticket
    .ok { d with
          apply := fun t =>
            let t := d.apply t
            let sup := t.sup
            let pkr := t.me.pkr
            let t := t.addLaunch p (fun n => newLaunch p n desc arg sup pkr (some t.curU.toNat) none none t.ptime false)
            t.setMe (t.me.addSq (.launch ticket desc arg sup pkr))
          sqn := 1, seqn := 1 }

def slotLaunch (y : Syl) (s : State) : Rd Done :=
  if y.form = 1 then do
    let a ← readA s y.s3
    launchSlot y s (some a)
  else launchSlot y s none

/-- The state of a ticket (R358). -/
def Part.launchState (x : Part) (ticket : W64) : Nat :=
  match x.findLaunch ticket with
  | none => 3
  | some l => if l.complete then 2 else if l.nodes.any (fun n => !n.gangs.isEmpty) then 1 else 0

def slotLnstat (y : Syl) (s : State) : Rd Done := do
  let t ← readA s y.s1
  putA s y (BitVec.ofNat 64 ((s.partOf s.myPart).launchState t))

end Sys2Proof.Machine
end

