-- ==== Sys2Proof/Machine/Counters.lean ====
section
/-! DEFINITION. Queue pairs and counters as strands use them (R399 to R403, R412 to R415). -/

namespace Sys2Proof.Machine

/-! ### Reading scratchpad before commit -/

/-- n bytes of scratchpad at ea as a load of the acting strand finds them now, its own older stores' first (R81.5). A
block that is not filled is filled first, in load-queue order, and the bundle stalls until then (R150). -/
def readLocalNow (s : State) (ea : W64) (n align : Nat) : Rd (List Byte × (State → State)) := do
  let x ← accessLocal s ea n align .read
  let t := s.me
  let keys := segKeys x.segs
  let unit := s.curU
  let n := t.seq + 1
  if !x.fills.isEmpty then
    needLq s x.fills.length
    .error (.fill x.fills (x.fills.map (fun f => s.myCore.blockVa f.1 f.2.1)))
  else if keys.any (s.fillHolds unit) || s.postedOlder t n .loc x.segs then .error .stall
  else
    let bad (k : Nat) : Bool := (s.forward unit t n .loc k).isNone && s.poisoned k
    if keys.any bad then .error (.trap (s.badCause (keys.filter bad)) ea t.pc)
    else .ok (keys.map (fun k => (s.forward unit t n .loc k).getD (s.readByte k)), x.effect)

/-! ### Pairs and counters -/

/-- The number of a pair in the module. -/
def PairRef.no (p : PairRef) : Nat := 64 * p.forager.toNat + p.pair.toNat

def Fabric.pairOf (f : Fabric) (n : Nat) : Pair := Table.get Pair.reset f.pairs n
def State.pairOf (s : State) (n : Nat) : Pair := s.fabric.pairOf n
def State.setPair (s : State) (n : Nat) (p : Pair) : State :=
  { s with fabric := { s.fabric with pairs := Table.set s.fabric.pairs n p } }

/-- The unit of a pair's forager, and the pair's partition (R343). -/
def pairUnit (n : Nat) : UnitNo := BitVec.ofNat 10 (512 + n / 64)
def State.pairPart (s : State) (n : Nat) : Nat := s.unitPart (pairUnit n)

def Pair.mode (p : Pair) : Nat := field p.cfg 2 1
def Pair.peerModule (p : Pair) : Nat := field p.cfg 8 3
def Pair.peerNo (p : Pair) : Nat := 64 * field p.cfg 12 9 + field p.cfg 18 13
def Pair.rbase (p : Pair) : Nat := field p.ring 20 0
def Pair.rsize (p : Pair) : Nat := 2 ^ field p.ring 24 21

/-- V = 1, but for the reserved mode and a pod pair whose peer is its own module (R400). -/
def State.pairValid (s : State) (n : Nat) : Bool :=
  let p := s.pairOf n
  p.cfg.getLsbD 0 && p.mode != 3 && !(p.mode == 1 && p.peerModule == s.fabric.modnum.toNat)

/-- The partition of a counter's forager (R399). -/
def State.counterPart (s : State) (c : Nat) : Nat := s.unitPart (BitVec.ofNat 10 (512 + c / 1024))
def State.counter (s : State) (c : Nat) : W64 := Table.get 0 s.fabric.counters c

/-- Raise a counter; one that holds an error is frozen (R417). -/
def State.raise (s : State) (c : Nat) (v : W64) : State :=
  if s.fabric.frozenCounters.contains c then s
  else { s with fabric := { s.fabric with counters := Table.set s.fabric.counters c (s.counter c + v) } }

/-- A specifier of w bits: LIT, or Src2 with the bits above zero (R412). -/
def cntSpec (s : State) (y : Syl) (w : Nat) : Rd Nat := do
  let v ← if isX y then .ok y.lit else readW s y.s2
  needOp (v.toNat < 2 ^ w)
  .ok v.toNat

/-- The pair a form names: valid, and of the strand's partition. -/
def pairSpec (s : State) (y : Syl) : Rd Nat := do
  let v ← cntSpec s y 10
  let n := 64 * (v % 16) + v / 16
  needOp (s.pairValid n && s.pairPart n == s.myPart)
  .ok n

def counterSpec (s : State) (y : Syl) : Rd Nat := do
  let c ← cntSpec s y 14
  needOp (s.counterPart c == s.myPart)
  .ok c

/-! ### Work entries (R402, R403, R419) -/

abbrev Entry := BitVec 512

def Entry.kind (e : Entry) : Nat := field e 7 0
def Entry.op (e : Entry) : Nat := field e 11 8
def Entry.ty (e : Entry) : Nat := field e 15 12
def Entry.rm (e : Entry) : Nat := field e 18 16
def Entry.ftz (e : Entry) : Bool := bit e 19
def Entry.ord (e : Entry) : Bool := bit e 20
def Entry.acnt (e : Entry) : Nat := field e 45 32
def Entry.athr (e : Entry) : Nat := field e 127 64
def Entry.src (e : Entry) : W64 := BitVec.signExtend 64 (BitVec.ofNat 57 (field e 184 128))
def Entry.dst (e : Entry) : W64 := BitVec.signExtend 64 (BitVec.ofNat 57 (field e 248 192))
def Entry.len (e : Entry) : Nat := field e 279 256
def Entry.dcnt (e : Entry) : Nat := field e 301 288
def Entry.dcen (e : Entry) : Bool := bit e 302
def Entry.lcnt (e : Entry) : Nat := field e 317 304
def Entry.lcen (e : Entry) : Bool := bit e 318
def Entry.scnt (e : Entry) : Nat := field e 333 320
def Entry.ncon (e : Entry) : Nat := field e 345 336 + 1
def Entry.rank (e : Entry) : Nat := field e 367 352

/-- Put v in bits [hi:lo] of an entry. -/
def Entry.put (e : Entry) (hi lo v : Nat) : Entry :=
  BitVec.ofNat 512 (e.toNat - field e hi lo * 2 ^ lo + v % 2 ^ (hi + 1 - lo) * 2 ^ lo)

/-- The reserved fields of Table 21-2, and STATUS, are zero. -/
def Entry.reservedOk (e : Entry) : Bool :=
  [(31, 21), (63, 46), (191, 185), (255, 249), (287, 280), (303, 303), (319, 319), (335, 334), (351, 346), (511, 368)].all
    (fun p => field e p.1 p.2 == 0)

/-- The types that Table 21-3 accepts for an operator. -/
def redTyOk (op ty : Nat) : Bool :=
  match op with
  | 0 => [0, 2, 8].contains ty
  | 1 => [0, 2, 8, 9].contains ty
  | 2 => [0, 2, 8, 9].contains ty
  | 3 => ty == 0
  | _ => false

/-- The frame check of QPOST on a pair of mode `mode`. -/
def State.entryOk (s : State) (mode : Nat) (e : Entry) : Bool :=
  let plain := e.op == 0 && e.ty == 0 && e.rm == 0 && !e.ftz && !e.ord && field e 333 320 == 0 && field e 345 336 == 0
    && e.rank == 0
  let kindOk := match e.kind with
    | 1 => plain
    | 2 => redTyOk e.op e.ty && mode != 2
        && !(mode == 1 && !e.ord && (e.scnt != 0 || field e 345 336 != 0 || e.rank != 0))
    | 3 => plain && field e 248 192 == 0 && e.dcnt == 0 && !e.dcen
    | _ => false
  e.reservedOk && kindOk && !([4, 5, 6].contains e.rm) && !(mode == 2 && e.dcen)
    && s.counterPart e.acnt == s.myPart && (!e.lcen || s.counterPart e.lcnt == s.myPart)

/-- The key of ring slot n of a pair. -/
def Pair.slotKey (p : Pair) (no n : Nat) : Nat := spadKey (pairUnit no).toNat (p.rbase + 64 * (n % p.rsize))

/-! ### The instructions -/

/-- QPOST (R413). -/
def slotQpost (y : Syl) (s : State) : Rd Done := do
  let no ← pairSpec s y
  let ea ← readA s y.s1
  let (bytes, f) ← readLocalNow s ea 64 64
  let p := s.pairOf no
  let e : Entry := BitVec.ofNat 512 (leNat bytes)
  let e := if e.rm = 7 then e.put 18 16 s.me.rm.toNat else e
  if !s.entryOk p.mode e then badCommand
  else
    let e := if p.mode = 0 && !e.ord then e.put 367 352 s.curU.toNat else e
    if p.rsize ≤ (p.posted - p.retired).toNat then .error .stall
    else do
      let n := p.posted + 1
      let d ← putA s y n
      let cap : QpCap := { sup := s.sup, pkr := s.me.pkr, unit := s.curU.toNat, strand := s.curK.toNat, seq := s.me.seq }
      .ok { d with apply := fun t =>
              let t := d.apply (f t)
              let t := t.writeNat (p.slotKey no n.toNat) 64 e.toNat
              let p := t.pairOf no
              t.setPair no { p with posted := n, caps := Table.set p.caps n.toNat cap } }

/-- QARM enters the store queue (R414). -/
def slotQarm (y : Syl) (s : State) : Rd Done := do
  let no ← pairSpec s y
  let n ← readA s y.s1
  needOp (n.toNat ≤ (s.pairOf no).posted.toNat)
  needSq s 1
  .ok (Done.enters (fun t => t.setMe (t.me.addSq (.qarm (no / 64) (no % 64) n))))

def slotCntrd (y : Syl) (s : State) : Rd Done := do
  let c ← counterSpec s y
  putA s y (s.counter c)

def slotCntwait (y : Syl) (s : State) : Rd Done := do
  let c ← counterSpec s y
  let v ← readA s y.s1
  if v.toNat ≤ (s.counter c).toNat then .ok (Done.plain id) else .error (.block (.counter c v))

/-- CNTADD enters the store queue (R410). -/
def slotCntadd (y : Syl) (s : State) : Rd Done := do
  let c ← counterSpec s y
  let v ← readA s y.s1
  needSq s 1
  .ok (Done.enters (fun t => t.setMe (t.me.addSq (.cntadd c v))))

end Sys2Proof.Machine
end

