-- ==== Sys2Proof/Machine/ParamOps.lean ====
section
/-! DEFINITION. PNCFG and PNSTAT (R430 to R432). -/

namespace Sys2Proof.Machine

def Part.tensor (x : Part) (n : Nat) : Tensor := Table.get Tensor.reset x.tensors n
def Part.setTensor (x : Part) (n : Nat) (t : Tensor) : Part := { x with tensors := Table.set x.tensors n t }
def State.tensor (s : State) (p n : Nat) : Tensor := (s.partOf p).tensor n
def State.setTensor (s : State) (p n : Nat) (t : Tensor) : State := s.setPart p ((s.partOf p).setTensor n t)

/-- Word k of a tensor's descriptor (Table 22-1). -/
def Tensor.word (t : Tensor) (k : Nat) : W64 := (t.desc[k]?).getD 0
def Tensor.role (t : Tensor) : Nat := field (t.word 0) 2 1
def Tensor.nblk (t : Tensor) : Nat := field (t.word 0) 13 4 + 1
def Tensor.eblk (t : Tensor) : Nat := 64 * (field (t.word 0) 20 14 + 1)
def Tensor.block (t : Tensor) (b : Nat) : PnBlock := Table.get PnBlock.reset t.blocks b
def Tensor.setBlock (t : Tensor) (b : Nat) (x : PnBlock) : Tensor := { t with blocks := Table.set t.blocks b x }

/-- LAST of every block. -/
def Tensor.lasts (t : Tensor) : List Nat := (List.range t.nblk).map (fun b => (t.block b).last.toNat)

/-- The words of PNSTAT by SEL (R432). -/
def Tensor.stat (t : Tensor) (sel b : Nat) : W64 :=
  match sel with
  | 0 => BitVec.ofNat 64 (t.role + t.acting.toNat * 4 + t.fenced.toNat * 8 + t.mirror.toNat * 16
      + (64 - t.slots.length) * 32)
  | 1 =>
    let x := t.block b
    BitVec.ofNat 64 (x.last.toNat + x.held.length % 16 * 2 ^ 48 + x.bank.toNat * 2 ^ 52 + x.applying.isSome.toNat * 2 ^ 53)
  | 2 => t.failed ++ t.missing ++ t.ahead ++ t.dup
  | _ => BitVec.ofNat 64 (t.lasts.foldl Nat.min (2 ^ 48 - 1))

/-- PNCFG reads its descriptor now and takes effect in store-queue order, when its status reaches Dst
(R431). -/
def slotPncfg (y : Syl) (s : State) : Rd Done := do
  let ea ← readA s y.s1
  let n ← cntSpec s y 8
  needOp (s.sup && ea.toNat % 32 = 0 && ea.toNat + 127 < 2 ^ 21)
  let (bytes, f) ← readLocalNow s ea 128 32
  let dst := dstW y
  s.writable dst
  needSq s 1
  .ok { Done.plain (fun t =>
          let t := f t
          t.setMe ((t.me.clearBad dst).addSq (.pncfg n bytes dst t.sup t.me.pkr))) with
        latch := .pending (s.me.seq + 1), sqn := 1, seqn := 1 }

/-- PNSTAT: [7:0] TENSOR, [17:8] BLOCK, [19:18] SEL. -/
def slotPnstat (y : Syl) (s : State) : Rd Done := do
  let v ← cntSpec s y 20
  let t := s.tensor s.myPart (v % 256)
  let b := v / 2 ^ 8 % 2 ^ 10
  let sel := v / 2 ^ 18
  needOp (t.valid && (sel != 1 || b < t.nblk))
  putA s y (t.stat sel b)

end Sys2Proof.Machine
end

