-- ==== Sys2Proof/Machine/Far.lean ====
section
/-! DEFINITION. Far accesses on their way out (R129, R380, R383, R391 to R394): the route of a unit, the
egress queues, the requests that wait for an answer, and what becomes of a lost one. -/

namespace Sys2Proof.Machine

/-- The engine and the port within it that carry a unit's far accesses (R380). -/
def farRoute (u : UnitNo) (k : StrandNo) : Nat × Nat :=
  if u.toNat < 512 then (u.toNat / 64 % 4, k.toNat % 4)
  else if u.toNat < 528 then ((u.toNat - 512) / 4, k.toNat % 4)
  else ((u.toNat - 528) / 16, k.toNat % 4)

/-- The module that engine e sends to on the way to module n (R391). -/
def State.hopOf (s : State) (e n : Nat) : Nat :=
  let w := Table.get 0 s.fabric.path (64 * e + n)
  let k := field w 6 1
  if w.getLsbD 0 && k != n && k != s.fabric.modnum.toNat then k else n

def LinkRef.key (l : LinkRef) : Nat := 64 * l.engine.toNat + l.mdl.toNat
def State.link (s : State) (l : Nat) : Link := Table.get Link.reset s.fabric.links l
def State.setLink (s : State) (l : Nat) (x : Link) : State :=
  { s with fabric := { s.fabric with links := Table.set s.fabric.links l x } }

/-! ### Egress queues -/

/-- The queue of fabric port p toward module n. -/
def egressKey (p n : Nat) : Nat := 64 * p + n
def Fabric.queue (f : Fabric) (p n : Nat) : List OutMsg := Table.get [] f.egress (egressKey p n)

/-- The flits of 256 bytes that a queue's space in HBM holds (Table 20-1). -/
def Fabric.spillSlots (f : Fabric) (p : Nat) : Nat := 16 * (field (Table.get 0 f.veqcfg (p / 4)) 62 52 + 1)

/-- The flits that a queue still takes: it holds 64 on chip and what its space in HBM holds (R383). -/
def Fabric.room (f : Fabric) (p n : Nat) : Nat := 64 + f.spillSlots p - (f.queue p n).length

/-- The physical address of a flit's place in a queue's space (Table 20-1). -/
def Fabric.spillAddr (f : Fabric) (p n i : Nat) : Nat :=
  field (Table.get 0 f.veqcfg (p / 4)) 51 21 * 2 ^ 21 + (64 * (p % 4) + n) * 256 * f.spillSlots p + 256 * i

/-- The place that the next flit written to HBM takes: the one after the last, in a ring. -/
def nextSpill (slots : Nat) (q : List OutMsg) : Nat :=
  match q.getLast? with
  | some m => match m.spill with
    | some i => (i + 1) % slots
    | none => 0
  | none => 0

/-- A flit is written to its place in HBM; which bytes stand for it there is free (DESIGN CHOICE, log entry 22). -/
def State.spillFlit (s : State) (p n i : Nat) : State :=
  match s.localKey (s.fabric.spillAddr p n i) with
  | some k => { s.writeCells ((List.range 256).map (fun j => (k + j, Config.flitByte s.tick j))) with tick := s.tick + 1 }
  | none => s

/-- Put a message at the tail of the queue of port p toward module n: the first 64 are on chip (R383). -/
def State.enqueue (s : State) (p : Nat) (m : OutMsg) : State :=
  let n := m.dst.toNat
  let q := s.fabric.queue p n
  let place := if q.length < 64 then none else some (nextSpill (s.fabric.spillSlots p) q)
  let s := match place with
    | some i => s.spillFlit p n i
    | none => s
  { s with fabric := { s.fabric with egress := Table.set s.fabric.egress (egressKey p n) (q ++ [{ m with spill := place }]) } }

/-- A message for a queue that is full waits where it arose (R383). -/
def State.post (s : State) (p : Nat) (m : OutMsg) : State :=
  let k := egressKey p m.dst.toNat
  let w := Table.get [] s.fabric.backlog k
  if w.isEmpty && 0 < s.fabric.room p m.dst.toNat then s.enqueue p m
  else { s with fabric := { s.fabric with backlog := Table.set s.fabric.backlog k (w ++ [m]) } }

/-- Messages that waited enter their queue, as far as it has room. -/
def State.refill (s : State) (p n : Nat) : List OutMsg → State
  | [] => { s with fabric := { s.fabric with backlog := Table.erase (egressKey p n) s.fabric.backlog } }
  | m :: rest =>
    if 0 < s.fabric.room p n then (s.enqueue p m).refill p n rest
    else { s with fabric := { s.fabric with backlog := Table.set s.fabric.backlog (egressKey p n) (m :: rest) } }

/-- The head of a queue has left: the next one comes on chip, and a message that waited enters. -/
def State.dequeued (s : State) (p n : Nat) (rest : List OutMsg) : State :=
  let q := (rest.take 64).map (fun m => { m with spill := none }) ++ rest.drop 64
  let s : State := { s with fabric := { s.fabric with egress := Table.set s.fabric.egress (egressKey p n) q } }
  s.refill p n (Table.get [] s.fabric.backlog (egressKey p n))

/-- A message of this module to module n (DESIGN CHOICE, log entry 22: which TYPE carries which content). -/
def State.postTo (s : State) (p n : Nat) (type : Byte) (m : FabMsg) : State :=
  s.post p { type := type, src := s.fabric.modnum, dst := BitVec.ofNat 6 n, msg := m, spill := none }

def typeData : Byte := 0x01
def typeReq : Byte := 0x02
def typeResp : Byte := 0x03
def typeAck : Byte := 0x10
def typeNak : Byte := 0x11
def typeKeysw : Byte := 0x20
def typePropose : Byte := 0x30
def typeAccept : Byte := 0x31
def typeCommit : Byte := 0x32
def typeDecline : Byte := 0x33

/-! ### Requests -/

/-- Who makes a far access: the strand (with the queue entry's number; 0 for a command of one of its
queues), its partition and the virtual address. -/
structure FarWho where
  unit : UnitNo
  strand : StrandNo
  seq : Nat
  part : Nat
  ea : W64

/-- A posted atomic. -/
def isPosted (m : FabMsg) : Bool := match m with
  | .posted _ _ _ _ _ _ _ _ => true
  | _ => false

/-- Send one far access of `bytes` bytes at key. -/
def State.farSend (s : State) (w : FarWho) (key bytes : Nat) (store : Bool) (type : Byte)
    (msg : Nat → BitVec 52 → FabMsg) : State :=
  let (e, i) := farRoute w.unit w.strand
  let n := farModule key
  let id := s.fabric.nextReq
  let r : FarReq := { id := id, owner := some (w.unit.toNat, w.strand.toNat), seq := w.seq, mdl := n, engine := e
                      port := i, hop := s.hopOf e n, at_ := s.ptime, store := store, posted := isPosted (msg id 0)
                      ea := w.ea, part := w.part, key := key, bytes := bytes, got := none, fail := none, via := none, fwd := false }
  let s := { s with fabric := { s.fabric with reqs := s.fabric.reqs ++ [r], nextReq := id + 1 } }
  s.postTo (4 * e + i) n type (msg id (BitVec.ofNat 52 (key % 2 ^ 44)))


/-- Contiguous written bytes, at most 128 to a flit (DESIGN CHOICE, log entry 22). -/
def runsOf : List (Nat × Byte) → List (Nat × List Byte)
  | [] => []
  | (k, b) :: rest =>
    match runsOf rest with
    | (j, bs) :: more => if j = k + 1 && bs.length < 128 then (k, b :: bs) :: more else (k, [b]) :: (j, bs) :: more
    | [] => [(k, [b])]

/-- Of the flits that begin at these far keys, how many in order the queues of port p take, `used` of each before. -/
def Fabric.fitCount (f : Fabric) (p : Nat) : Table Nat → List Nat → Nat
  | _, [] => 0
  | used, a :: rest =>
    let n := farModule a
    let c := Table.get 0 used n
    if c < f.room p n then f.fitCount p (Table.set used n (c + 1)) rest + 1 else 0

/-- The queues that the flits of a far access would enter, one at each of these keys, do not hold them all (R383). -/
def State.farFull (s : State) (u : UnitNo) (k : StrandNo) (starts : List Nat) : Bool :=
  let (e, i) := farRoute u k
  let far := starts.filter isFar
  s.fabric.fitCount (4 * e + i) [] far < far.length

/-- A write whose flits are more than a queue ever holds waits until the queues it enters are empty; what they do not
take then waits where it arose (DESIGN CHOICE, log entry 22). -/
def State.farWaits (s : State) (u : UnitNo) (k : StrandNo) (starts : List Nat) : Bool :=
  let (e, i) := farRoute u k
  s.farFull u k starts && starts.any (fun a => isFar a && !(s.fabric.queue (4 * e + i) (farModule a)).isEmpty)

/-- Where the flits of a store of these bytes begin. -/
def flitStarts (keys : List Nat) : List Nat := (runsOf ((keys.filter isFar).map (fun a => (a, 0)))).map Prod.fst

/-- Send far stores of listed bytes. -/
def State.farStores (s : State) (w : FarWho) : List (Nat × List Byte) → State
  | [] => s
  | (k, bs) :: rest =>
    (s.farSend w k bs.length true typeData (fun id a => .store id a bs)).farStores w rest

/-- Pieces of at most 128 bytes of a segment. -/
def chunks : Nat → Nat → Nat → List (Nat × Nat)
  | 0, _, _ => []
  | fuel + 1, k, n => if n = 0 then [] else (k, Nat.min n 128) :: chunks fuel (k + 128) (n - 128)

/-- Send far loads of the far segments. -/
def State.farLoads (s : State) (w : FarWho) : List (Nat × Nat) → State
  | [] => s
  | (k, n) :: rest => (s.farSend w k n false typeReq (fun id a => .load id a n)).farLoads w rest

/-- The far pieces of segments. -/
def farPieces (segs : List (Nat × Nat)) : List (Nat × Nat) :=
  (segs.filter (fun p => isFar p.1)).flatMap (fun p => chunks (p.2 / 128 + 1) p.1 p.2)

/-- Of far pieces, those that no request of a mark covers. -/
def notAsked (rs : List FarReq) (pieces : List (Nat × Nat)) : List (Nat × Nat) :=
  pieces.filter (fun p => !rs.any (fun r => r.key ≤ p.1 && p.1 + p.2 ≤ r.key + r.bytes))

/-- A far store of this module to one of these bytes has been accepted and not acknowledged: loads of
them are served behind it (R129). -/
def State.farStoreMeets (s : State) (segs : List (Nat × Nat)) : Bool :=
  s.fabric.reqs.any (fun r => r.store && segs.any (fun p => rangesMeet p.1 p.2 r.key r.bytes))

/-- The requests of a strand's queue entry. -/
def State.reqsOf (s : State) (u : UnitNo) (k : StrandNo) (seq : Nat) : List FarReq :=
  s.fabric.reqs.filter (fun r => r.owner == some (u.toNat, k.toNat) && r.seq == seq)

def State.dropReqs (s : State) (f : FarReq → Bool) : State :=
  { s with fabric := { s.fabric with reqs := s.fabric.reqs.filter (fun r => !f r) } }

/-- Every request of an entry has its answer. -/
def answered (rs : List FarReq) : Bool := rs.all (fun r => r.got.isSome || r.fail.isSome)

/-! ### Reads that no strand's queue makes (R380) -/

/-- The first of pieces that the queues take are asked for under a mark, through the port of strand k. -/
def State.bring (s : State) (u : UnitNo) (k : StrandNo) (mark : Nat) (ea : W64) (pieces : List (Nat × Nat)) : State :=
  let (e, i) := farRoute u k
  let id := s.fabric.nextReq
  let go := pieces.take (s.fabric.fitCount (4 * e + i) [] (pieces.map Prod.fst))
  let s := s.farLoads ⟨u, k, 0, s.unitPart u, ea⟩ go
  { s with fabric := { s.fabric with reqs := s.fabric.reqs.map (fun r => if id ≤ r.id then { r with owner := some (u.toNat, mark) } else r) } }

/-! ### Lost accesses (R392, R393) -/

/-- sys.PATHREC (R392). -/
def pathRecord (hop : Nat) (hopv : Bool) (r : FarReq) : W64 :=
  BitVec.ofNat 64 (1 + (if hopv then hop % 64 * 2 else 0) + hopv.toNat * 2 ^ 7 + r.mdl % 64 * 2 ^ 8
    + r.engine % 4 * 2 ^ 14 + r.port % 4 * 2 ^ 16)

/-- The mark of a lost load or atomic writes the strand's sys.PATHREC, from the first request of it that was lost (R392). -/
def State.notePath (s : State) (u : UnitNo) (k : StrandNo) (rs : List FarReq) : State :=
  match rs.find? (fun r => r.fail.isSome) with
  | some r =>
    if r.fail == some causePathLost then
      s.setStrand u k { s.strand u k with pathrec := pathRecord (r.via.getD 0) r.via.isSome r }
    else s
  | none => s

/-- The subject of a LINK fault (R394). -/
def linkSubject (port peer : Nat) : Nat := port % 16 + peer % 64 * 2 ^ 4

/-- A far access is lost: a load or atomic will mark its destination PATH-LOST; a store's loss is routed. `hop` is the
module whose onward link failed. -/
def State.loseReq (s : State) (hop : Option Nat) (r : FarReq) : State :=
  let (u, k) := r.owner.getD (0, 0)
  let un : UnitNo := BitVec.ofNat 10 u
  let kn : StrandNo := BitVec.ofNat 3 k
  if r.store then
    let s := s.dropReqs (fun x => x.id == r.id)
    (s.routeFault r.part clsLink 0x06 (linkSubject (4 * r.engine + r.port) r.hop) r.ea un kn).settle un kn
  else
    { s with fabric := { s.fabric with reqs := s.fabric.reqs.map (fun x =>
        if x.id == r.id then { x with fail := some causePathLost, via := hop } else x) } }

def State.loseReqs (s : State) (hop : Option Nat) : List FarReq → State
  | [] => s
  | r :: rest => (s.loseReq hop r).loseReqs hop rest

end Sys2Proof.Machine
end

