-- ==== Sys2Proof/Machine/PartBlock.lean ====
section
/-! DEFINITION. The partition block of the register aperture (R345, Table 16-1) with the contexts of
queue pairs (R400) and the counters (R399). -/

namespace Sys2Proof.Machine

/-! ### Reading -/

def Part.policy (x : Part) : W64 :=
  BitVec.ofNat 64 (x.replay.toNat + x.rcnt.toNat * 2 + x.frozen.toNat * 32 + x.weight.toNat * 256)

def Part.handle (x : Part) (h : Nat) : BufHandle := Table.get BufHandle.reset x.handles h
def Part.setHandle (x : Part) (h : Nat) (b : BufHandle) : Part := { x with handles := Table.set x.handles h b }

/-- Word n of a pair's context (Table 21-1). -/
def Pair.word (p : Pair) (n : Nat) : W64 :=
  match n with
  | 0 => p.cfg
  | 1 => p.ring
  | 2 => p.posted
  | 3 => p.armlim
  | 4 => p.retired
  | 5 => p.err
  | _ => 0

def BufHandle.word (b : BufHandle) (n : Nat) : W64 :=
  match n with
  | 0 => b.w0
  | 1 => b.w1
  | 2 => b.w2
  | _ => b.w3

/-- The word at offset o of partition p's block. -/
def State.partRead (s : State) (p o : Nat) : W64 :=
  let x := s.partOf p
  if o = 0x00 then x.policy
  else if o = 0x08 then x.frt
  else if o = 0x10 then x.flog
  else if o = 0x18 then x.frlog
  else if o = 0x20 then x.frhead.setWidth 64
  else if o = 0x28 then x.save
  else if o = 0x30 then x.pnwin.setWidth 64
  else if o = 0x38 then x.ltick
  else if 0x100000 ≤ o && o < 0x120000 then (x.handle ((o - 0x100000) / 32)).word (o / 8 % 4)
  else if 0x200000 ≤ o && o < 0x210000 then
    let n := (o - 0x200000) / 64
    if s.pairPart n == p then (s.pairOf n).word (o / 8 % 8) else 0
  else if 0x300000 ≤ o && o < 0x320000 then
    let c := (o - 0x300000) / 8
    if s.counterPart c == p then s.counter c else 0
  else 0

/-- The byte of an aperture key as the partition that may reach it reads it. -/
def State.apertureByte (s : State) (key : Nat) : Byte :=
  let o := key - 2 ^ 62
  BitVec.ofNat 8 ((s.partRead (o / 2 ^ 32) (o % 2 ^ 32 / 8 * 8)).toNat / 2 ^ (8 * (o % 8)))

/-! ### Writing -/

/-- POLICY: FROZEN can only be cleared, and a WEIGHT of 0 is written as 1. -/
def State.writePolicy (s : State) (p : Nat) (v : W64) : State :=
  let x := s.partOf p
  s.setPart p { x with replay := v.getLsbD 0, rcnt := BitVec.ofNat 4 (field v 4 1), frozen := x.frozen && v.getLsbD 5
                       weight := if field v 15 8 = 0 then 1 else BitVec.ofNat 8 (field v 15 8) }

/-- The routes that Table 15-5 and R394, R411 and R444 allow a class. -/
def routeAllowed (c r : Nat) : Bool :=
  if c = 1 || c = 2 || c = 3 || c = 16 then true
  else if c = clsGroupBroken then r == 0
  else if c = clsDie then r == 3
  else r != 0

/-- The routes of a write, each class by itself. -/
def frtWith (old v : W64) : List Nat → Nat
  | [] => 0
  | c :: rest =>
    let n := field v (2 * c + 1) (2 * c)
    (if routeAllowed c n then n else field old (2 * c + 1) (2 * c)) * 2 ^ (2 * c) + frtWith old v rest

def State.writeFrt (s : State) (p : Nat) (v : W64) : State :=
  let x := s.partOf p
  s.setPart p { x with frt := BitVec.ofNat 64 (frtWith x.frt v ((List.range 18).drop 1)) }

/-- Launches of a partition that are not complete. -/
def Part.openLaunches (x : Part) : Nat := (x.launches.filter (fun l => !l.complete)).length

/-- The waiting doorbell writes launch, in their order, while fewer than 256 launches are open. -/
def State.admitBells (s : State) (p : Nat) : Nat → State
  | 0 => s
  | n + 1 =>
    let x := s.partOf p
    match x.bells with
    | [] => s
    | v :: rest =>
      if 256 ≤ x.openLaunches then s
      else ((s.setPart p { x with bells := rest }).addLaunch p (fun n =>
        newLaunch p n v none true 0 none none none s.ptime true)).admitBells p n

/-- A doorbell write launches with the descriptor's ARG (R355, R443); while 256 launches are open it waits.
A HOSTIO range is fresh for its first reader after it (R360). -/
def State.doorbell (s : State) (p : Nat) (v : W64) : State :=
  let x := s.partOf p
  let mark (h : Nat × BufHandle) : Nat × BufHandle := (h.1, { h.2 with hostWrote := h.2.hostWrote || h.2.w0.getLsbD 1 })
  (s.setPart p { x with handles := x.handles.map mark, bells := x.bells ++ [v] }).admitBells p (x.bells.length + 1)

/-- HANDLE: the holder is fixed while the handle is valid. Host DMA may have written the range that the handle names
now (R360). -/
def State.writeHandle (s : State) (p h n : Nat) (v : W64) : State :=
  let x := s.partOf p
  let b := x.handle h
  let b := match n with
    | 0 => { b with w0 := v &&& 0xFF }
    | 1 => { b with w1 := v &&& 0x01FFFFFFFFFFFFFF }
    | 2 => { b with w2 := v }
    | _ => if b.w0.getLsbD 0 then b else { b with w3 := v &&& 0x3FF }
  s.setPart p (x.setHandle h { b with hostWrote := true })

/-- The pair has an entry posted and not retired. -/
def Pair.busy (p : Pair) : Bool := p.posted != p.retired

/-- QPCFG (R400). -/
def State.writeQpcfg (s : State) (n : Nat) (v : W64) : State :=
  let q := s.pairOf n
  if q.busy then s
  else
    let q' := { q with cfg := v &&& 0x7FFFFFFFF }
    s.setPair n (if v.getLsbD 0 && !q.cfg.getLsbD 0 then
      { q' with posted := 0, armlim := 0, retired := 0, fired := 0, caps := [], out := [] } else q')

/-- QPRING (R400). -/
def State.writeQpring (s : State) (n : Nat) (v : W64) : State :=
  let q := s.pairOf n
  let size := field v 24 21
  if q.busy || size < 4 || 10 < size || field v 5 0 ≠ 0 || 2 ^ 21 < field v 20 0 + 64 * 2 ^ size then s
  else s.setPair n { q with ring := v &&& 0x1FFFFFF }

/-- QPERR: a write of 0 to ERR clears it (R411). -/
def State.writeQperr (s : State) (n : Nat) (v : W64) : State :=
  let q := s.pairOf n
  s.setPair n { q with err := if v.getLsbD 0 then q.err else q.err &&& ~~~1 }

/-- A unit of the partition has a strand that is not HALTED (R399, R344). -/
def State.unitRuns (s : State) (u : Nat) : Bool :=
  (List.range 8).any (fun k => (s.strand (BitVec.ofNat 10 u) (BitVec.ofNat 3 k)).run != .halted)

def State.partRuns (s : State) (p : Nat) : Bool :=
  s.strands.any (fun e => e.2.run != .halted && s.unitPart (BitVec.ofNat 10 (e.1 / 8)) == p)

/-- CNT: the value, while the partition holds no running unit (R399); a frozen counter keeps its own. -/
def State.writeCounter (s : State) (p c : Nat) (v : W64) : State :=
  if s.counterPart c != p || s.partRuns p || s.fabric.frozenCounters.contains c then s
  else { s with fabric := { s.fabric with counters := Table.set s.fabric.counters c v } }

/-- The queue of a unit of the partition whose FAULT the word at this offset clears (R337; DESIGN CHOICE, log entry 88). -/
def State.faultWordAt (s : State) (p o : Nat) : Option (Nat × Nat) :=
  ((List.range (560 * 32)).find? (fun i =>
    Config.faultOffset (i / 32) (i % 32) == o && s.unitPart (BitVec.ofNat 10 (i / 32)) == p)).map (fun i => (i / 32, i % 32))

/-- FAULT is cleared through the aperture: a held SEND starts again (R337). -/
def State.writeFaultWord (s : State) (p o : Nat) : State :=
  match s.faultWordAt p o with
  | some (u, q) => s.setCore (BitVec.ofNat 10 u) ((s.core (BitVec.ofNat 10 u)).clearFault q)
  | none => s

/-- A write of the word at offset o of partition p's block. -/
def State.partWrite (s : State) (p o : Nat) (v : W64) : State :=
  let x := s.partOf p
  if o = 0x00 then s.writePolicy p v
  else if o = 0x08 then s.writeFrt p v
  else if o = 0x10 then s.setPart p { x with flog := v &&& 0x01FFFFFFFFFFFFFF }
  else if o = 0x18 then s.setPart p { x with frlog := v &&& 0x01FFFFFFFFFFFFFF }
  else if o = 0x28 then s.setPart p { x with save := v &&& 0x01FFFFFFFFFFF000 }
  else if o = 0x30 then s.setPart p { x with pnwin := v.setWidth 32 }
  else if o = 0x20 || o = 0x38 then s
  else if 0x1000 ≤ o && o < 0x1000 + 8 * 384 then s.doorbell p v
  else if 0x100000 ≤ o && o < 0x120000 then s.writeHandle p ((o - 0x100000) / 32) (o / 8 % 4) v
  else if 0x200000 ≤ o && o < 0x210000 then
    let n := (o - 0x200000) / 64
    if s.pairPart n != p then s
    else match o / 8 % 8 with
      | 0 => s.writeQpcfg n v
      | 1 => s.writeQpring n v
      | 5 => s.writeQperr n v
      | _ => s
  else if 0x300000 ≤ o && o < 0x320000 then s.writeCounter p ((o - 0x300000) / 8) v
  else s.writeFaultWord p o

/-- Bytes that a store writes into the aperture: each word it touches is written once, the bytes it does
not name as they read (DESIGN CHOICE, log entry 23). -/
def State.storeAperture (s : State) (cells : List (Nat × Byte)) : State :=
  let cells := cells.filter (fun c => 2 ^ 62 ≤ c.1)
  let words := (cells.map (fun c => (c.1 - 2 ^ 62) / 8)).eraseDups
  words.foldl (fun (s : State) (w : Nat) =>
    let byte (i : Nat) : Byte := match cells.find? (fun c => c.1 == 2 ^ 62 + 8 * w + i) with
      | some c => c.2
      | none => s.apertureByte (2 ^ 62 + 8 * w + i)
    s.partWrite (8 * w / 2 ^ 32) (8 * w % 2 ^ 32) (BitVec.ofNat 64 (leNat ((List.range 8).map byte)))) s

end Sys2Proof.Machine
end

