-- ==== Sys2Proof/Machine/MemEvents.lean ====
section
/-! DEFINITION. What the load and store queues of a strand do by themselves: loads perform, stores become
visible, atomics perform, blocks fill and are written back, and barrier, counter and pair updates take
effect in store-queue order (R81, R120, R131, R132, R145, R150, R171, R410, R414, R368). -/

namespace Sys2Proof.Machine

/-! ### Memory as a strand's access meets it -/

/-- The byte a load of a strand takes at a key of a space: its own older store's, else the register
aperture's, a far answer's, or the byte of memory, through a slice where lines are cached (R273). -/
def State.loadByte (s : State) (u : UnitNo) (t : Strand) (seq : Nat) (rs : List FarReq) (space : Space) (k : Nat) : Byte :=
  match s.forward u t seq space k with
  | some b => b
  | none =>
    if 2 ^ 62 ≤ k then s.apertureByte k
    else if isFar k then answerByte rs k
    else if space == .cached then s.sliceByte u.toNat k
    else s.heldByte k

/-- A byte that memory has to bring is poisoned (R121). -/
def State.loadPoisoned (s : State) (u : UnitNo) (t : Strand) (seq : Nat) (space : Space) (k : Nat) : Bool :=
  (s.forward u t seq space k).isNone && !isFar k && s.poisoned k

/-- Bytes of this module become visible: aperture words are written, other bytes stored, local blocks
become dirty, and blocks of a compressed page are compressed again. -/
def State.makeVisible (s : State) (u : UnitNo) (cells : List (Nat × Byte)) (cmp : List (Nat × Nat)) : State :=
  let mem := cells.filter (fun c => c.1 < 2 ^ 62 && !isFar c.1 && !s.pinGone c.1)
  let keys := mem.map Prod.fst
  let s := ((s.storeAperture cells).writeCells mem).freshen keys
  (s.markDirty u keys).compress mem cmp

/-- Pass what markers stand at the heads after an entry has left. -/
def State.pop (s : State) (u : UnitNo) (k : StrandNo) (seq : Nat) : State := (s.dropEntry u k seq).settle u k

/-- A far answer that is a fault, if any. -/
def failOf (rs : List FarReq) : Option (BitVec 8) := rs.findSome? (·.fail)

/-! ### Loads -/

def LqKind.asSent : LqKind → LqKind
  | .load segs sp dst ty ea pc _ got => .load segs sp dst ty ea pc true got
  | k => k

def SqKind.asSent : SqKind → SqKind
  | .atomic a _ => .atomic a true
  | .posted a _ => .posted a true
  | .store cells sp ea cmp _ => .store cells sp ea cmp true
  | k => k

def State.markSent (s : State) (u : UnitNo) (k : StrandNo) (seq : Nat) : State :=
  let t := s.strand u k
  s.setStrand u k { t with
    lq := t.lq.map (fun q => if q.seq == seq then { q with kind := q.kind.asSent } else q)
    sq := t.sq.map (fun q => if q.seq == seq then { q with kind := q.kind.asSent } else q) }

/-- The load at the head of the load queue performs (R81, R120): its bytes, some of them brought before,
reach the destination, or the destination is marked (R121). -/
def State.finishLoad (s : State) (u : UnitNo) (k : StrandNo) (seq : Nat) (segs : List (Nat × Nat)) (space : Space)
    (dst : Dest) (ty : BitVec 4) (ea pc : W64) (got : List (Nat × Byte)) : State :=
  let t := s.strand u k
  let rs := s.reqsOf u k seq
  let keys := segKeys segs
  let left := keys.filter (fun a => !Table.has got a)
  let s' := s.dropReqs (fun r => r.owner == some (u.toNat, k.toNat) && r.seq == seq)
  match failOf rs, left.any (s.loadPoisoned u t seq space) with
  | some code, _ => ((s'.notePath u k rs).markBad u k ⟨seq, dst, false, code, ea, pc⟩).pop u k seq
  | none, true => (s'.markBad u k ⟨seq, dst, false, s.badCause left, ea, pc⟩).pop u k seq
  | none, false =>
    let v := leNat (keys.map (fun a => Table.get (s.loadByte u t seq rs space a) got a))
    (s'.deliver u k seq dst ty v).pop u k seq

/-- Of the pieces of 8 bytes still to come, those that come now, where a row access does not bring them all at
once: its pieces have no order (R201; DESIGN CHOICE, log entry 81). An access of 8 bytes or fewer is one piece. -/
def State.somePieces (s : State) (keys : List Nat) : List Nat :=
  let now := keys.filter (fun a => Config.pieceDone s.tick (a / 8))
  if keys.length ≤ 8 || now.isEmpty || now.length = keys.length then [] else now

/-- A load from this module: all that is left of it, or some of its pieces (R201). -/
def State.loadPieces (s : State) (u : UnitNo) (k : StrandNo) (seq : Nat) (segs : List (Nat × Nat)) (space : Space)
    (dst : Dest) (ty : BitVec 4) (ea pc : W64) (got : List (Nat × Byte)) : State :=
  let t := s.strand u k
  let now := s.somePieces ((segKeys segs).filter (fun a => !Table.has got a))
  if now.isEmpty || now.any (s.loadPoisoned u t seq space) then s.finishLoad u k seq segs space dst ty ea pc got
  else
    let got := got ++ now.map (fun a => (a, s.loadByte u t seq [] space a))
    { s.setStrand u k { t with lq := ⟨seq, .load segs space dst ty ea pc false got⟩ :: t.lq.drop 1 } with tick := s.tick + 1 }

/-- LOAD_PERFORM. A far load is sent first, and performs when its answer is here (R129). -/
def evLoadPerform (u : UnitNo) (k : StrandNo) (s : State) : State :=
  let t := s.strand u k
  match t.lq with
  | ⟨seq, .load segs space dst ty ea pc sent got⟩ :: _ =>
    let keys := segKeys segs
    if s.postedOlder t seq space segs || (space == .loc && keys.any (s.fillHolds u)) || keys.any s.readHeld then s
    else
      let far := farPieces segs
      if far.isEmpty then s.loadPieces u k seq segs space dst ty ea pc got
      else if !sent then
        if s.farFull u k (far.map Prod.fst) || s.farStoreMeets segs || keys.any (fun a => isFar a && (s.forward u t seq space a).isSome) then s
        else (s.farLoads ⟨u, k, seq, s.unitPart u, ea⟩ far).markSent u k seq
      else if answered (s.reqsOf u k seq) then s.finishLoad u k seq segs space dst ty ea pc got
      else s
  | _ => s

/-! ### Stores -/

/-- A store of these keys must wait: for an older load of them (R81.5), for a page on the move (R279) or a
change of split (R252), of a local one for a block being filled (R150), or for room toward another module
(R383). -/
def State.storeWaits (s : State) (u : UnitNo) (k : StrandNo) (seq : Nat) (space : Space) (keys : List Nat) : Bool :=
  s.loadOlder (s.strand u k) seq space keys || keys.any s.writeHeld || (space == .loc && keys.any (s.fillHolds u))
    || s.farWaits u k (flitStarts keys)

/-- STORE_VISIBLE: the store at the head of the store queue becomes visible; its far bytes are accepted
by the fabric engine (R129, R368). -/
def evStoreVisible (u : UnitNo) (k : StrandNo) (s : State) : State :=
  let t := s.strand u k
  match t.sq with
  | ⟨seq, .store cells space ea cmp sent⟩ :: _ =>
    if s.storeWaits u k seq space (cells.map Prod.fst) then s
    else
      let now := s.somePieces (cells.map Prod.fst)
      let go := if now.isEmpty then cells else cells.filter (fun c => now.contains c.1)
      let left := if now.isEmpty then [] else cells.filter (fun c => !now.contains c.1)
      if s.farWaits u k (flitStarts (go.map Prod.fst)) then s else
      let s := s.farStores ⟨u, k, seq, s.unitPart u, ea⟩ (runsOf (go.filter (fun c => isFar c.1)))
      let s := s.makeVisible u go cmp
      if left.isEmpty then s.pop u k seq
      else { s.setStrand u k { s.strand u k with sq := ⟨seq, .store left space ea cmp sent⟩ :: t.sq.drop 1 } with tick := s.tick + 1 }
  | _ => s

/-! ### Atomics -/

/-- Take an atomic's old value and write its new one; answers the old value. -/
def State.rmw (s : State) (u : UnitNo) (a : AtomicOp) : W64 × State :=
  let old := BitVec.ofNat 64 (leNat (((List.range a.bytes).map (a.key + ·)).map s.heldByte))
  let keys := (List.range a.bytes).map (a.key + ·)
  (old, s.makeVisible u (cellsOf keys (toBytes a.bytes (a.newValue old).toNat)) [])

def AtomicOp.keys (a : AtomicOp) : List Nat := (List.range a.bytes).map (a.key + ·)

/-- The atomic with a result leaves both queues: its old value reaches the destination, and sys.ATSTAT
records the site (R131, R134). -/
def State.atomicDone (s : State) (u : UnitNo) (k : StrandNo) (seq : Nat) (a : AtomicOp) (fwd : Bool)
    (site : BitVec 4) (old : W64) : State :=
  let t := s.strand u k
  let s := s.setStrand u k { t with atFwd := fwd, atSite := site }
  (s.deliver u k seq a.dst 0 old.toNat).pop u k seq

/-- The request that carries an atomic to its home on another module. -/
def State.farAtomic (s : State) (w : FarWho) (a : AtomicOp) : State :=
  s.farSend w a.key a.bytes false typeReq (fun id addr =>
    .atomic id addr (BitVec.ofNat 4 a.op) a.bytes a.x a.y a.ty a.mode a.ftz)

/-- ATOMIC_PERFORM: the atomic at the head of both queues performs at its site. -/
def evAtomicPerform (u : UnitNo) (k : StrandNo) (s : State) : State :=
  let t := s.strand u k
  match t.lq, t.sq with
  | ⟨i, .atomic⟩ :: _, ⟨j, .atomic a sent⟩ :: _ =>
    if i != j || a.keys.any s.writeHeld || (a.space == .loc && a.keys.any (s.fillHolds u)) then s
    else if isFar a.key then
      if !sent then
        if s.farFull u k [a.key] || s.farStoreMeets [(a.key, a.bytes)] then s
        else (s.farAtomic ⟨u, k, i, s.unitPart u, a.ea⟩ a).markSent u k i
      else
        let rs := s.reqsOf u k i
        if !answered rs then s
        else
          let s := s.dropReqs (fun r => r.owner == some (u.toNat, k.toNat) && r.seq == i)
          match failOf rs with
          | some code => ((s.notePath u k rs).markBad u k ⟨i, a.dst, false, code, a.ea, a.pc⟩).pop u k i
          | none => s.atomicDone u k i a (rs.any (·.fwd)) a.site (BitVec.ofNat 64 (leNat (a.keys.map (answerByte rs))))
    else if a.keys.any s.poisoned then (s.markBad u k ⟨i, a.dst, false, s.badCause a.keys, a.ea, a.pc⟩).pop u k i
    else
      let (old, s1) := s.rmw u a
      s1.atomicDone u k i a (s.liveKey a.key != a.key) (placeOf (s.liveKey a.key)).code old
  | _, _ => s

/-- POSTED_ATOMIC_PERFORM (R132): POISON at the site is routed as a memory fault. -/
def evPostedAtomicPerform (u : UnitNo) (k : StrandNo) (s : State) : State :=
  let t := s.strand u k
  match t.sq with
  | ⟨seq, .posted a _⟩ :: _ =>
    if s.storeWaits u k seq a.space a.keys then s
    else if isFar a.key then
      (s.farSend ⟨u, k, seq, s.unitPart u, a.ea⟩ a.key a.bytes true typeData (fun id addr =>
        .posted id addr (BitVec.ofNat 4 a.op) a.bytes a.x a.ty a.mode a.ftz)).pop u k seq
    else if a.keys.any s.poisoned then
      (s.routeFault (s.unitPart u) clsMemory 0 0 a.ea u k).pop u k seq
    else ((s.rmw u a).2).pop u k seq
  | _ => s

/-! ### Region blocks -/

/-- The strand of a unit whose load queue has this fill at its head, with the entry's number, and the key
of the global page and its space. -/
def State.fillHead (s : State) (u : UnitNo) (region block : Nat) : Option (StrandNo × Nat × Nat × Space) :=
  (List.range 8).findSome? (fun i =>
    let k : StrandNo := BitVec.ofNat 3 i
    match (s.strand u k).lq with
    | ⟨seq, .fill r b key sp _⟩ :: _ => if r == region && b == block then some (k, seq, key, sp) else none
    | _ => none)

/-- The fill at the head of a load queue performs as a global load of its page: the strand's own older stores
first, then what memory or the far home brought, poisoned where that is (R81.5, R150). What a lost path did not bring
is written into sys.PATHREC (R392). -/
def State.finishFill (s : State) (u : UnitNo) (k : StrandNo) (seq region block key : Nat) (space : Space)
    (rs : List FarReq) : State :=
  let t := s.strand u k
  let failed (a : Nat) : Option (BitVec 8) :=
    ((rs.find? (fun r => r.key ≤ a && a < r.key + r.bytes)).bind (fun r => r.fail))
  let bad (a : Nat) : Bool := s.loadPoisoned u t seq space a || (failed a).isSome
  let base := spadKey u.toNat ((rgnBase ((s.core u).rgnLo region) + block) * 4096)
  let s' := s.fillWith u region block (fun i => s.loadByte u t seq rs space (key + i)) (fun i => bad (key + i))
  let s' := s'.loseBytes (((List.range 4096).filter (fun i => failed (key + i) == some causePathLost)).map (base + ·))
  ((s'.notePath u k rs).dropReqs (fun r => r.owner == some (u.toNat, k.toNat) && r.seq == seq)).pop u k seq

/-- REGION_FILL (R150): the fill at the head of a load queue reads its page; a command may have filled the
block before it. -/
def evRegionFill (u : UnitNo) (region : BitVec 5) (block : BitVec 9) (s : State) : State :=
  match s.fillHead u region.toNat block.toNat with
  | none => s
  | some (k, seq, key, space) =>
    if (s.core u).isFilled region.toNat block.toNat then
      (s.dropReqs (fun r => r.owner == some (u.toNat, k.toNat) && r.seq == seq)).pop u k seq
    else if s.readHeld key || s.postedOlder (s.strand u k) seq space [(key, 4096)] then s
    else if !isFar key then s.finishFill u k seq region.toNat block.toNat key space []
    else
      let rs := s.reqsOf u k seq
      if rs.isEmpty then
        if s.farFull u k ((chunks 32 key 4096).map Prod.fst) || s.farStoreMeets [(key, 4096)]
            || (List.range 4096).any (fun i => (s.forward u (s.strand u k) seq space (key + i)).isSome) then s
        else s.farLoads ⟨u, k, seq, s.unitPart u, (s.core u).blockVa region.toNat block.toNat⟩ (chunks 32 key 4096)
      else if answered rs then s.finishFill u k seq region.toNat block.toNat key space rs
      else s

/-- The bytes a write-back carries: the block's scratchpad contents now. -/
def State.blockCells (s : State) (u : UnitNo) (block : Nat) (segs : List (Nat × Nat)) : List (Nat × Byte) :=
  cellsOf (segKeys segs) ((List.range 4096).map (fun i => s.readByte (spadKey u.toNat (block * 4096 + i))))

/-- A block whose contents are visible is clean (R145): what becomes visible later in it makes it dirty again. -/
def State.cleanBlock (s : State) (u : UnitNo) (region block : Nat) : State :=
  match (s.core u).regionOf block with
  | some (k, b) => if k == region then s.setCore u ((s.core u).setDirty k b false) else s
  | none => s

/-- A write-back of these bytes becomes visible, those of this module that are poisoned with their poison. -/
def State.writeBackCells (s : State) (u : UnitNo) (k : StrandNo) (seq : Nat) (ea : W64) (cells : List (Nat × Byte))
    (bad : List Nat) (cmp : List (Nat × Nat)) : State :=
  let s := s.farStores ⟨u, k, seq, s.unitPart u, ea⟩ (runsOf (cells.filter (fun c => isFar c.1)))
  let s := s.makeVisible u cells cmp
  s.poisonKeys (bad.filter (fun a => !isFar a))

/-- REGSYNC_WRITEBACK (R145): the block at the head of the store queue becomes visible as one unit. -/
def evRegsyncWriteback (u : UnitNo) (k : StrandNo) (s : State) : State :=
  let t := s.strand u k
  match t.sq with
  | ⟨seq, .regBlock region block segs cmp⟩ :: _ =>
    let cells := s.blockCells u block segs
    if s.storeWaits u k seq .cached (cells.map Prod.fst) then s
    else
      let ea := (s.core u).blockVa region (block - rgnBase ((s.core u).rgnLo region))
      let home := (segs.map Prod.fst).headD 0
      let bad := ((List.range 4096).filter (fun i => s.poisoned (spadKey u.toNat (block * 4096 + i)))).map (home + ·)
      ((s.cleanBlock u region block).writeBackCells u k seq ea cells bad (if cmp then segs else [])).pop u k seq
  | ⟨seq, .block cells bad cmp⟩ :: _ =>
    if s.storeWaits u k seq .cached (cells.map Prod.fst) then s
    else (s.writeBackCells u k seq 0 cells bad cmp).pop u k seq
  | _ => s

/-! ### Barriers, counters and pairs in store-queue order -/

/-- BARR_ARRIVAL (R171, R172): a core that is not present completes nothing and routes a core fault. -/
def evBarrArrival (u : UnitNo) (k : StrandNo) (s : State) : State :=
  match (s.strand u k).sq with
  | ⟨seq, .barr unit bid n⟩ :: _ =>
    let s := s.pop u k seq
    if s.unitPresent unit then s.arrive (BitVec.ofNat 10 unit) bid n
    else s.routeFault (s.unitPart u) clsCore (Config.coreDetail 0).toNat 0 0 u k
  | _ => s

/-- BINIT_EFFECT: COUNT is set and the arrivals of the phase are discarded (R172). -/
def evBinitEffect (u : UnitNo) (k : StrandNo) (s : State) : State :=
  match (s.strand u k).sq with
  | ⟨seq, .binit bid count⟩ :: _ =>
    let s := s.pop u k seq
    let c := s.core u
    let x := c.barrier bid
    if x.frozen then s
    else s.setCore u (c.changeBarrier bid { x with count := BitVec.ofNat 16 count, arrived := 0 })
  | _ => s

/-- CNTADD_RAISE (R410). -/
def evCntaddRaise (u : UnitNo) (k : StrandNo) (s : State) : State :=
  match (s.strand u k).sq with
  | ⟨seq, .cntadd c v⟩ :: _ => (s.pop u k seq).raise c v
  | _ => s

/-- QARM_EFFECT (R414): ARMLIM is at least n. -/
def evQarmEffect (u : UnitNo) (k : StrandNo) (s : State) : State :=
  match (s.strand u k).sq with
  | ⟨seq, .qarm f q n⟩ :: _ =>
    let s := s.pop u k seq
    let p := s.pairOf (64 * f + q)
    s.setPair (64 * f + q) { p with armlim := if p.armlim.toNat < n.toNat then n else p.armlim }
  | _ => s

/-! ### Far accesses at their home -/

/-- The key of an address within this module that another module names; none where it is unbacked or a
register (R270, R345). -/
def State.homeKey (s : State) (addr : BitVec 52) : Option Nat :=
  match s.localKey (addr.toNat % 2 ^ 44) with
  | some k => if 2 ^ 62 ≤ k then none else some k
  | none => none

/-- The keys of n bytes at an address another module names. -/
def State.homeKeys (s : State) (addr : BitVec 52) (n : Nat) : Option (List Nat) :=
  (s.homeKey addr).bind (fun k => if (s.homeKey (addr + BitVec.ofNat 52 (n - 1))).isSome then
    some ((List.range n).map (k + ·)) else none)

/-- Answer module m (DESIGN CHOICE, log entry 22: through port 0 of engine e). -/
def State.answer (s : State) (e m : Nat) (msg : FabMsg) : State := s.postTo (4 * e) m typeResp msg

/-- An atomic of another module as its home performs it. -/
def homeAtomic (key : Nat) (op : BitVec 4) (bytes : Nat) (x y : W64) (ty : BitVec 4) (mode : BitVec 3) (ftz : Bool) :
    AtomicOp :=
  { op := op.toNat, space := .direct, key := key, bytes := bytes, x := x, y := y, ty := ty, mode := mode, ftz := ftz, dst := .none
    site := 0xB, ea := 0, pc := 0 }

/-- A store, atomic, posted atomic or load of another module takes effect at its home; the answer to an atomic says
whether it was forwarded across a migration there (R280). -/
def State.performFar (s : State) (e m : Nat) (msg : FabMsg) : State :=
  match msg with
  | .store id addr data =>
    let s := match s.homeKeys addr data.length with
      | some ks => s.makeVisible 1023 (cellsOf ks data) []
      | none => s
    s.answer e m (.done id)
  | .posted id addr op bytes x ty mode ftz =>
    let s := match s.homeKeys addr bytes with
      | some ks =>
        if ks.any s.poisoned then s.routeFault 32 clsMemory 0 0 0 0 0
        else (s.rmw 1023 (homeAtomic (ks.headD 0) op bytes x 0 ty mode ftz)).2
      | none => s
    s.answer e m (.done id)
  | .load id addr n =>
    match s.homeKeys addr n with
    | some ks => s.answer e m (.value id (ks.map s.readByte) (ks.any s.poisoned) false)
    | none => s.answer e m (.value id (List.replicate n 0) true false)
  | .atomic id addr op n x y ty mode ftz =>
    match s.homeKeys addr n with
    | some ks =>
      if ks.any s.poisoned then s.answer e m (.value id (List.replicate n 0) true false)
      else
        let (old, s1) := s.rmw 1023 (homeAtomic (ks.headD 0) op n x y ty mode ftz)
        s1.answer e m (.value id (toBytes n old.toNat) false (ks.any (fun k => s.liveKey k != k)))
    | none => s.answer e m (.value id (List.replicate n 0) true false)
  | _ => s

/-- The first far store from module m that has not arrived at its home. -/
def Fabric.nextFrom (f : Fabric) (m : BitVec 6) : Option FarIn := f.inbox.find? (fun x => x.src == m)

def State.dropIn (s : State) (x : FarIn) : State := { s with fabric := { s.fabric with inbox := s.fabric.inbox.erase x } }

/-- The bytes of this module that a store or atomic of another one writes. -/
def State.farKeys (s : State) (msg : FabMsg) : List Nat :=
  match msg with
  | .store _ addr data => (s.homeKeys addr data.length).getD []
  | .posted _ addr _ bytes _ _ _ _ | .atomic _ addr _ bytes _ _ _ _ _ => (s.homeKeys addr bytes).getD []
  | _ => []

/-- A far store or atomic waits at a page on the move (R279). -/
def State.farHeld (s : State) (msg : FabMsg) : Bool := (s.farKeys msg).any s.writeHeld

/-- FAR_STORE_ARRIVE (R368): in the order in which the flits of module m were passed; a request that came behind a held
one is served in its turn too (R279, R387). -/
def evFarStoreArrive (m : BitVec 6) (s : State) : State :=
  match s.fabric.nextFrom m with
  | none => s
  | some x => if s.farHeld x.msg then s else (s.dropIn x).performFar (x.engine) m.toNat x.msg

/-! ### What a home has held -/

/-- Of what other modules sent and the home of frame f held, all that no other message of its module is in front of is
performed, in arrival order (R279). -/
def State.forwardIn (s : State) (f : Nat) : List (BitVec 6) → List FarIn → State
  | _, [] => s
  | stuck, x :: rest =>
    if !stuck.contains x.src && (s.farKeys x.msg).any (fun k => k / 4096 == f) then
      ((s.dropIn x).performFar x.engine x.src.toNat x.msg).forwardIn f stuck rest
    else s.forwardIn f (x.src :: stuck) rest

/-- A write of the Hive or of a parameter node becomes visible, and raises its counter. -/
def State.performHeld (s : State) (w : HeldWrite) : State :=
  let s := s.makeVisible (BitVec.ofNat 10 w.unit) w.cells []
  match w.counter with
  | some c => s.raise c 1
  | none => s

/-- Of writes that wait, those that nothing holds any more become visible, in their order. -/
def State.releaseWrites (s : State) : List HeldWrite → State
  | [] => s
  | w :: rest =>
    if w.cells.any (fun c => s.writeHeld c.1) then (s.holdWrite w.unit w.cells w.counter).releaseWrites rest
    else (s.performHeld w).releaseWrites rest

def State.releaseHeld (s : State) : State :=
  State.releaseWrites { s with homes := { s.homes with heldWrites := [] } } s.homes.heldWrites

/-- What the home of frame f held goes on, at the commit or the abort of its move (R279, R281). -/
def State.letGo (s : State) (f : Nat) : State := (s.forwardIn f [] s.fabric.inbox).releaseHeld

end Sys2Proof.Machine
end

