-- ==== Sys2Proof/Machine/VecMove.lean ====
section
/-! DEFINITION. V.CVT, V.RED, V.PACK, V.PERM, V.GEN and V.MOV (R187 to R199). -/

namespace Sys2Proof.Machine

/-! ### V.CVT (R187 to R189) -/

/-- Element i of a row in format c (R188); MXFP4 elements come with their block scale. -/
def rowElem (c : Nat) (r : Row) (i : Nat) : Val :=
  let bits := r.toNat / 2 ^ (codeWidth c * i) % 2 ^ codeWidth c
  if c = 5 then .flt (mxValue (r.toNat / 2 ^ (8 * (128 + i / 32)) % 256) bits)
  else valOf c bits

/-- Conv of one element of VCVT; nibble types go exactly to E4M3 (R15, R189). -/
def vconv (dst : Nat) (m : Mode) (sat ftz : Bool) (v : Val) : Nat :=
  match v with
  | .flt _ => convTo dst m sat ftz v
  | .int x => if isFloatCode dst then (fmtOf dst).roundTo m sat ftz (FV.ofInt x) else (ityOf dst).fit sat x

/-- Replace bits [lo + n - 1 : lo] of a row. -/
def rowPut (r : Row) (lo n v : Nat) : Row :=
  BitVec.ofNat 2048 (r.toNat - r.toNat / 2 ^ lo % 2 ^ n * 2 ^ lo + v % 2 ^ n * 2 ^ lo)

/-- Put consecutive elements of W bits into a row from element i on. -/
def rowPutLanes (W : Nat) (r : Row) (i : Nat) (l : List Nat) : Row :=
  rowPut r (W * i) (W * l.length) (joinLanes W l)

/-- Write MXFP4 blocks from block b on: elements, then the scale byte (R188). -/
def putBlocks (m : Nat → Nat → Mode) (sat ftz : Bool) (r : Row) (b : Nat) : List (List FV) → Row
  | [] => r
  | vs :: rest =>
    let blk := mxBlock (m b) sat ftz vs
    let r1 := rowPutLanes 4 r (32 * b) blk.2
    putBlocks m sat ftz (rowPut r1 (8 * (128 + b)) 8 blk.1) (b + 1) rest

/-- Lists of 32 values. -/
def chunks32 : Nat → List FV → List (List FV)
  | 0, _ => []
  | k + 1, l => l.take 32 :: chunks32 k (l.drop 32)

def Val.fv : Val → FV
  | .flt v => v
  | .int x => FV.ofInt x

/-- Elements of a format that VCVT counts in a row: an MXFP4 row holds eight blocks (R188). -/
def cvtCount (c : Nat) : Nat := if c = 5 then 256 else rowCount c

/-- VCVT (R189). The stream of an element is its destination lane. In RSTO it takes a counter value whatever its pair of
formats, one that never rounds too (R20, R181; DESIGN CHOICE, log entry 90). -/
def slotVcvt (y : Syl) (s : State) (c : Ctx) : Rd Done := do
  let src := y.form.toNat % 16
  let dst := y.ty.toNat
  let sat := y.form.toNat / 16 == 1
  let p := fieldNo y.s2
  let ns := cvtCount src
  let nd := cvtCount dst
  let x ← readV s y.s1
  let m := s.modeOf y.rm
  let md := fun i => s.modeAt m c.ctr i
  let d ←
    if nd ≤ ns then
      putV s y (packRow (codeWidth dst) ((List.range nd).map (fun j =>
        vconv dst (md j) sat s.me.ftz (rowElem src x (p * nd + j)))))
    else do
      let old ← readRowKey s (s.vKey y.d)
      if dst = 5 then
        let vs := (List.range ns).map (fun j => (rowElem src x j).fv)
        putV s y (putBlocks (fun b i => md (32 * b + i)) sat s.me.ftz old (p * ns / 32)
          (chunks32 (ns / 32) vs))
      else
        putV s y (rowPutLanes (codeWidth dst) old (p * ns) ((List.range ns).map (fun j =>
          vconv dst (md (p * ns + j)) sat s.me.ftz (rowElem src x j))))
  .ok (d.counted m)

/-! ### V.RED (R191, R192) -/

/-- The operators of reductions and scans. -/
inductive RedOp where
  | sum | min | max
  deriving DecidableEq, Repr

/-- One level of the fixed tree: lanes 2j and 2j + 1 combine (Table 1-6). -/
def treeLevel (op : Nat → Nat → Nat) : List Nat → List Nat
  | a :: b :: l => op a b :: treeLevel op l
  | l => l

/-- The tree of k levels. -/
def treeReduce (op : Nat → Nat → Nat) : Nat → List Nat → Nat
  | 0, l => lane l 0
  | k + 1, l => treeReduce op k (treeLevel op l)

/-- The floating operator of a node: one rounding for a sum, the selection of R106 otherwise. -/
def redFlt (o : RedOp) (f : FFmt) (m : Mode) (ftz : Bool) (a b : Nat) : Nat :=
  match o with
  | .sum => faddElem f m ftz false a b
  | .min => f.select false ftz a b
  | .max => f.select true ftz a b

/-- The identity of a floating operator: -0, +infinity, -infinity. -/
def redIdFlt (o : RedOp) (f : FFmt) : Nat :=
  match o with
  | .sum => f.signed true 0
  | .min => f.infinite false false
  | .max => f.infinite false true

/-- The exact integer operator and its identity. -/
def redInt (o : RedOp) (a b : Int) : Int :=
  match o with
  | .sum => a + b
  | .min => Min.min a b
  | .max => Max.max a b

def redIdInt (o : RedOp) (t : ITy) : Int :=
  match o with
  | .sum => 0
  | .min => t.max
  | .max => t.min

/-- The mask of a reduction: S3 when FORM[4] = 1. -/
def maskLanes (W : Nat) (y : Syl) (s : State) : Rd (List Bool) := do
  if bit y.form 4 then
    let m ← readM s y.s3
    .ok (activeLanes W (some m))
  else .ok (activeLanes W none)

def withIdentity {α : Type} (e : α) (on : List Bool) (l : List α) : List α :=
  List.zipWith (fun b x => if b then x else e) on l

/-- The running results s_0 ... of a scan. -/
def scanFrom {α : Type} (op : Nat → α → α → α) : Nat → α → List α → List α
  | _, _, [] => []
  | j, acc, x :: xs =>
    let r := op j acc x
    r :: scanFrom op (j + 1) r xs

/-- A reduction: FORM[2] = 0 for the floating operators, 1 for the integer ones. -/
def reduceForm (o : RedOp) (y : Syl) (s : State) (c : Ctx) : Rd Done := do
  let x ← readV s y.s1
  if bit y.form 2 then
    let t := elemTy y.ty
    let on ← maskLanes t.width y s
    let l := withIdentity (redIdInt o t) on ((rowLanes t.width x).map t.read)
    putW s y (t.extend32 (t.fit (satBit y.ty) (l.foldl (redInt o) (redIdInt o t))))
  else
    let f := elemFmt y.ty
    let on ← maskLanes f.width y s
    let m := s.modeOf y.rm
    let l := withIdentity (redIdFlt o f) on (rowLanes f.width x)
    let d ← putW s y (BitVec.ofNat 32 (treeReduce (redFlt o f (s.modeAt m c.ctr 0) s.me.ftz) 7 l))
    .ok (d.counted m)

/-- A scan: lane j gets the fold of lanes 0 to j (R192). An integer sum is exact, and wraps or
saturates at each lane written. -/
def scanForm (o : RedOp) (y : Syl) (s : State) (c : Ctx) : Rd Done := do
  let x ← readV s y.s1
  if bit y.form 2 then
    let t := elemTy y.ty
    let on ← maskLanes t.width y s
    let l := withIdentity (redIdInt o t) on ((rowLanes t.width x).map t.read)
    putV s y (packRow t.width ((scanFrom (fun _ => redInt o) 0 (redIdInt o t) l).map
      (t.fit (satBit y.ty))))
  else
    let f := elemFmt y.ty
    let on ← maskLanes f.width y s
    let m := s.modeOf y.rm
    let l := withIdentity (redIdFlt o f) on (rowLanes f.width x)
    let d ← putV s y (packRow f.width
      (scanFrom (fun j => redFlt o f (s.modeAt m c.ctr j) s.me.ftz) 0 (redIdFlt o f) l))
    .ok (d.counted m)

def slotVredsum (y : Syl) (s : State) (c : Ctx) : Rd Done := reduceForm .sum y s c
def slotVredmin (y : Syl) (s : State) (c : Ctx) : Rd Done := reduceForm .min y s c
def slotVredmax (y : Syl) (s : State) (c : Ctx) : Rd Done := reduceForm .max y s c
def slotVscansum (y : Syl) (s : State) (c : Ctx) : Rd Done := scanForm .sum y s c
def slotVscanmin (y : Syl) (s : State) (c : Ctx) : Rd Done := scanForm .min y s c
def slotVscanmax (y : Syl) (s : State) (c : Ctx) : Rd Done := scanForm .max y s c

/-! ### V.PACK (R193, R194) -/

/-- The active lanes in order. -/
def activeOf (on : List Bool) (l : List Nat) : List Nat :=
  (List.zip on l).filterMap (fun p => if p.1 then some p.2 else none)

/-- Write a lane count to a w register. -/
def writeCount (cnt : BitVec 6) (n : Nat) (t : State) : State :=
  t.setMe ((t.me.clearBad (.w cnt.toNat)).setW cnt (BitVec.ofNat 32 n))

/-- VCOMP: the packed row to D, the count to the w register that S2 names, even with NWB (R193). -/
def slotVcomp (y : Syl) (s : State) : Rd Done := do
  let W := modeWidth y.ty
  let x ← readV s y.s1
  let m ← readM s y.s3
  let packed := activeOf (activeLanes W (some m)) (rowLanes W x)
  let cnt := BitVec.ofNat 6 (fieldNo y.s2)
  s.writable (.w cnt.toNat)
  let d ← putV s y (packRow W packed)
  .ok { d with apply := fun t => writeCount cnt packed.length (d.apply t) }

/-- The expansion of packed lanes to the active positions; inactive lanes are 0. -/
def expandLanes : List Bool → List Nat → List Nat
  | [], _ => []
  | true :: on, l => lane l 0 :: expandLanes on (l.drop 1)
  | false :: on, l => 0 :: expandLanes on l

/-- VEXPD (R194). -/
def slotVexpd (y : Syl) (s : State) : Rd Done := do
  let W := modeWidth y.ty
  let x ← readV s y.s1
  let m ← readM s y.s3
  putV s y (packRow W (expandLanes (activeLanes W (some m)) (rowLanes W x)))

/-! ### V.PERM (R195) -/

/-- A permute of two rows: lane j of the result from the lanes of both. -/
def permForm (pick : Nat → List Nat → List Nat → Nat → Nat) (y : Syl) (s : State) : Rd Done := do
  let W := modeWidth y.ty
  let n := 2048 / W
  let x ← readV s y.s1
  let z ← src2V s y W
  putV s y (packRow W ((List.range n).map (pick n (rowLanes W x) (rowLanes W z))))

def slotVperm (y : Syl) (s : State) : Rd Done := permForm (fun n x z j => lane x (lane z j % n)) y s
def slotVzipl (y : Syl) (s : State) : Rd Done :=
  permForm (fun _ x z j => if j % 2 = 0 then lane x (j / 2) else lane z (j / 2)) y s
def slotVziph (y : Syl) (s : State) : Rd Done :=
  permForm (fun n x z j => if j % 2 = 0 then lane x (n / 2 + j / 2) else lane z (n / 2 + j / 2)) y s
def slotVuzpe (y : Syl) (s : State) : Rd Done :=
  permForm (fun n x z j => if j < n / 2 then lane x (2 * j) else lane z (2 * (j - n / 2))) y s
def slotVuzpo (y : Syl) (s : State) : Rd Done :=
  permForm (fun n x z j => if j < n / 2 then lane x (2 * j + 1) else lane z (2 * (j - n / 2) + 1)) y s

/-- VROTR: S2 is a w register or LIT. -/
def slotVrotr (y : Syl) (s : State) : Rd Done := do
  let W := modeWidth y.ty
  let n := 2048 / W
  let x ← readV s y.s1
  let k ← src2W s y
  let l := rowLanes W x
  putV s y (packRow W ((List.range n).map (fun j => lane l ((j + k.toNat) % n))))

/-! ### V.GEN (R196, R198) -/

def slotVsplat (y : Syl) (s : State) : Rd Done := do
  let W := modeWidth y.ty
  let v ← src2W s y
  putV s y (packRow W (List.replicate (2048 / W) v.toNat))

def slotViota (y : Syl) (s : State) : Rd Done := do
  let W := modeWidth y.ty
  let v ← src2W s y
  putV s y (packRow W ((List.range (2048 / W)).map (fun j => v.toNat + j)))

def slotVrand (y : Syl) (s : State) : Rd Done := do
  let key ← readA s y.s1
  let first ← readW s y.s2
  let ctr ← readW s y.s3
  putV s y (packRow 32 ((List.range 64).map (fun j =>
    (genG key ((first.toNat + j) % 2 ^ 32) ctr.toNat).toNat)))

/-! ### V.MOV (R199) -/

/-- VEXT: lane k of Src1, extended by the signedness. -/
def slotVext (y : Syl) (s : State) : Rd Done := do
  let t := elemTy y.ty
  let x ← readV s y.s1
  let k ← src2W s y
  needOp (k.toNat < 2048 / t.width)
  putW s y (t.extend32 (lane (rowLanes t.width x) k.toNat))

/-- VINS reads the row it writes. -/
def slotVins (y : Syl) (s : State) : Rd Done := do
  let W := modeWidth y.ty
  let v ← readW s y.s1
  let k ← src2W s y
  needOp (k.toNat < 2048 / W)
  let old ← readRowKey s (s.vKey y.d)
  putV s y (rowPutLanes W old k.toNat [v.toNat])

def slotVmov (y : Syl) (s : State) : Rd Done := do
  let z ← src2V s y (modeWidth y.ty)
  putV s y z

end Sys2Proof.Machine
end

