-- ==== Sys2Proof/Machine/Engines.lean ====
section
/-! DEFINITION. What engine commands share: the statuses, how a command reaches memory (R150, R151, R227),
tensors (R152, R153), and the start of a command at the head of its queue (R161, R165, R212). -/

namespace Sys2Proof.Machine

/-! ### Statuses (Tables 6-6, 8-3, 10-4, 15-4) -/

def stOk : BitVec 8 := 0x00
def stBadTensor : BitVec 8 := 0x01
def stXlateFault : BitVec 8 := 0x02
def stPoisoned : BitVec 8 := 0x03
def stSkipped : BitVec 8 := 0x04
def stSpadRange : BitVec 8 := 0x05
def stBadShape : BitVec 8 := 0x10
def stBadField : BitVec 8 := 0x11
def stMismatch : BitVec 8 := 0x12
def stBadChain : BitVec 8 := 0x13
def stStreamStale : BitVec 8 := 0x14
def stStreamDup : BitVec 8 := 0x15
def stCopyAlign : BitVec 8 := 0x16
def stOverlap : BitVec 8 := 0x17
def stBadSparse : BitVec 8 := 0x18
def stFeedFailed : BitVec 8 := 0x19
def stPartnerFault : BitVec 8 := 0x1A
def stPartnerLate : BitVec 8 := 0x1B
def stPairMismatch : BitVec 8 := 0x1C
def stCircNotLive : BitVec 8 := 0x1D
def stCircLost : BitVec 8 := 0x1E
def stWrongEnd : BitVec 8 := 0x1F

/-- A command under way: its unit and queue, its queue entry, and a status it already has (SKIPPED,
FEED-FAILED of a follow-on, POISONED of a bad entry, BAD-CHAIN). -/
structure CmdCtx where
  unit : UnitNo
  queue : Nat
  e : QEntry
  pre : Option (BitVec 8)

/-- The rights captured at ENQ (R293). -/
def State.cmdWho (s : State) (x : CmdCtx) : Who := ⟨x.unit, s.unitPart x.unit, x.e.sup, x.e.pkr⟩

/-- The mode of a command's element (R16, R20). -/
def CmdCtx.modeAt (x : CmdCtx) (rm : BitVec 3) (stream : Nat) : Mode := mkMode rm x.e.key x.e.ctr.toNat stream

/-- Why a command fails: its status, the address its fault names, and the translation fault word of an
XLATE-FAULT (R294). -/
structure CmdErr where
  status : BitVec 8
  addr : W64
  word : W64
  deriving DecidableEq, Repr

/-- A command that fails for that. -/
def CmdOut.failed (e : CmdErr) : CmdOut := { CmdOut.plain e.status e.addr with xword := e.word }

/-- What stands for a command that cannot start yet: nothing that memory holds back lets it read (R279, R297, R368). -/
def stWait : BitVec 8 := 0xFF
def waitErr : CmdErr := ⟨stWait, 0, 0⟩

/-- The failure of a command that cannot translate an address (R294, R306). -/
def xlateErr (f : XFault) (a : W64) : CmdErr := if f.isPoison then ⟨stPoisoned, 0, 0⟩ else ⟨stXlateFault, a, f.word⟩

/-! ### Reaching memory -/

/-- Bytes a command reaches: first key, length, whether their page has CMP set, and the address of the
first. -/
structure Seg where
  key : Nat
  len : Nat
  cmp : Bool
  va : W64
  deriving DecidableEq, Repr

def keysOfSegs (l : List Seg) : List Nat := segKeys (l.map (fun g => (g.key, g.len)))

/-- The blocks of compressed pages among segments. -/
def packedOf (l : List Seg) : List Nat :=
  ((l.filter (·.cmp)).flatMap (fun g => (List.range (g.len / 512 + 2)).map (g.key / 512 + ·))).filter
    (fun b => l.any (fun g => g.cmp && g.key / 512 ≤ b && b ≤ (g.key + g.len - 1) / 512))

/-- The byte of a key lies in a cluster's pinned storage. -/
def isPinned (k : Nat) : Bool := match placeOf k with
  | .pinned _ => true
  | _ => false

/-- The bytes of other modules and of pinned storage among segments, whose addresses a fault at completion names
(R252, R393). -/
def farsOf (l : List Seg) : List (Nat × Nat × W64) :=
  (l.filter (fun g => isFar g.key || isPinned g.key)).map (fun g => (g.key, g.len, g.va))

/-- A completion that writes cells in these segments. -/
def CmdOut.writing (o : CmdOut) (segs : List Seg) (cells : List (Nat × Byte)) : CmdOut :=
  { o with cells := cells, packed := packedOf segs, fars := farsOf segs }

/-- A walk for an address has to wait for an eviction (R297). -/
def State.pieceWaits (s : State) (w : Who) (ea : W64) : Bool := (s.tlbFind w ea).isNone && s.walkWaits w.part ea

/-- A command's read of these bytes waits: for accesses that a move forwards (R279), for a change of split (R252), or
for a far store of this module that has been accepted and has not arrived (R368). -/
def State.readWaits (s : State) (segs : List (Nat × Nat)) : Bool :=
  s.farStoreMeets segs || segs.any (fun g => s.readHeld g.1)

/-- Note the bytes that a start reads at their home: those a slice holds as they were, behind a leaf that caches
nothing (R273). -/
def State.noteDirect (s : State) (u : UnitNo) (hs : List (Hit × Nat)) : State :=
  let keys := segKeys (hitSegs (hs.filter (fun h => spaceOf [h] != .cached)))
  let old := keys.filter (Table.has (s.cluster (u.toNat / 16)).stale)
  match (s.core u).reach with
  | some r => if old.isEmpty then s else s.setCore u { s.core u with reach := some { r with direct := old ++ r.direct } }
  | none => s

/-- Note a global range that the start has translated (R300). -/
def State.noteVa (s : State) (u : UnitNo) (ea : W64) (n : Nat) : State :=
  match (s.core u).reach with
  | some r => s.setCore u { s.core u with reach := some { r with vas := (ea, n) :: r.vas } }
  | none => s

/-- The far bytes among segments, with the address of the first: they have been brought, or what is missing is noted; a
lost or poisoned one is the POISONED of a command (R380, R392; DESIGN CHOICE, log entry 11). -/
def State.reachFar (s : State) (u : UnitNo) (segs : List (Nat × Nat)) (va : W64) : Except CmdErr Unit × State :=
  let pieces := farPieces segs
  match (s.core u).reach with
  | some r =>
    let rs := s.markReqs u r.mark
    let miss := notAsked rs pieces
    let mine := rs.filter (fun q => pieces.any (fun p => rangesMeet p.1 p.2 q.key q.bytes))
    if !miss.isEmpty then
      (.error waitErr, s.setCore u { s.core u with reach := some { r with need := miss.map (fun p => (p.1, p.2, va)) } })
    else if mine.any FarReq.waits then (.error waitErr, s)
    else if (failOf mine).isSome then (.error ⟨stPoisoned, 0, 0⟩, s)
    else (.ok (), s)
  | none => (.ok (), s)

/-- The reads of a mark are over. -/
def State.endReach (s : State) (u : UnitNo) (mark : Nat) : State :=
  (s.setCore u { s.core u with reach := none }).dropReqs (fun r => r.owner == some (u.toNat, mark))

/-- A byte as a command reads it (DESIGN CHOICE, log entry 11 for another module's that nothing has brought). -/
def State.engByte (s : State) (u : UnitNo) (k : Nat) : Byte :=
  if 2 ^ 62 ≤ k then s.apertureByte k
  else match (s.core u).reach with
    | some r =>
      if isFar k then answerByte (s.markReqs u r.mark) k
      else if r.direct.contains k then s.heldByte k
      else s.sliceByte u.toNat k
    | none => if isFar k then Config.farByte s.tick k else s.sliceByte u.toNat k

/-- Fill block n of the unit's scratchpad if a region maps it and it is not filled (R150, R151). -/
def State.fillOne (s : State) (w : Who) (n : Nat) : Except CmdErr Unit × State :=
  let c := s.core w.unit
  match c.regionOf n with
  | none => (.ok (), s)
  | some (k, b) =>
    if c.isFilled k b then (.ok (), s)
    else if c.badRgns.contains k then (.error (xlateErr ⟨0, 0, .read, 0, 0⟩ (c.blockVa k b)), s)
    else if s.pieceWaits w (c.blockVa k b) then (.error waitErr, s)
    else match s.translate w (c.blockVa k b) .read .demand with
      | (.error f, s1) => (.error (xlateErr f (c.blockVa k b)), s1)
      | (.ok h, s0) =>
        let s1 := s0.noteVa w.unit (c.blockVa k b) 4096
        if s1.readWaits [(h.key, 4096)] then (.error waitErr, s1)
        else match s1.reachFar w.unit [(h.key, 4096)] (c.blockVa k b) with
          | (.error e, s2) => (.error e, s2)
          | (.ok _, s2) =>
            let s3 := s2.noteDirect w.unit [(h, 4096)]
            (.ok (), s3.fillWith w.unit k b (fun i => s3.engByte w.unit (h.key + i)) (fun i => !isFar h.key && s3.poisoned (h.key + i)))

def State.fillMany (s : State) (w : Who) : List Nat → Except CmdErr Unit × State
  | [] => (.ok (), s)
  | n :: rest =>
    match s.fillOne w n with
    | (.error e, s1) => (.error e, s1)
    | (.ok _, s1) => s1.fillMany w rest

/-- The scratchpad blocks of n bytes from a on. -/
def blockRange (a n : Nat) : List Nat :=
  if n = 0 then [] else (List.range ((a + n - 1) / 4096 - a / 4096 + 1)).map (a / 4096 + ·)

/-- Reach n bytes of scratchpad or of global memory. -/
def State.touch (s : State) (w : Who) (loc : Bool) (acc : Acc) (ea : W64) (n : Nat) :
    Except CmdErr (List Seg) × State :=
  if loc then
    if 2 ^ 21 < ea.toNat + n then (.error ⟨stSpadRange, 0, 0⟩, s)
    else match s.fillMany w (blockRange ea.toNat n) with
      | (.error e, s1) => (.error e, s1)
      | (.ok _, s1) => (.ok [⟨spadKey w.unit.toNat ea.toNat, n, false, ea⟩], s1)
  else if (piecesOf ea n).any (fun p => s.pieceWaits w p.1) then (.error waitErr, s)
  else match s.translateRange w acc .demand (piecesOf ea n) with
    | (.error (f, a), s1) => (.error (xlateErr f a), s1)
    | (.ok hs, s0) =>
      let s1 := s0.noteVa w.unit ea n
      let segs := (hs.zip (piecesOf ea n)).map (fun (p : (Hit × Nat) × (W64 × Nat)) => ⟨p.1.1.key, p.1.2, leafCmp p.1.1.entry.leaf, p.2.1⟩)
      if acc != .read then (.ok segs, s1)
      else if s1.readWaits (hitSegs hs) then (.error waitErr, s1)
      else match s1.reachFar w.unit (hitSegs hs) ea with
        | (.error e, s2) => (.error e, s2)
        | (.ok _, s2) => (.ok segs, s2.noteDirect w.unit hs)

/-- Reach several ranges in order; the segments of each. -/
def State.touchAll (s : State) (w : Who) (loc : Bool) (acc : Acc) :
    List (W64 × Nat) → Except CmdErr (List (List Seg)) × State
  | [] => (.ok [], s)
  | (ea, n) :: rest =>
    match s.touch w loc acc ea n with
    | (.error e, s1) => (.error e, s1)
    | (.ok g, s1) =>
      match s1.touchAll w loc acc rest with
      | (.error e, s2) => (.error e, s2)
      | (.ok gs, s2) => (.ok (g :: gs), s2)

def State.engPoison (s : State) (keys : List Nat) : Bool := keys.any (fun k => !isFar k && s.poisoned k)

/-- The bytes of segments as a little-endian number. -/
def State.engNat (s : State) (u : UnitNo) (l : List Seg) : Nat := leNat ((keysOfSegs l).map (s.engByte u))

/-! ### Tensors (R152, R153) -/

structure Tens where
  fmt : Nat
  glob : Bool
  v : Bool
  tsc : Nat
  rows : Nat
  cols : Nat
  base : W64
  pitch : Nat
  spitch : Nat
  sbase : W64
  deriving DecidableEq, Repr

def Core.tens (c : Core) (n : Nat) : Tens :=
  let e := Table.get 0 c.tids n
  { fmt := field e 3 0, glob := bit e 4, v := bit e 5, tsc := field e 15 8, rows := field e 31 16 + 1
    cols := field e 47 32 + 1, base := slice e 64 64, pitch := field e 159 128, spitch := field e 191 160
    sbase := slice e 192 64 }

def Tens.width (t : Tens) : Nat := codeWidth t.fmt
def Tens.rowBytes (t : Tens) : Nat := (t.cols * t.width + 7) / 8

/-- The checks of R153 for a command that accepts some formats. -/
def Core.tensorOk (c : Core) (n : Nat) (accepts : Nat → Bool) : Bool :=
  let t := c.tens n
  !c.badTids.contains n && t.v && t.fmt != 6 && t.fmt != 7 && accepts t.fmt
    && t.tsc != 255 && (t.tsc == 127 || isFloatCode t.fmt || t.fmt == 5)
    && t.base.toNat % 16 == 0 && t.pitch % 16 == 0 && t.rowBytes ≤ t.pitch
    && (t.fmt != 5 || t.cols % 32 == 0) && (t.fmt < 14 || t.cols % 2 == 0)
    && (t.fmt == 5 || (t.sbase == 0 && t.spitch == 0))
    && (if t.glob then canonical t.base && canonical t.sbase
        else t.base.toNat + (t.rows - 1) * t.pitch + t.rowBytes ≤ 2 ^ 21
          && (t.fmt != 5 || t.sbase.toNat + (t.rows - 1) * t.spitch + t.cols / 32 ≤ 2 ^ 21))

/-- The bytes of rows r0 .. r0 + nr - 1, elements c0 .. c0 + nc - 1. -/
def Tens.ranges (t : Tens) (r0 nr c0 nc : Nat) : List (W64 × Nat) :=
  (List.range nr).map (fun r => (t.base + BitVec.ofNat 64 ((r0 + r) * t.pitch + c0 * t.width / 8), (nc * t.width + 7) / 8))

/-- The scale bytes of a window of an MXFP4 tensor. -/
def Tens.scaleRanges (t : Tens) (r0 nr c0 nc : Nat) : List (W64 × Nat) :=
  if t.fmt = 5 then
    (List.range nr).map (fun r => (t.sbase + BitVec.ofNat 64 ((r0 + r) * t.spitch + c0 / 32), nc / 32))
  else []

/-- A window lies in the tensor. -/
def Tens.holds (t : Tens) (r0 nr c0 nc : Nat) : Bool := r0 + nr ≤ t.rows && c0 + nc ≤ t.cols

/-! ### Starting a command -/

/-- A command's meaning: what it does now, and what it will do at completion. -/
abbrev CmdFun := CmdCtx → Cmd → State → CmdOut × State

/-- The same, where the outcome may still be open (PACC). -/
abbrev CmdStart := CmdCtx → Cmd → State → Option CmdOut × Option PairMsg × State

/-- What a command that has a status beforehand does, where its entry says nothing more. -/
def guarded (f : CmdFun) : CmdFun := fun x c s =>
  match x.pre with
  | some st => (CmdOut.plain st 0, s)
  | none => f x c s

def opConsumes (op : Nat) : Bool := op == 1 || op == 2

/-- The chain rule of R212: the queue's chain after a command, and whether the command breaks it. -/
def chainStep (chain : Option (BitVec 3)) (op : Nat) (c : Cmd) : Option (BitVec 3) × Bool :=
  let td : BitVec 3 := slice c.pay 0 3
  let chn := field c.pay 5 4
  match chain with
  | some t =>
    if opConsumes op && 2 ≤ chn && t == td then (if chn = 3 then none else some t, false) else (none, true)
  | none =>
    if opConsumes op && 2 ≤ chn then (none, true)
    else if opConsumes op && chn = 1 then (some td, false)
    else (none, false)

/-- The status a command at the head of queue q has before it runs (R165, R175, R212, R220). -/
def preStatus (x : Queue) (e : QEntry) (op : Nat) (breaks : Bool) : Option (BitVec 8) :=
  if x.fault != 0 && op != 0x3F then some stSkipped
  else if e.failed then some stFeedFailed
  else if e.bad then some stPoisoned
  else if breaks then some stBadChain
  else none

/-! ### When an engine takes a command (R161, R207, R212, R219, R258) -/

def rpA (c : Core) : Nat := field c.mxpos 31 0
def rpB (c : Core) : Nat := field c.mxpos 63 32
def Core.slotA (c : Core) (p : Nat) : FSlot := c.slotOf false (p % 4)
def Core.slotB (c : Core) (p : Nat) : FSlot := c.slotOf true (p % 4)

/-- The slots of B that a consuming command reads. -/
def bCount (sparse : Bool) : Nat := if sparse then 2 else 1

/-- A slot is ready for the step that consumes it. -/
def FSlot.ready (x : FSlot) : Bool := x.state == .full || x.state == .failed

/-- The awaited event of a command has occurred (R55). -/
def Core.awaited (c : Core) (x : Cmd) : Bool :=
  match x.awk.toNat with
  | 1 => (c.barSeen x.awb.toNat).phaseDone x.awph
  | 2 => x.awv.toNat ≤ (c.tlSeen x.awq.toNat).toNat
  | _ => true

/-- The slots a command needs are ready (R207, R219). -/
def Core.slotsReady (c : Core) (op : Nat) (x : Cmd) : Bool :=
  if opConsumes op then
    (c.slotA (rpA c)).ready && (List.range (bCount (op == 2))).all (fun i => (c.slotB (rpB c + i)).ready)
  else if op = 0x11 || op = 0x12 then
    let rp := if bit x.pay 6 then rpB c else rpA c
    let d := (field x.pay 79 48 + 2 ^ 32 - rp) % 2 ^ 32
    2 ^ 31 ≤ d || d + (field x.pay 9 8 + 1) ≤ 4
  else true

/-- Strand k of the unit is a member of a group in a fault hold (R258). -/
def State.groupHolds (s : State) (u : UnitNo) (k : Nat) : Bool :=
  match (s.core u).group with
  | none => false
  | some g =>
    let x := s.groupOf (unitCluster u) g.toNat
    x.faultHold != 0 && Table.get 8 x.strands (u.toNat % 16) == k

/-- The head command of queue n may be taken: it is not held, its event has occurred, what its strand did
before the ENQ is done. -/
def State.cmdReady (s : State) (u : UnitNo) (n : Nat) : Bool :=
  let c := s.core u
  let x := c.queue n
  match x.entries with
  | [] => false
  | e :: _ =>
    let cmd := parseCmd e.word
    !x.frozen && !x.circHeld && e.pend.isNone && !c.stoppedEngines && c.awaited cmd
      && !(cmd.awk != 0 && s.groupHolds u (n / 4))
      && !(s.strand u (BitVec.ofNat 3 (n / 4))).pendingUpTo e.seq
      && c.slotsReady (cmdOp e.word) cmd
      && (n % 4 != 0 || !c.chainLock || Table.get 0 c.served 0 == n)

/-- The queue an engine takes next: the first ready one after the queue it served last (R161). -/
def State.nextQueue (s : State) (u : UnitNo) (e : Nat) : Option Nat :=
  let last := Table.get (28 + e) (s.core u).served e
  ((List.range 8).map (fun i => (last / 4 + 1 + i) % 8 * 4 + e)).find? (s.cmdReady u)

/-- A start that has to wait asks for the far bytes that it misses; nothing else of it stands. -/
def State.waitStart (s : State) (u : UnitNo) (k : StrandNo) (mark : Nat) (reach : Option Reach) : State :=
  match reach with
  | some ⟨_, _, (key, n, va) :: rest, _⟩ => s.bring u k mark va ((key, n) :: rest.map (fun p => (p.1, p.2.1)))
  | _ => s

/-- The engine of a queue, whose turn it is, runs its head command, of opcode op and fields c: it starts (R161). -/
def State.startWith (s : State) (q : QRef) (op : Nat) (c : Cmd) (f : CmdStart) : State :=
  let u := q.unit
  let n := q.queue.toNat
  let core := s.core u
  let x := core.queue n
  match x.entries with
  | [] => s
  | e :: _ =>
    if e.word != encodeCmd op c || Table.has core.eng (n % 4) || s.nextQueue u (n % 4) != some n then s
    else
      let (chain, breaks) := if n % 4 = 0 then chainStep x.chain op c else (none, false)
      let core0 := core.setQueue n { x with chain := chain }
      let lock := if n % 4 = 0 then chain.isSome else core.chainLock
      let core1 : Core := { core0 with served := Table.set core.served (n % 4) n, chainLock := lock
                                       reach := some ⟨queueMark n, [], [], []⟩ }
      let (out, own, s1) := f ⟨u, n, e, preStatus x e op breaks⟩ c (s.setCore u core1)
      let core2 := s1.core u
      if out.any (fun o => o.status == stWait) then s.waitStart u (BitVec.ofNat 3 (n / 4)) (queueMark n) core2.reach else
      let vas := (core2.reach.map Reach.vas).getD []
      let run : EngRun := ⟨n, e.num, op, core2.cycle, out, own, false, vas⟩
      let s2 := s1.setCore u { core2 with eng := Table.set core2.eng (n % 4) run, reach := none }
      { s2.dropReqs (fun r => r.owner == some (u.toNat, queueMark n)) with tick := s1.tick + 1 }

/-- A command whose outcome its start settles. -/
def State.startCommand (s : State) (q : QRef) (op : Nat) (c : Cmd) (f : CmdFun) : State :=
  s.startWith q op c (fun x c s => match f x c s with
    | (out, s1) => (some out, none, s1))

end Sys2Proof.Machine
end

