-- ==== Sys2Proof/Machine/Matrix.lean ====
section
/-! DEFINITION. The commands of the matrix engine but for PACC: MMA, MMAS, MZERO, MLOAD and MDRAIN
(R204 to R217). -/

namespace Sys2Proof.Machine

/-! ### FIFO slots (R205 to R209) -/

/-- The class of a slot's format, 0 BF16, 1 the 8-bit formats, 2 MXFP4 (Table 8-2). -/
def slotClass (fmt : BitVec 4) : Nat := if fmt = 2 then 0 else if fmt = 3 || fmt = 4 then 1 else 2

/-- K of Table 8-2. -/
def slotK (fmt : BitVec 4) : Nat := if fmt = 2 then 24 else if fmt = 3 || fmt = 4 then 48 else 96

/-- The elements of line i with the block scale and the tensor scale applied (R205, R210). -/
def FSlot.line (x : FSlot) (i : Nat) : List FV :=
  let w := codeWidth x.fmt.toNat
  let bits := x.data.toNat / 2 ^ (384 * i) % 2 ^ 384
  let side := x.side.toNat / 2 ^ (96 * i) % 2 ^ 96
  (List.range (slotK x.fmt)).map (fun k =>
    let b := bits / 2 ^ (w * k) % 2 ^ w
    let v := if x.fmt = 5 then mxValue (side / 2 ^ (8 * (k / 32)) % 256) b else (fmtOf x.fmt.toNat).decode b
    v.scale ((x.tsc.toNat : Int) - 127))

/-- The metadata nibbles of line i: position i0 and position i1 of each group (R211). -/
def FSlot.groups (x : FSlot) (i : Nat) : List (Nat × Nat) :=
  let side := x.side.toNat / 2 ^ (96 * i) % 2 ^ 96
  (List.range (slotK x.fmt / 2)).map (fun g => (side / 2 ^ (4 * g) % 4, side / 2 ^ (4 * g + 2) % 4))

def FSlot.sparseOk (x : FSlot) : Bool := (List.range 64).all (fun i => (x.groups i).all (fun p => p.1 < p.2))

/-- Expand kept values to four elements a group (R211). -/
def expandGroups : List (Nat × Nat) → List FV → List FV
  | (i0, i1) :: gs, v0 :: v1 :: vs =>
    (List.range 4).map (fun p => if p = i0 then v0 else if p = i1 then v1 else .fin false 0 0) ++ expandGroups gs vs
  | _, _ => []

def FSlot.expanded (x : FSlot) (i : Nat) : List FV := expandGroups (x.groups i) (x.line i)

/-! ### MMA and MMAS (R207 to R211) -/

/-- C' of one element: the exact sum of the products and the accumulator, rounded once (R210). -/
def stepElem (m : Mode) (ftz : Bool) (xs ys : List FV) (acc : FV) : Nat :=
  f32.roundTo m false ftz (exactSum (List.zipWith FV.mul xs ys) acc)

/-- The rows of tile t after a step. -/
def stepRows (x : CmdCtx) (c : Cmd) (core : Core) (as bs : List (List FV)) : List (Nat × MaskReg × Row) :=
  let t := field c.pay 2 0
  (List.range 64).map (fun i =>
    let old := rowLanes 32 (core.row (rowKey t i))
    let xs := (as[i]?).getD []
    let new := (List.range 64).map (fun j =>
      let acc := if bit c.pay 7 then FV.fin false 0 0 else f32.decode (lane old j)
      stepElem (x.modeAt c.rm (i * 64 + j)) c.ftz xs ((bs[j]?).getD []) acc)
    (rowKey t i, BitVec.allOnes 256, packRow 32 new))

/-- The status of a consuming command whose entry brings none (R208 to R211, R229). -/
def stepStatus (c : Cmd) (core : Core) (sparse : Bool) : BitVec 8 :=
  let a := core.slotA (rpA core)
  let bs := (List.range (bCount sparse)).map (fun i => core.slotB (rpB core + i))
  let t := field c.pay 2 0
  if c.sat || bit c.pay 6 || field c.pay 127 8 ≠ 0 then stBadField
  else if a.state == .failed || bs.any (fun b => b.state == .failed) then stFeedFailed
  else if a.bad || bs.any (·.bad) || (!bit c.pay 7 && (List.range 64).any (fun i => core.rowBad (rowKey t i))) then
    stPoisoned
  else if bs.any (fun b => slotClass b.fmt != slotClass a.fmt) || a.spr != sparse || (sparse && slotClass a.fmt = 2) then
    stMismatch
  else if sparse && !a.sparseOk then stBadSparse
  else stOk

/-- A matrix step: the slots are released whatever its status (R208). -/
def runStep (sparse : Bool) : CmdFun := fun x c s =>
  let core := s.core x.unit
  let st := x.pre.getD (stepStatus c core sparse)
  let out := { CmdOut.plain st 0 with release := some (if bit c.pay 3 then 0 else bCount sparse) }
  if st != stOk then (out, s)
  else
    let a := core.slotA (rpA core)
    let b0 := core.slotB (rpB core)
    let b1 := core.slotB (rpB core + 1)
    let as := (List.range 64).map (if sparse then a.expanded else a.line)
    let bs := (List.range 64).map (fun j => if sparse then b0.line j ++ b1.line j else b0.line j)
    ({ out with rows := stepRows x c core as bs }, s)

def runMma : CmdFun := runStep false
def runMmas : CmdFun := runStep true

/-! ### MZERO (R214) -/

def runMzero : CmdFun := guarded (fun _ c s =>
  if field c.pay 31 3 ≠ 0 || field c.pay 127 64 ≠ 0 then (CmdOut.plain stBadField 0, s)
  else
    let row := packRow 32 (List.replicate 64 (field c.pay 63 32))
    ({ CmdOut.plain stOk 0 with
       rows := (List.range 64).map (fun i => (rowKey (field c.pay 2 0) i, BitVec.allOnes 256, row)) }, s))

/-! ### Windows (R215) -/

structure Window where
  tile : Nat
  dz : Bool
  tty : Nat
  tid : Nat
  row0 : Nat
  col0 : Nat
  nr : Nat
  nc : Nat
  trow0 : Nat
  tcol0 : Nat
  deriving DecidableEq, Repr

def windowOf (c : Cmd) : Window :=
  { tile := field c.pay 2 0, dz := bit c.pay 3, tty := field c.pay 7 4, tid := field c.pay 13 8
    row0 := field c.pay 31 16, col0 := field c.pay 47 32, nr := field c.pay 53 48 + 1
    nc := field c.pay 62 56 + 1, trow0 := field c.pay 69 64, tcol0 := field c.pay 78 72 }

def windowReserved (c : Cmd) : Bool :=
  field c.pay 15 14 ≠ 0 || field c.pay 55 54 ≠ 0 || bit c.pay 63 || field c.pay 71 70 ≠ 0 || field c.pay 127 79 ≠ 0

/-- The width of a tile element. -/
def Window.width (w : Window) : Nat := if w.tty = 1 || w.tty = 2 then 16 else 32

/-- The checks at start (R215), in order. -/
def windowStatus (core : Core) (w : Window) (c : Cmd) (load : Bool) : BitVec 8 :=
  let t := core.tens w.tid
  if windowReserved c || (load && w.dz) || !(w.tty = 0 || w.tty = 1 || w.tty = 2 || w.tty = 8) then stBadField
  else if !core.tensorOk w.tid (fun f => f < 14) then stBadTensor
  else if 64 < w.trow0 + w.nr || 2048 / w.width < w.tcol0 + w.nc || !t.holds w.row0 w.nr w.col0 w.nc
      || (t.fmt = 5 && (w.col0 % 32 ≠ 0 || w.nc % 32 ≠ 0)) then stBadShape
  else stOk

/-- The mask of the window's bytes in a tile row. -/
def Window.mask (w : Window) : MaskReg :=
  BitVec.ofNat 256 ((2 ^ (w.nc * w.width / 8) - 1) * 2 ^ (w.tcol0 * w.width / 8))

/-- The mode of window element (r, k): stream row * 64 + lane of the tile (R20). -/
def Window.modeAt (w : Window) (x : CmdCtx) (c : Cmd) (r k : Nat) : Mode :=
  x.modeAt c.rm ((w.trow0 + r) * 64 + w.tcol0 + k)

/-- Tile row r of the window with its elements replaced. -/
def Window.rowWith (w : Window) (r : Nat) (elems : List Nat) : Nat × MaskReg × Row :=
  (rowKey w.tile (w.trow0 + r), w.mask, rowPutLanes w.width 0 w.tcol0 elems)

/-! ### MLOAD (R216) -/

/-- A tensor element as a value to convert. -/
def tensorVal (t : Tens) (bits scale : Nat) : Val :=
  if t.fmt = 5 then .flt ((mxValue scale bits).scale ((t.tsc : Int) - 127))
  else match valOf t.fmt bits with
    | .flt v => .flt (v.scale ((t.tsc : Int) - 127))
    | v => v

/-- The elements of one tensor row of the window, from its bytes and its scale bytes. -/
def tensorVals (t : Tens) (nc bytes scales : Nat) : List Val :=
  (List.range nc).map (fun k => tensorVal t (bytes / 2 ^ (t.width * k) % 2 ^ t.width) (scales / 2 ^ (8 * (k / 32)) % 256))

/-- MLOAD (R216): the data rows are translated before the scales (DESIGN CHOICE, log entry 95). -/
def runMload : CmdFun := guarded (fun x c s =>
  let core := s.core x.unit
  let w := windowOf c
  let t := core.tens w.tid
  let st := windowStatus core w c true
  if st != stOk then (CmdOut.plain st 0, s)
  else
    let who := s.cmdWho x
    match s.touchAll who (!t.glob) .read (t.ranges w.row0 w.nr w.col0 w.nc ++ t.scaleRanges w.row0 w.nr w.col0 w.nc) with
    | (.error e, s1) => (CmdOut.failed e, s1)
    | (.ok segs, s1) =>
      let row (r : Nat) : List Seg := (segs[r]?).getD []
      let scales (r : Nat) : List Seg := if t.fmt = 5 then (segs[w.nr + r]?).getD [] else []
      let bad (r : Nat) : Bool := s1.engPoison (keysOfSegs (row r ++ scales r))
      let new (r : Nat) : Nat × MaskReg × Row :=
        w.rowWith r ((List.range w.nc).zipWith (fun k v => vconv w.tty (w.modeAt x c r k) c.sat c.ftz v)
          (tensorVals t w.nc (s1.engNat x.unit (row r)) (s1.engNat x.unit (scales r))))
      let rs := List.range w.nr
      if rs.any bad then
        ({ CmdOut.plain stPoisoned 0 with
           rows := (rs.filter (fun r => !bad r && Config.pieceDone s1.tick r)).map new }, s1)
      else ({ CmdOut.plain stOk 0 with rows := rs.map new }, s1))

/-! ### MDRAIN (R216, R217) -/

/-- The elements of one tile row of the window. -/
def Window.vals (w : Window) (core : Core) (r : Nat) : List Val :=
  ((rowLanes w.width (core.row (rowKey w.tile (w.trow0 + r)))).drop w.tcol0 |>.take w.nc).map (valOf w.tty)

/-- An element of the window's row r is poisoned. -/
def Window.rowBad (w : Window) (core : Core) (r : Nat) : Bool :=
  core.badElems.any (fun e => e / 64 == rowKey w.tile (w.trow0 + r)
    && w.tcol0 * w.width < e % 64 * 32 + 32 && e % 64 * 32 < (w.tcol0 + w.nc) * w.width)

/-- A tile value under the tensor scale (R152). -/
def scaleDown (tsc : Nat) : Val → Val
  | .flt v => .flt (v.scale (127 - (tsc : Int)))
  | .int x => if tsc = 127 then .int x else .flt ((FV.ofInt x).scale (127 - (tsc : Int)))

/-- The exact rounded integer of a finite value. -/
def roundedInt (m : Mode) : FV → Int
  | .fin s n e =>
    let q := if 0 ≤ e then n * 2 ^ e.toNat else roundMag m s n (2 ^ (-e).toNat)
    if s then -(q : Int) else q
  | _ => 0

/-- A conversion overflows or saturates (R217): a finite value beyond the format is clamped where its rounding is
an infinity or, in the mode of E4M3's overflow, its NaN; one that the rounding direction itself brings to the maximum
finite value is not (DEDUCED, log entry 50). -/
def drainOvf (fmt : Nat) (m : Mode) (sat : Bool) (v : Val) : Bool :=
  if isFloatCode fmt then
    let f := fmtOf fmt
    (v.fv).isFinite && !(f.decode (f.roundTo m false false v.fv)).isFinite
  else match v with
    | .flt x => x.isFinite && x.toInt (ityOf fmt) m != roundedInt m x
    | .int x => (ityOf fmt).read ((ityOf fmt).fit sat x) != x

def Val.isNan : Val → Bool
  | .flt v => v.isNan
  | .int _ => false

/-- The bytes of one tensor row, and of its scales, from the window's values. -/
def drainRow (t : Tens) (m : Nat → Mode) (c : Cmd) (vs : List Val) : Nat × Nat :=
  let vs := vs.map (scaleDown t.tsc)
  if t.fmt = 5 then
    let blocks := (chunks32 (vs.length / 32) (vs.map Val.fv)).zip (List.range (vs.length / 32))
    let enc := blocks.map (fun (p : List FV × Nat) => mxBlock (fun i => m (32 * p.2 + i)) c.sat c.ftz p.1)
    (joinLanes 4 (enc.flatMap Prod.snd), joinLanes 8 (enc.map Prod.fst))
  else (joinLanes t.width ((List.range vs.length).zipWith (fun k v => vconv t.fmt (m k) c.sat c.ftz v) vs), 0)

/-- What a row's conversion adds to OVF: never for MXFP4 (R217). -/
def drainRowOvf (t : Tens) (m : Nat → Mode) (c : Cmd) (vs : List Val) : Bool :=
  t.fmt != 5 && (List.range vs.length).any (fun k => match vs[k]? with
    | some v => drainOvf t.fmt (m k) c.sat (scaleDown t.tsc v)
    | none => false)

def segCells (l : List Seg) (v : Nat) : List (Nat × Byte) := cellsOf (keysOfSegs l) (toBytes (keysOfSegs l).length v)

/-- MDRAIN. DCNT rises whatever its status (R217); the data rows are translated before the scales (DESIGN CHOICE, log
entry 95). -/
def runMdrain : CmdFun := fun x c s =>
  let core := s.core x.unit
  let w := windowOf c
  let t := core.tens w.tid
  let st := x.pre.getD (windowStatus core w c false)
  let failed (o : CmdOut) : CmdOut := { o with drain := some (w.tile, false, false) }
  if st != stOk then (failed (CmdOut.plain st 0), s)
  else
    let who := s.cmdWho x
    match s.touchAll who (!t.glob) .write (t.ranges w.row0 w.nr w.col0 w.nc ++ t.scaleRanges w.row0 w.nr w.col0 w.nc) with
    | (.error e, s1) => (failed (CmdOut.failed e), s1)
    | (.ok segs, s1) =>
      let rs := List.range w.nr
      let vals (r : Nat) : List Val := w.vals core r
      let m (r : Nat) : Nat → Mode := w.modeAt x c r
      let segsOf (r : Nat) : List Seg := (segs[r]?).getD []
      let scaleSegs (r : Nat) : List Seg := if t.fmt = 5 then (segs[w.nr + r]?).getD [] else []
      let cells (r : Nat) : List (Nat × Byte) :=
        let d := drainRow t (m r) c (vals r)
        segCells (segsOf r) d.1 ++ segCells (scaleSegs r) d.2
      if rs.any (w.rowBad core) then
        ((failed (CmdOut.plain stPoisoned 0)).writing (segs.flatMap id)
          ((rs.filter (fun r => !w.rowBad core r && Config.pieceDone s1.tick r)).flatMap cells), s1)
      else
        ({ (CmdOut.plain stOk 0).writing (segs.flatMap id) (rs.flatMap cells) with
           rows := if w.dz then rs.map (fun r => w.rowWith r (List.replicate w.nc 0)) else []
           drain := some (w.tile, rs.any (fun r => (vals r).any Val.isNan),
             rs.any (fun r => drainRowOvf t (m r) c (vals r))) }, s1)

end Sys2Proof.Machine
end

