-- ==== Sys2Proof/Machine/Copy.lean ====
section
/-! DEFINITION. The commands of the copy and gather engines: COPY, FEED, FEEDM, SEND, GATHER, SCATTER and
NOTIFY (R218 to R226, R334 to R337). -/

namespace Sys2Proof.Machine

/-! ### Moving bytes -/

/-- A 57-bit address field, sign-extended (R221). -/
def addr57 (x : Nat) : W64 := BitVec.signExtend 64 (BitVec.ofNat 57 x)

/-- Copied bytes: destination keys take the bytes of source keys. -/
def State.movedCells (s : State) (u : UnitNo) (dst src : List Nat) : List (Nat × Byte) :=
  List.zipWith (fun d k => (d, s.engByte u k)) dst src

/-- The 32-byte pieces of source and destination keys. -/
def pieces32 : Nat → List Nat → List Nat → List (List Nat × List Nat)
  | 0, _, _ => []
  | n + 1, d, k => (d.take 32, k.take 32) :: pieces32 n (d.drop 32) (k.drop 32)

/-- A transfer of n bytes in 32-byte pieces: all of it, or, where a source byte is poisoned, the pieces
moved before it was met (R165, DESIGN CHOICE, log entry 18). -/
def State.transfer (s : State) (u : UnitNo) (dst src : List Nat) (n : Nat) : Bool × List (Nat × Byte) :=
  if s.engPoison src then
    let ps := (pieces32 (n / 32) dst src).zip (List.range (n / 32))
    (false, (ps.filter (fun (p : (List Nat × List Nat) × Nat) =>
      !s.engPoison p.1.2 && Config.pieceDone s.tick p.2)).flatMap (fun p => s.movedCells u p.1.1 p.1.2))
  else (true, s.movedCells u dst src)

/-! ### COPY (R221, R222) -/

/-- The checks of COPY in one order, and its source translated before its destination (DESIGN CHOICE, log entries 93
and 95). -/
def runCopy : CmdFun := guarded (fun x c s =>
  let n := copyBytes c.pay
  let sa := field c.pay 56 0
  let da := field c.pay 120 64
  let ssp := bit c.pay 57
  let dsp := bit c.pay 121
  if (ssp && 2 ^ 21 < sa + n) || (dsp && 2 ^ 21 < da + n) then (CmdOut.plain stSpadRange 0, s)
  else if sa % 32 ≠ 0 || da % 32 ≠ 0 then (CmdOut.plain stCopyAlign 0, s)
  else if ssp == dsp && rangesMeet sa n da n then (CmdOut.plain stOverlap 0, s)
  else
    let who := s.cmdWho x
    match s.touch who ssp .read (if ssp then BitVec.ofNat 64 sa else addr57 sa) n with
    | (.error e, s1) => (CmdOut.failed e, s1)
    | (.ok src, s1) =>
      match s1.touch who dsp .write (if dsp then BitVec.ofNat 64 da else addr57 da) n with
      | (.error e, s2) => (CmdOut.failed e, s2)
      | (.ok dst, s2) =>
        let (ok, cells) := s2.transfer x.unit (keysOfSegs dst) (keysOfSegs src) n
        ((CmdOut.plain (if ok then stOk else stPoisoned) 0).writing dst cells, s2))

/-! ### FEED and FEEDM (R218 to R220) -/

structure FeedArgs where
  tid : Nat
  fb : Bool
  tr : Bool
  ns : Nat
  spr : Bool
  row0 : Nat
  col0 : Nat
  pos : Nat
  mtid : Nat
  deriving DecidableEq, Repr

def feedArgs (c : Cmd) : FeedArgs :=
  { tid := field c.pay 5 0, fb := bit c.pay 6, tr := bit c.pay 7, ns := field c.pay 9 8 + 1, spr := bit c.pay 10
    row0 := field c.pay 31 16, col0 := field c.pay 47 32, pos := field c.pay 79 48, mtid := field c.pay 85 80 }

/-- The slots of a feed, in order. -/
def FeedArgs.slots (a : FeedArgs) : List Nat := (List.range a.ns).map (fun i => (a.pos + i) % 4)

def Core.fifo (c : Core) (b : Bool) (k : Nat) : FSlot := c.slotOf b (k % 4)
def Core.setFifo (c : Core) (b : Bool) (k : Nat) (x : FSlot) : Core :=
  c.setSlot b (k % 4) x

def Core.setFifos (c : Core) (b : Bool) : List (Nat × FSlot) → Core
  | [] => c
  | (k, x) :: rest => (c.setFifo b k x).setFifos b rest

/-- The checks at start (R218), in order. -/
def feedStatus (core : Core) (a : FeedArgs) (c : Cmd) (feedm : Bool) : BitVec 8 :=
  let t := core.tens a.tid
  let m := core.tens a.mtid
  let n := a.ns * slotK (BitVec.ofNat 4 t.fmt)
  if field c.pay 15 11 ≠ 0 || field c.pay 87 86 ≠ 0 || field c.pay 127 104 ≠ 0 || (!feedm && field c.pay 103 88 ≠ 0)
      || (a.mtid ≠ 0 && !a.spr) then stBadField
  else if !core.tensorOk a.tid (fun f => 2 ≤ f && f ≤ 5) then stBadTensor
  else if a.spr && !core.tensorOk a.mtid (fun f => f == 13) then stBadTensor
  else if (a.tr && t.fmt = 5) || (a.spr && (t.fmt = 5 || a.fb || a.tr || a.col0 % 4 ≠ 0))
      || (t.fmt = 5 && a.col0 % 32 ≠ 0)
      || !(if a.tr then t.holds a.row0 n a.col0 64 else t.holds a.row0 64 a.col0 n)
      || (a.spr && !m.holds a.row0 64 (a.col0 / 4) (n / 4)) then stBadShape
  else stOk

/-- A target slot of the feed in a state. -/
def feedSlot (t : Tens) (a : FeedArgs) (i : Nat) (st : SlotState) (data side : Nat) : FSlot :=
  { state := st, pos := BitVec.ofNat 32 (a.pos + i), fmt := BitVec.ofNat 4 t.fmt, tsc := BitVec.ofNat 8 t.tsc
    spr := a.spr, data := BitVec.ofNat 24576 data, side := BitVec.ofNat 6144 side, bad := false }

/-- The data of slot i from the window's rows (R219). -/
def feedData (t : Tens) (a : FeedArgs) (rows : Nat → Nat) (i : Nat) : Nat :=
  let k := slotK (BitVec.ofNat 4 t.fmt)
  if a.tr then
    joinLanes 384 ((List.range 64).map (fun l =>
      joinLanes t.width ((List.range k).map (fun e => rows (i * k + e) / 2 ^ (t.width * l) % 2 ^ t.width))))
  else joinLanes 384 ((List.range 64).map (fun l => rows l / 2 ^ (384 * i)))

/-- The side area of slot i: n bytes of each line's scales or metadata. -/
def feedSide (n : Nat) (lines : Nat → Nat) (i : Nat) : Nat :=
  joinLanes 96 ((List.range 64).map (fun l => lines l / 2 ^ (8 * n * i) % 2 ^ (8 * n)))

/-- The fill of a feed that passed its tests and checks: the data rows are translated before the scales and the metadata
(DESIGN CHOICE, log entry 95). -/
def State.feedFill (s : State) (x : CmdCtx) (a : FeedArgs) : CmdOut × State :=
  let core := s.core x.unit
  let t := core.tens a.tid
  let m := core.tens a.mtid
  let k := slotK (BitVec.ofNat 4 t.fmt)
  let n := a.ns * k
  let failed (o : CmdOut) : CmdOut :=
    { o with fills := (List.range a.ns).map (fun i => (a.fb, (a.pos + i) % 4, feedSlot t a i .failed 0 0)) }
  let data := if a.tr then t.ranges a.row0 n a.col0 64 else t.ranges a.row0 64 a.col0 n
  let side := if a.spr then m.ranges a.row0 64 (a.col0 / 4) (n / 4) else t.scaleRanges a.row0 64 a.col0 n
  let who := s.cmdWho x
  match s.touchAll who (!t.glob) .read data with
  | (.error e, s1) => (failed (CmdOut.failed e), s1)
  | (.ok dsegs, s1) =>
    match s1.touchAll who (if a.spr then !m.glob else !t.glob) .read side with
    | (.error e, s2) => (failed (CmdOut.failed e), s2)
    | (.ok ssegs, s2) =>
      if (dsegs ++ ssegs).any (fun g => s2.engPoison (keysOfSegs g)) then (failed (CmdOut.plain stPoisoned 0), s2)
      else
        let row (r : Nat) : Nat := s2.engNat x.unit ((dsegs[r]?).getD [])
        let line (r : Nat) : Nat := s2.engNat x.unit ((ssegs[r]?).getD [])
        let width := if a.spr then k / 4 else k / 32
        ({ CmdOut.plain stOk 0 with fills := (List.range a.ns).map (fun i =>
            (a.fb, (a.pos + i) % 4, feedSlot t a i .full (feedData t a row i) (feedSide width line i))) }, s2)

/-- FEED: the stream tests come first, whatever else the command would complete with (R219). -/
def runFeedOf (feedm : Bool) : CmdFun := fun x c s =>
  let core := s.core x.unit
  let a := feedArgs c
  let t := core.tens a.tid
  let rp := if a.fb then rpB core else rpA core
  let skip (st : BitVec 8) : BitVec 8 := if x.pre = some stSkipped then stSkipped else st
  let slots := a.slots
  if 2 ^ 31 ≤ (a.pos + 2 ^ 32 - rp) % 2 ^ 32 then (CmdOut.plain (skip stStreamStale) 0, s)
  else if slots.any (fun k => (core.fifo a.fb k).state != .empty) then (CmdOut.plain (skip stStreamDup) 0, s)
  else
    let st := x.pre.getD (feedStatus core a c feedm)
    let taken (y : SlotState) : State := s.setCore x.unit (core.setFifos a.fb
      ((List.range a.ns).map (fun i => ((a.pos + i) % 4, feedSlot t a i y 0 0))))
    if st != stOk then (CmdOut.plain st 0, taken .failed) else (taken .filling).feedFill x a

def runFeed : CmdFun := runFeedOf false
def runFeedm : CmdFun := runFeedOf true

/-! ### GATHER and SCATTER (R224, R225) -/

structure GaArgs where
  base : Nat
  bsp : Bool
  idx : Nat
  iw : Bool
  n : Nat
  dl : Nat
  size : Nat
  deriving DecidableEq, Repr

def gaArgs (c : Cmd) : GaArgs :=
  { base := field c.pay 56 0, bsp := bit c.pay 57, idx := field c.pay 84 64, iw := bit c.pay 85
    n := field c.pay 95 86 + 1, dl := field c.pay 116 96, size := 2 ^ field c.pay 119 117 }

def GaArgs.idxBytes (a : GaArgs) : Nat := if a.iw then 2 else 4

/-- The address of the element an index names. -/
def GaArgs.addr (a : GaArgs) (i : Nat) : W64 :=
  if a.bsp then BitVec.ofNat 64 (a.base + i * a.size) else addr57 a.base + BitVec.ofNat 64 (i * a.size)

/-- A byte as the moves before it left it. -/
def overlaid (done : List (Nat × Byte)) (s : State) (u : UnitNo) (k : Nat) : Byte :=
  match done.find? (fun c => c.1 == k) with
  | some c => c.2
  | none => s.engByte u k

/-- Move elements one after another, the moves so far newest first; stop at a poisoned one (R225). -/
def State.moveElems (s : State) (u : UnitNo) : List (List Nat × List Nat) → List (Nat × Byte) → Bool × List (Nat × Byte)
  | [], done => (true, done)
  | (d, k) :: rest, done =>
    if k.any (fun b => (done.find? (fun c => c.1 == b)).isNone && s.engPoison [b]) then (false, done)
    else s.moveElems u rest ((List.zipWith (fun d b => (d, overlaid done s u b)) d k).reverse ++ done)

/-- The indices before the first poisoned one, and whether all of them are there. -/
def State.goodIndices (s : State) (u : UnitNo) (a : GaArgs) (keys : List Nat) : Nat → List Nat → List Nat
  | 0, _ => []
  | n + 1, ks =>
    let k := ks.take a.idxBytes
    if s.engPoison k then [] else leNat (k.map (s.engByte u)) :: s.goodIndices u a keys n (ks.drop a.idxBytes)

/-- GATHER and SCATTER: their checks in one order, the index list translated before the range of the elements is checked,
and the list, the packed array and the elements translated in that order (DESIGN CHOICE, log entries 94 and 95). -/
def runGaOf (scatter : Bool) : CmdFun := guarded (fun x c s =>
  let a := gaArgs c
  let who := s.cmdWho x
  let align := Nat.min a.size 32
  if field c.pay 63 58 ≠ 0 || field c.pay 127 120 ≠ 0 then (CmdOut.plain stBadField 0, s)
  else if a.base % align ≠ 0 || a.dl % align ≠ 0 || a.idx % a.idxBytes ≠ 0 then (CmdOut.plain stCopyAlign 0, s)
  else if 2 ^ 21 < a.idx + a.n * a.idxBytes || 2 ^ 21 < a.dl + a.n * a.size then (CmdOut.plain stSpadRange 0, s)
  else
    match s.touch who true .read (BitVec.ofNat 64 a.idx) (a.n * a.idxBytes) with
    | (.error e, s1) => (CmdOut.failed e, s1)
    | (.ok isegs, s1) =>
      let good := s1.goodIndices x.unit a [] a.n (keysOfSegs isegs)
      if a.bsp && good.any (fun i => 2 ^ 21 < a.base + (i + 1) * a.size) then (CmdOut.plain stSpadRange 0, s1)
      else
        match s1.touch who true (if scatter then .read else .write) (BitVec.ofNat 64 a.dl) (a.n * a.size) with
        | (.error e, s2) => (CmdOut.failed e, s2)
        | (.ok dsegs, s2) =>
          match s2.touchAll who a.bsp (if scatter then .write else .read) (good.map (fun i => (a.addr i, a.size))) with
          | (.error e, s3) => (CmdOut.failed e, s3)
          | (.ok esegs, s3) =>
            let pack := keysOfSegs dsegs
            let moves := ((List.range good.length).zip esegs).map (fun (p : Nat × List Seg) =>
              let there := keysOfSegs p.2
              let here := (pack.drop (p.1 * a.size)).take a.size
              if scatter then (there, here) else (here, there))
            let (ok, done) := s3.moveElems x.unit moves []
            ((CmdOut.plain (if ok && good.length == a.n then stOk else stPoisoned) 0).writing
              (if scatter then esegs.flatMap id else dsegs) done.reverse, s3))

def runGather : CmdFun := runGaOf false
def runScatter : CmdFun := runGaOf true

/-! ### NOTIFY (R226) -/

/-- NOTIFY is never SKIPPED. -/
def runNotify : CmdFun := guarded (fun x c s =>
  let flag := field c.pay 56 0
  let wf := bit c.pay 57
  if field c.pay 63 58 ≠ 0 || flag % 8 ≠ 0 || (!wf && c.pay != 0) then (CmdOut.plain stBadField 0, s)
  else if !wf then (CmdOut.plain stOk 0, s)
  else match s.touch (s.cmdWho x) false .write (addr57 flag) 8 with
    | (.error e, s1) => (CmdOut.failed e, s1)
    | (.ok segs, s1) =>
      ((CmdOut.plain stOk 0).writing segs (cellsOf (keysOfSegs segs) (toBytes 8 (field c.pay 127 64))), s1))

/-! ### SEND (R334 to R337) -/

/-- The die of an optical port, as a home code of Table 5-8 (R309). -/
def portDie (p : Nat) : Nat := if p < 64 then p / 8 else if p < 68 then 8 else if p < 72 then 9 else 10

/-- The unit that cluster c and core n name on die d (R334). -/
def dieUnit (d c n : Nat) : Nat :=
  if d < 8 then 64 * d + 16 * c + n else if d < 10 then 528 + 16 * (d - 8) + n else 512 + n

/-- A page of the destination that translates and has another home (R335). -/
def State.wrongHome (s : State) (w : Who) (die : Nat) (ea : W64) (n : Nat) : Bool :=
  (piecesOf ea n).any (fun (p : W64 × Nat) => match (s.translate w p.1 .write .quiet).1 with
    | .ok h => isFar h.key || placeDie (placeOf h.key) != die
    | .error _ => false)

/-- The walks of that test have set the die's bit in the records of the pages that they read (R297). -/
def State.walkAll (s : State) (w : Who) (ps : List (W64 × Nat)) : State :=
  ps.foldl (fun (s : State) p => (s.translate w p.1 .write .quiet).2) s

/-- SEND; a handle that is not LIVE answers CIRC-NOT-LIVE, and the command is held (R337). -/
def runSend : CmdFun := guarded (fun x c s =>
  let src := field c.pay 20 0
  let n := 32 * (field c.pay 49 40 + 1)
  let h := field c.pay 39 32
  let dsp := bit c.pay 50
  let dclus := field c.pay 52 51
  let dcore := field c.pay 56 53
  let daddr := field c.pay 120 64
  let dsig := bit c.pay 30
  let circctx := (s.strand x.unit (BitVec.ofNat 3 (x.queue / 4))).circctx
  let ctx := field circctx 2 0
  let hd := (s.seqOf ctx).handle h
  let die := portDie hd.dport.toNat
  let dest := dieUnit die dclus dcore
  let who := s.cmdWho x
  let ea := addr57 daddr
  if bit c.pay 31 || field c.pay 63 57 ≠ 0 || field c.pay 127 121 ≠ 0 || circctx.getLsbD 3 then
    (CmdOut.plain stBadField 0, s)
  else if src % 32 ≠ 0 || daddr % 32 ≠ 0 then (CmdOut.plain stCopyAlign 0, s)
  else if 2 ^ 21 < src + n || (dsp && 2 ^ 21 < daddr + n) then (CmdOut.plain stSpadRange 0, s)
  else if hd.state != .live then (CmdOut.plain stCircNotLive 0, s)
  else if 8 ≤ die && (dclus ≠ 0 || (!dsp && dsig)) then (CmdOut.plain stBadField 0, s)
  else if portDie hd.sport.toNat ≠ dirDie x.unit || ((dsp || dsig) && !s.unitPresent dest) then (CmdOut.plain stWrongEnd 0, s)
  else if !dsp && (piecesOf ea n).any (fun p => s.pieceWaits who p.1) then (CmdOut.failed waitErr, s)
  else if !dsp && s.wrongHome who die ea n then (CmdOut.plain stWrongEnd 0, s.walkAll who (piecesOf ea n))
  else
    let target : Except CmdErr (List Seg) × State :=
      if dsp then (.ok [⟨spadKey dest daddr, n, false, BitVec.ofNat 64 daddr⟩], s) else s.touch who false .write ea n
    match target with
    | (.error e, s1) => (CmdOut.failed e, s1)
    | (.ok dst, s1) =>
      match s1.touch who true .read (BitVec.ofNat 64 src) n with
      | (.error e, s2) => (CmdOut.failed e, s2)
      | (.ok from_, s2) =>
        let (ok, cells) := s2.transfer x.unit (keysOfSegs dst) (keysOfSegs from_) n
        ({ (CmdOut.plain (if ok then stOk else stPoisoned) 0).writing dst cells with
           circ := some (ctx, h, hd.gen.toNat)
           signal := if ok && dsig then some (dest, field c.pay 29 21) else none }, s2))

/-- The engine fault of a command of queue n that was given number num: class, detail, subject (R165,
R340). -/
def State.engineFault (s : State) (u : UnitNo) (n cls detail : Nat) (num faddr : W64) : State :=
  s.routeFault (s.unitPart u) cls detail (n + num.toNat % 2 ^ 43 * 32) faddr u (BitVec.ofNat 3 (n / 4))

/-- The fault word of a queue (R165). -/
def faultWord (st : BitVec 8) (op : Nat) (num : W64) : W64 :=
  BitVec.ofNat 64 (st.toNat + op * 2 ^ 8 + num.toNat % 2 ^ 48 * 2 ^ 16)

/-- A SEND that found its circuit not LIVE stays at the head of its queue (R337). -/
def State.holdSend (s : State) (u : UnitNo) (n : Nat) (h : Nat) (num : W64) : State :=
  let c := s.core u
  let x := c.queue n
  let c := { c with eng := Table.erase (n % 4) c.eng }
  (s.setCore u (c.setQueue n { x with circHeld := true, fault := faultWord stCircNotLive 0x13 num })).engineFault
    u n clsCircNotLive h num 0

/-- Start a SEND, or hold it. -/
def State.startSend (s : State) (q : QRef) (c : Cmd) : State :=
  let s1 := s.startCommand q 0x13 c runSend
  let n := q.queue.toNat
  if Table.has (s.core q.unit).eng (n % 4) then s1
  else match (Table.get none ((s1.core q.unit).eng.map (fun (p : Nat × EngRun) => (p.1, some p.2))) (n % 4)) with
    | some r => if r.queue == n && (r.out.map (·.status)) == some stCircNotLive then
        s1.holdSend q.unit n (field c.pay 39 32) r.num else s1
    | none => s1

end Sys2Proof.Machine
end

