-- ==== Sys2Proof/Machine/Pacc.lean ====
section
/-! DEFINITION. Paired accumulate (R263 to R266): the start of a PACC, the messages between the two pair
units, and the timeouts. -/

namespace Sys2Proof.Machine

/-! ### The two sides -/

/-- The cluster of a unit (R251) decides the sides: the lower number is the lower side (R264). -/
def lowerSide (u v : Nat) : Bool := u / 16 < v / 16

def paccPartner (c : Cmd) : Nat := 16 * field c.pay 12 8 + field c.pay 19 16
def paccTag (c : Cmd) : Byte := slice c.pay 24 8

/-- A PACC under way at a unit and not yet decided: its run, its command and its queue. -/
def Core.openPacc (c : Core) : Option (EngRun × Cmd) :=
  match c.eng.find? (fun (p : Nat × EngRun) => p.1 == 0 && p.2.op == 0x06 && p.2.out.isNone) with
  | some (_, r) => match (c.queue r.queue).entries with
    | e :: _ => some (r, parseCmd e.word)
    | [] => none
  | none => none

/-- Decide the open PACC. -/
def Core.decide (c : Core) (o : CmdOut) : Core :=
  { c with eng := c.eng.map (fun (p : Nat × EngRun) =>
      if p.1 == 0 && p.2.op == 0x06 && p.2.out.isNone then (p.1, { p.2 with out := some o }) else p)
           pair := { c.pair with withdrawn := false } }

def State.setPairUnit (s : State) (u : Nat) (p : PairUnit) : State :=
  let un : UnitNo := BitVec.ofNat 10 u
  s.setCore un { s.core un with pair := p }

/-- Send a message to a unit's pair unit. -/
def State.sendPair (s : State) (v : Nat) (m : PairMsg) : State :=
  let p := (s.core (BitVec.ofNat 10 v)).pair
  s.setPairUnit v { p with inbox := p.inbox ++ [m] }

def pairMsg (k : PairKind) (src : Nat) (tag : Byte) : PairMsg :=
  { kind := k, src := src, tag := tag, after := false, tty := 0, rm := 0, ftz := false, tile := 0, rows := [] }

/-- FAULTED after the DATA of the same attempt. -/
def faultedAfter (src : Nat) (tag : Byte) : PairMsg := { pairMsg .faulted src tag with after := true }

/-- The status of a side that fails names its partner and TAG (R265, DESIGN CHOICE, log entry 19). -/
def paccOut (st : BitVec 8) (partner : Nat) (tag : Byte) : CmdOut := CmdOut.plain st (Config.pairName partner tag.toNat)

/-! ### The sum -/

/-- Add(lower, higher), element by element (R264). -/
def paccRow (tty : BitVec 4) (m : Mode) (ftz : Bool) (lo hi : Row) : Row :=
  let a := rowLanes 32 lo
  let b := rowLanes 32 hi
  packRow 32 (List.zipWith (fun x y => if tty = 8 then x + y else faddElem f32 m ftz false x y) a b)

/-- The outcome of a committed side, from the DATA of both. -/
def paccSum (own other : PairMsg) (lower : Bool) : CmdOut :=
  let m := mkMode own.rm 0 0 0
  let row (i : Nat) : Row :=
    let x := Table.get 0 own.rows i
    let y := Table.get 0 other.rows i
    if lower then paccRow own.tty m own.ftz x y else paccRow own.tty m own.ftz y x
  { CmdOut.plain stOk 0 with
    rows := (List.range 64).map (fun i => (rowKey own.tile.toNat i, BitVec.allOnes 256, row i)) }

/-- The two PACCs agree (Table 10-3). -/
def pairEqual (a b : PairMsg) : Bool := a.tag == b.tag && a.tty == b.tty && a.rm == b.rm && a.ftz == b.ftz

/-- The lower side decides when its own PACC has started and the higher side's DATA is there. -/
def State.decideLower (s : State) (u : UnitNo) : State :=
  let c := s.core u
  match c.openPacc, c.pair.buf with
  | some (r, cmd), some d =>
    let v := paccPartner cmd
    match r.own with
    | some own =>
      if d.src != v || !lowerSide u.toNat v then s
      else if pairEqual own d && c.pair.bad then
        -- the error is met while the committed side adds: the other side's OK stands (R265)
        (s.setCore u (c.decide (paccOut stPoisoned v own.tag))).sendPair v (pairMsg .commit u.toNat own.tag)
      else if pairEqual own d then
        let c1 := c.decide (paccSum own d true)
        (s.setCore u { c1 with pair := { c1.pair with buf := none } }).sendPair v (pairMsg .commit u.toNat own.tag)
      else (s.setCore u (c.decide (paccOut stPairMismatch v own.tag))).sendPair v (pairMsg .mismatch u.toNat own.tag)
    | none => s
  | _, _ => s

/-! ### The start (R263, R264) -/

def paccBadField (u : UnitNo) (c : Cmd) : Bool :=
  bit c.pay 3 || field c.pay 15 13 ≠ 0 || field c.pay 23 20 ≠ 0 || field c.pay 127 32 ≠ 0
    || !(field c.pay 7 4 = 0 || field c.pay 7 4 = 8) || c.sat || c.rm = 4 || field c.pay 12 8 = u.toNat / 16

/-- The DATA of a side: its tile, read once. -/
def paccData (u : UnitNo) (c : Cmd) (core : Core) : PairMsg :=
  { kind := .data, src := u.toNat, tag := paccTag c, after := false, tty := slice c.pay 4 4, rm := c.rm, ftz := c.ftz
    tile := slice c.pay 0 3
    rows := (List.range 64).map (fun i => (i, core.row (rowKey (field c.pay 2 0) i))) }

/-- A PACC that fails at its start sends FAULTED in place of DATA; a held ABORT is answered by CLOSED
instead of either. -/
def runPacc : CmdStart := fun x c s =>
  let core := s.core x.unit
  let v := paccPartner c
  let tag := paccTag c
  let u := x.unit.toNat
  let there := s.unitPresent v && s.unitPart (BitVec.ofNat 10 v) == s.unitPart x.unit && field c.pay 12 8 ≠ u / 16
  let held := core.pair.heldAborts.contains (v, tag)
  let closed : State :=
    (s.setPairUnit u { core.pair with heldAborts := core.pair.heldAborts.erase (v, tag) }).sendPair v
      (pairMsg .closed u tag)
  let fail (st : BitVec 8) : Option CmdOut × Option PairMsg × State :=
    (some (paccOut st v tag), none, if held then closed else if there then s.sendPair v (pairMsg .faulted u tag) else s)
  match x.pre with
  | some st => fail st
  | none =>
    if paccBadField x.unit c then (some (paccOut stBadField v tag), none, s)
    else if !there then (some (paccOut stPartnerFault v tag), none, s)
    else if (List.range 64).any (fun i => core.rowBad (rowKey (field c.pay 2 0) i)) then fail stPoisoned
    else if held then (some (paccOut stPartnerLate v tag), none, closed)
    else
      let d := paccData x.unit c core
      -- while its partner is saved its timeout does not run (R266)
      let paused := if (s.core (BitVec.ofNat 10 v)).pair.saved then some core.cycle else none
      (none, some d, (s.setPairUnit u { core.pair with pausedAt := paused }).sendPair v d)

/-- Start a PACC; the lower side may find its partner's DATA there already. -/
def State.startPacc (s : State) (q : QRef) (c : Cmd) : State := (s.startWith q 0x06 c runPacc).decideLower q.unit

/-! ### Messages -/

/-- The first message of a kind that is the oldest from its sender: messages of a pair stay in order. -/
def nextMsg (k : PairKind) : List Nat → List PairMsg → Option PairMsg
  | _, [] => none
  | seen, m :: rest =>
    if m.kind == k && !seen.contains m.src then some m else nextMsg k (m.src :: seen) rest

/-- The event of a message of kind k at unit u: a saved pair unit answers PARKED and the message waits
(R266); else `f` says what comes of it, none where it still waits. -/
def State.onPair (s : State) (u : UnitNo) (k : PairKind) (f : PairMsg → State → Option State) : State :=
  let p := (s.core u).pair
  match nextMsg k [] p.inbox with
  | none => s
  | some m =>
    if p.saved then
      let q := (s.core (BitVec.ofNat 10 m.src)).pair
      if q.inbox.any (fun x => x.kind == .parked && x.src == u.toNat) then s
      else s.sendPair m.src (pairMsg .parked u.toNat m.tag)
    else match f m (s.setPairUnit u.toNat { p with inbox := p.inbox.erase m }) with
      | some s1 => s1
      | none => s

/-- The open PACC of u names the sender of m as its partner. -/
def Core.openWith (c : Core) (m : PairMsg) : Option EngRun :=
  match c.openPacc with
  | some (r, cmd) => if paccPartner cmd == m.src then some r else none
  | none => none

def PairUnit.dropFrom (p : PairUnit) (v : Nat) : PairUnit :=
  match p.buf with
  | some d => if d.src == v then { p with buf := none, bad := false, keptFor := [] } else p
  | none => p

/-- PACC_DATA: dropped for an aborted TAG; it waits while the buffer holds another tile. -/
def evPaccData (u : UnitNo) (s : State) : State :=
  s.onPair u .data (fun m s =>
    let p := (s.core u).pair
    if lowerSide u.toNat m.src && p.aborted.contains m.tag then some s
    else if p.buf.isSome then none
    else some ((s.setPairUnit u.toNat { p with buf := some m, bad := false }).decideLower u))

/-- PACC_COMMIT at the higher side: it forms the same sum. -/
def evPaccCommit (u : UnitNo) (s : State) : State :=
  s.onPair u .commit (fun m s =>
    let c := s.core u
    match c.openWith m, c.pair.buf with
    | some r, some d =>
      match r.own with
      | some own =>
        if d.src != m.src then none
        else if c.pair.bad then
          some ((s.setCore u (c.decide (paccOut stPoisoned m.src own.tag))).sendPair m.src (faultedAfter u.toNat own.tag))
        else
          let c1 := c.decide (paccSum own d false)
          some (s.setCore u { c1 with pair := { c1.pair with buf := none } })
      | none => none
    | _, _ => none)

/-- PACC_MISMATCH at the higher side. -/
def evPaccMismatch (u : UnitNo) (s : State) : State :=
  s.onPair u .mismatch (fun m s =>
    let c := s.core u
    match c.openWith m with
    | some _ => some (s.setCore u (c.decide (paccOut stPairMismatch m.src m.tag)))
    | none => none)

/-- PACC_ABORT at the higher side. -/
def evPaccAbort (u : UnitNo) (s : State) : State :=
  s.onPair u .abort (fun m s =>
    let c := s.core u
    let p := c.pair.dropFrom m.src
    match c.openWith m with
    | some r =>
      if (r.own.map (·.tag)) == some m.tag then
        some ((s.setCore u ({ c with pair := p }.decide (paccOut stPartnerLate m.src m.tag))).sendPair m.src
          (pairMsg .closed u.toNat m.tag))
      else some (s.setPairUnit u.toNat { p with heldAborts := (m.src, m.tag) :: p.heldAborts })
    | none => some (s.setPairUnit u.toNat { p with heldAborts := (m.src, m.tag) :: p.heldAborts }))

/-- PACC_WITHDRAW at the lower side: ignored where the TAG is aborted already, or the DATA it withdraws
has been committed. -/
def evPaccWithdraw (u : UnitNo) (s : State) : State :=
  s.onPair u .withdraw (fun m s =>
    let p := (s.core u).pair
    match p.buf with
    | some d =>
      if p.aborted.contains m.tag || d.src != m.src then some s
      else some ((s.setPairUnit u.toNat { p.dropFrom m.src with aborted := m.tag :: p.aborted }).sendPair m.src
        (pairMsg .abort u.toNat m.tag))
    | none => some s)

/-- PACC_CLOSED at the lower side. -/
def evPaccClosed (u : UnitNo) (s : State) : State :=
  s.onPair u .closed (fun m s =>
    let p := (s.core u).pair
    some (s.setPairUnit u.toNat { p with aborted := p.aborted.filter (· != m.tag) }))

/-- The lower side has committed or dropped the DATA that a FAULTED of the higher side comes after. -/
def PairUnit.settled (p : PairUnit) (m : PairMsg) : Bool :=
  m.after && !(match p.buf with
    | some d => d.src == m.src
    | none => false)

/-- PACC_FAULTED: the side that has not committed completes PARTNER-FAULT; where none is open, the message of an
aborted attempt is dropped. -/
def evPaccFaulted (u : UnitNo) (s : State) : State :=
  s.onPair u .faulted (fun m s =>
    let c := s.core u
    let lower := lowerSide u.toNat m.src
    if lower && c.pair.settled m then some s
    else match c.openWith m with
      | some _ => some (s.setCore u (c.decide (paccOut stPartnerFault m.src m.tag)))
      | none => if lower && c.pair.aborted.contains m.tag then some s else none)

/-- PACC_PARKED: the partner is saved, and the timeout of this side's PACC with it does not run (R266); one that comes
after the partner has resumed, or that PACC has ended, says nothing any more. -/
def evPaccParked (u : UnitNo) (s : State) : State :=
  s.onPair u .parked (fun m s =>
    let c := s.core u
    if !(s.core (BitVec.ofNat 10 m.src)).pair.saved || (c.openWith m).isNone then some s
    else some (s.setPairUnit u.toNat { c.pair with pausedAt := some (c.pair.pausedAt.getD c.cycle) }))

/-! ### Timeouts -/

/-- The open PACC of u has waited sys.PAIRTO cc. -/
def State.pairLate (s : State) (u : UnitNo) (lower : Bool) : Option (EngRun × Cmd) :=
  let c := s.core u
  match c.openPacc with
  | some (r, cmd) =>
    if c.pair.pausedAt.isNone && !c.pair.saved && lowerSide u.toNat (paccPartner cmd) == lower
        && (s.cluster (unitCluster u)).pairto.toNat ≤ (c.cycle - r.cc).toNat then some (r, cmd)
    else none
  | none => none

/-- PAIR_TIMEOUT_LOWER: ABORT, PARTNER-LATE, and the TAG is marked. -/
def evPairTimeoutLower (u : UnitNo) (s : State) : State :=
  match s.pairLate u true with
  | none => s
  | some (_, cmd) =>
    let v := paccPartner cmd
    let tag := paccTag cmd
    let c := (s.core u).decide (paccOut stPartnerLate v tag)
    (s.setCore u { c with pair := { c.pair with aborted := tag :: c.pair.aborted } }).sendPair v
      (pairMsg .abort u.toNat tag)

/-- PAIR_TIMEOUT_HIGHER: WITHDRAW, and the answer is awaited. -/
def evPairTimeoutHigher (u : UnitNo) (s : State) : State :=
  match s.pairLate u false with
  | none => s
  | some (_, cmd) =>
    let p := (s.core u).pair
    if p.withdrawn then s
    else (s.setPairUnit u.toNat { p with withdrawn := true }).sendPair (paccPartner cmd)
      (pairMsg .withdraw u.toNat (paccTag cmd))

end Sys2Proof.Machine
end

