-- ==== Sys2Proof/Machine/Complete.lean ====
section
/-! DEFINITION. What an engine does at a command boundary: taking the next command (R161), and completing one
(R162, R165, R207, R217, R220, R336). -/

namespace Sys2Proof.Machine

/-! ### Starting -/

def evMma (q : QRef) (c : Cmd) (s : State) : State := s.startCommand q 0x01 c runMma
def evMmas (q : QRef) (c : Cmd) (s : State) : State := s.startCommand q 0x02 c runMmas
def evMzero (q : QRef) (c : Cmd) (s : State) : State := s.startCommand q 0x03 c runMzero
def evMload (q : QRef) (c : Cmd) (s : State) : State := s.startCommand q 0x04 c runMload
def evMdrain (q : QRef) (c : Cmd) (s : State) : State := s.startCommand q 0x05 c runMdrain
def evPacc (q : QRef) (c : Cmd) (s : State) : State := s.startPacc q c
def evCopy (q : QRef) (c : Cmd) (s : State) : State := s.startCommand q 0x10 c runCopy
def evFeed (q : QRef) (c : Cmd) (s : State) : State := s.startCommand q 0x11 c runFeed
def evFeedm (q : QRef) (c : Cmd) (s : State) : State := s.startCommand q 0x12 c runFeedm
def evSend (q : QRef) (c : Cmd) (s : State) : State := s.startSend q c
def evGather (q : QRef) (c : Cmd) (s : State) : State := s.startCommand q 0x20 c runGather
def evScatter (q : QRef) (c : Cmd) (s : State) : State := s.startCommand q 0x21 c runScatter
def evNotify (q : QRef) (c : Cmd) (s : State) : State := s.startCommand q 0x3F c runNotify

/-! ### Completing -/

/-- The address of a far or pinned byte a command writes. -/
def CmdOut.farVa (o : CmdOut) (key : Nat) : W64 :=
  match o.fars.find? (fun f => f.1 ≤ key && key < f.1 + f.2.1) with
  | some f => f.2.2 + BitVec.ofNat 64 (key - f.1)
  | none => 0

/-- The outcome at completion: a SEND whose circuit stopped being LIVE is CIRC-LOST, with some of its
pieces written and no arrival (R336). -/
def State.lostCheck (s : State) (o : CmdOut) : CmdOut :=
  match o.circ with
  | none => o
  | some (ctx, h, gen) =>
    let x := (s.seqOf ctx).handle h
    if x.state == .live && x.gen.toNat == gen then o
    else
      { o with status := if o.status = stOk then stCircLost else o.status
               cells := ((List.range o.cells.length).zip o.cells).filterMap (fun (p : Nat × (Nat × Byte)) =>
                 if Config.pieceDone s.tick (p.1 / 32) then some p.2 else none)
               signal := none }

/-- A completion that writes bytes of a lost die is POISONED, and those bytes are not written (R284). -/
def State.dieCheck (s : State) (o : CmdOut) : CmdOut :=
  if o.cells.any (fun c => s.homeLost c.1) then
    { o with status := if o.status = stOk then stPoisoned else o.status
             cells := o.cells.filter (fun c => !s.homeLost c.1)
             rows := if o.drain.isSome then [] else o.rows
             drain := o.drain.map (fun d => (d.1, false, false))
             signal := none }
  else o

/-- A completion whose write was held during a change of split and lies beyond the new size is an XLATE-FAULT, found
under that size, and those bytes are not written (R252). -/
def State.pinCheck (s : State) (u : UnitNo) (e : QEntry) (o : CmdOut) : CmdOut :=
  match o.cells.find? (fun c => s.pinGone c.1) with
  | none => o
  | some (k, _) =>
    let va := o.farVa k
    let word := match (s.translate ⟨u, s.unitPart u, e.sup, e.pkr⟩ va .write .quiet).1 with
      | .error f => f.word
      | .ok _ => 0
    { o with status := if o.status = stOk then stXlateFault else o.status
             faddr := if o.status = stOk then va else o.faddr
             xword := if o.status = stOk then word else o.xword
             cells := o.cells.filter (fun c => !s.pinGone c.1)
             signal := none }

/-- Write the masked bytes of tile rows. -/
def maskBits : Nat → Nat → Nat
  | 0, _ => 0
  | n + 1, m => (if m % 2 = 1 then 255 else 0) + 256 * maskBits n (m / 2)

def mergeRow (m : MaskReg) (old new : Row) : Row :=
  let b : Row := BitVec.ofNat 2048 (maskBits 256 m.toNat)
  (old &&& ~~~b) ||| (new &&& b)

/-- An element whose bytes the mask covers is no longer poisoned. -/
def Core.putMasked (c : Core) : List (Nat × MaskReg × Row) → Core
  | [] => c
  | (key, m, r) :: rest =>
    let c1 := c.setRow key (if m = BitVec.allOnes 256 then r else mergeRow m (c.row key) r)
    let covered (e : Nat) : Bool :=
      e / 64 == key && (List.range 4).all (fun i => m.getLsbD (4 * (e % 64) + i))
    { c1 with badElems := c.badElems.filter (fun e => !covered e) }.putMasked rest

/-- Release the consumed slots (R207). -/
def Core.releaseSlots (c : Core) (n : Nat) : Core :=
  let a := rpA c
  let b := rpB c
  let c1 := c.setFifo false a FSlot.reset
  let c2 := (List.range n).foldl (fun (x : Core) i => x.setFifo true (b + i) FSlot.reset) c1
  { c2 with mxpos := BitVec.ofNat 64 ((a + 1) % 2 ^ 32 + (b + n) % 2 ^ 32 * 2 ^ 32) }

/-- The effects of a completion on the core: tile rows, slots, the drain record. -/
def Core.applyOut (c : Core) (o : CmdOut) : Core :=
  let c := c.putMasked o.rows
  let c := o.fills.foldl (fun (x : Core) (f : Bool × Nat × FSlot) => x.setFifo f.1 f.2.1 f.2.2) c
  let c := match o.release with
    | some n => c.releaseSlots n
    | none => c
  match o.drain with
  | some (t, nan, ovf) => { c with statEv := c.statEv ++ [{ cc := c.cycle, tile := t, nan := nan, ovf := ovf }] }
  | none => c

/-- The command's stores toward other modules; they are of no queue entry of the strand (R129, R393). -/
def State.commandStores (s : State) (u : UnitNo) (k : StrandNo) (o : CmdOut) : List (Nat × List Byte) → State
  | [] => s
  | (key, bs) :: rest =>
    (s.farStores ⟨u, k, 0, s.unitPart u, o.farVa key⟩ [(key, bs)]).commandStores u k o rest

/-- Every follow-on that hangs on command num of queue n (R220). -/
def Core.resolvePend (c : Core) (n : Nat) (num : W64) (ok : Bool) : Core :=
  { c with queues := c.queues.map (fun (p : Nat × Queue) =>
      (p.1, { p.2 with entries := p.2.entries.map (fun e =>
        if e.pend == some (n, num) then { e with pend := none, failed := !ok } else e) })) }

/-- The units whose scratchpads cells lie in. -/
def spadUnits (cells : List (Nat × Byte)) : List Nat :=
  (cells.filterMap (fun c => match placeOf c.1 with
    | .spad n => some n
    | _ => none)).eraseDups

/-- The writes of a completion, visible at package scope; filled blocks they touch become dirty (R150). -/
def State.commandWrites (s : State) (u : UnitNo) (k : StrandNo) (o : CmdOut) : State :=
  let far := o.cells.filter (fun c => isFar c.1)
  let s := s.makeVisible u o.cells (o.packed.map (fun b => (512 * b, 512)))
  let s := s.commandStores u k o (runsOf far)
  let s := (spadUnits o.cells).foldl (fun (s : State) (v : Nat) =>
    s.markDirty (BitVec.ofNat 10 v) (o.cells.map Prod.fst)) s
  match o.signal with
  | some (v, b) => s.arrive (BitVec.ofNat 10 v) b 1
  | none => s

/-- The routed record of an XLATE-FAULT holds the translation fault word beside the faulting address (R294; DESIGN
CHOICE, log entry 82). -/
def State.noteXlate (s : State) (u : UnitNo) (r : EngRun) (o : CmdOut) : State :=
  if o.status = stXlateFault then
    let p := s.unitPart u
    let k : StrandNo := BitVec.ofNat 3 (r.queue / 4)
    let x : XRecord := { finfo := routedInfo clsEngine o.status.toNat (r.queue + r.num.toNat % 2 ^ 43 * 32), faddr := o.faddr
                         word := o.xword, origin := originWord u.toNat k.toNat (s.strand u k).nodeNo }
    s.setPart p { s.partOf p with xrecs := (s.partOf p).xrecs ++ [x] }
  else s

/-- A completion with a failure writes FAULT and routes one fault (R165). -/
def State.commandFault (s : State) (u : UnitNo) (r : EngRun) (o : CmdOut) : State :=
  if o.status = stOk || o.status = stSkipped then s
  else
    let c := s.core u
    let x := c.queue r.queue
    let s := s.setCore u (c.setQueue r.queue
      { x with fault := if x.fault = 0 then faultWord o.status r.op r.num else x.fault
               xword := if x.fault = 0 then o.xword else x.xword })
    if o.status = stCircLost then
      s.engineFault u r.queue clsCircLost ((o.circ.map (fun p => p.2.1)).getD 0) r.num o.faddr
    else (s.noteXlate u r o).engineFault u r.queue clsEngine o.status.toNat r.num o.faddr

/-- The command is done: its entry is freed, TL is its number, and follow-ons of it are settled. The half that a
PACC's partner sent is kept where the PACC failed (R265). -/
def Core.retire (c : Core) (r : EngRun) (ok : Bool) : Core :=
  let x := c.queue r.queue
  let c := c.changeQueue r.queue { x with entries := x.entries.drop 1, head := x.head + 1, tl := r.num, doneFault := x.fault }
  let c := if r.op = 0x06 then { c with pair := { c.pair with keptFor := if ok then [] else r.queue :: c.pair.keptFor } } else c
  let c := { c with eng := Table.erase (r.queue % 4) c.eng, chainAt := if r.queue % 4 = 0 then c.cycle else c.chainAt }
  c.resolvePend r.queue r.num ok

/-- A write of the completion has to wait: its page is on the move (R279), or its block is being
filled. -/
def State.completionWaits (s : State) (u : UnitNo) (o : CmdOut) : Bool :=
  o.cells.any (fun c => s.writeHeld c.1 || s.fillHolds u c.1)

/-- The egress queues do not take all that a command of strand k writes at other modules (R383). -/
def State.outFull (s : State) (u : UnitNo) (k : StrandNo) (o : CmdOut) : Bool := s.farFull u k (flitStarts (o.cells.map Prod.fst))

/-- Of far bytes to write, those of the first flits that the queues take. -/
def State.firstFits (s : State) (u : UnitNo) (k : StrandNo) (keys : List Nat) : List Nat :=
  let (e, i) := farRoute u k
  let rs := runsOf ((keys.filter isFar).map (fun a => (a, 0)))
  (rs.take (s.fabric.fitCount (4 * e + i) [] (rs.map Prod.fst))).flatMap (fun r => (List.range r.2.length).map (r.1 + ·))

/-- The units of a SEND that failed their CRC, were sent again and then came through (R319, R336). -/
def State.countResends (s : State) : State :=
  let n := s.optics.resent.toNat + Config.resends s.tick
  { s with optics := { s.optics with resent := BitVec.ofNat 16 (Nat.min n 0xFFFF) } }

/-- COMMAND_COMPLETE. A command of a frozen queue, started before, does not complete, and keeps its engine (R175; DESIGN
CHOICE, log entry 102). -/
def evCommandComplete (q : QRef) (s : State) : State :=
  let u := q.unit
  let n := q.queue.toNat
  let c := s.core u
  let x := c.queue n
  match c.eng.find? (fun (p : Nat × EngRun) => p.2.queue == n), x.entries with
  | some (_, r), e :: _ =>
    match r.out with
    | none => s
    | some o =>
      if x.frozen || s.completionWaits u o || s.outFull u (BitVec.ofNat 3 (n / 4)) o then s
      else
        let o := s.dieCheck (s.pinCheck u e (s.lostCheck o))
        let k : StrandNo := BitVec.ofNat 3 (n / 4)
        let cmd := parseCmd e.word
        let s := s.commandWrites u k o
        let s := s.setCore u ((s.core u).applyOut o)
        let s := s.commandFault u r o
        let s := if o.circ.isSome then s.countResends else s
        let s := s.setCore u ((s.core u).retire r (o.status == stOk))
        let s := if cmd.rsk = 1 && !r.rung then s.arrive u cmd.rsb.toNat 1 else s
        { s with tick := s.tick + 1 }
  | _, _ => s

/-- The bytes of the 4-byte elements of a row that f picks. -/
def lanesMask (f : Nat → Bool) : MaskReg :=
  BitVec.ofNat 256 (((List.range 64).filter f).map (fun i => 15 * 2 ^ (4 * i))).sum

/-- The part of masked rows that lies in the elements which f picks, by row and element. -/
def rowsIn (f : Nat → Nat → Bool) (rows : List (Nat × MaskReg × Row)) : List (Nat × MaskReg × Row) :=
  (rows.map (fun x => (x.1, x.2.1 &&& lanesMask (f x.1), x.2.2))).filter (fun x => x.2.1 != 0)

/-- Of what a command has still to write, nothing lies in this core's scratchpad or tiles: its RSK arrival may be made
before the rest is visible (R171, R369; DEDUCED, log entry 7). -/
def CmdOut.onlyGlobal (o : CmdOut) (u : UnitNo) : Bool :=
  o.status == stOk && !o.cells.isEmpty && o.rows.isEmpty && o.fills.isEmpty && o.drain.isNone
    && o.cells.all (fun c => match placeOf c.1 with
      | .spad v => v != u.toNat
      | _ => true)

/-- The RSK arrival of a command under way, made once only writes to other places are left, where it comes so early. -/
def State.ringEarly (s : State) (u : UnitNo) (e : Nat) (r : EngRun) (o : CmdOut) : State :=
  match ((s.core u).queue r.queue).entries with
  | x :: _ =>
    let cmd := parseCmd x.word
    if cmd.rsk = 1 && !r.rung && o.onlyGlobal u && Config.ringsEarly s.tick then
      let s := s.arrive u cmd.rsb.toNat 1
      s.setCore u { s.core u with eng := Table.set (s.core u).eng e { r with out := some o, rung := true } }
    else s
  | [] => s

/-- A command under way writes some of its pieces before it completes: 4-byte elements of tiles, and 32-byte pieces of
memory (R156, R202; DESIGN CHOICE, log entry 81). -/
def State.writeEarly (s : State) (u : UnitNo) (e : Nat) : State :=
  match (s.core u).eng.find? (fun p => p.1 == e) with
  | some (_, r) =>
    match r.out with
    | none => s
    | some o =>
      if s.completionWaits u o || o.circ.isSome || ((s.core u).queue r.queue).frozen then s
      else
        let k : StrandNo := BitVec.ofNat 3 (r.queue / 4)
        -- where the egress queues are short of room, what they take goes first
        let full := s.outFull u k o
        let fits := s.firstFits u k (o.cells.map Prod.fst)
        let now (n : Nat) : Bool := !full && Config.pieceDone s.tick n
        let go (a : Nat) : Bool := if full then fits.contains a else now (a / 32) && !s.homeLost a && !s.pinGone a
        let o1 : CmdOut := { s.dieCheck o with
          cells := o.cells.filter (fun c => go c.1)
          rows := rowsIn (fun key i => now (64 * key + i)) o.rows
          fills := [], release := none, drain := none, signal := none }
        let o2 : CmdOut := { o with cells := o.cells.filter (fun c => !go c.1)
                                    rows := rowsIn (fun key i => !now (64 * key + i)) o.rows }
        if s.outFull u k o1 then s else
        let s := s.commandWrites u k o1
        let c := (s.core u).putMasked o1.rows
        let s := (s.setCore u { c with eng := Table.set c.eng e { r with out := some o2 } }).ringEarly u e r o2
        { s with tick := s.tick + 1 }
  | none => s

/-- CHAIN_TIMEOUT (R212): the chain stays open in its queue, and the engine returns to round robin. -/
def evChainTimeout (q : QRef) (s : State) : State :=
  let c := s.core q.unit
  if c.chainLock && Table.get 0 c.served 0 == q.queue.toNat && !Table.has c.eng 0
      && 64 ≤ (c.cycle - c.chainAt).toNat && !s.cmdReady q.unit q.queue.toNat then
    s.setCore q.unit { c with chainLock := false }
  else s

end Sys2Proof.Machine
end

