-- ==== Sys2Proof/Machine/Ecdsa.lean ====
section
/-! DEFINITION. Checking an ECDSA signature over brainpoolP384r1 (R2, R438). The spec names the curve by RFC 5639 and
gives no text of it; its constants and the check are the standards' (PRESUMED, log entry 31). -/

namespace Sys2Proof.Machine

/-- The prime of the field, the coefficients of the curve y² = x³ + a x + b, its base point and the order of it. -/
def curveP : Nat := 0x8CB91E82A3386D280F5D6F7E50E641DF152F7109ED5456B412B1DA197FB71123ACD3A729901D1A71874700133107EC53
def curveA : Nat := 0x7BC382C63D8C150C3C72080ACE05AFA0C2BEA28E4FB22787139165EFBA91F90F8AA5814A503AD4EB04A8C7DD22CE2826
def curveB : Nat := 0x04A8C7DD22CE28268B39B55416F0447C2FB77DE107DCD2A62E880EA53EEB62D57CB4390295DBC9943AB78696FA504C11
def curveX : Nat := 0x1D1C64F068CF45FFA2A63A81B7C13F6B8847A3E77EF14FE3DB7FCAFE0CBD10E8E826E03436D646AAEF87B2E247D4AF1E
def curveY : Nat := 0x8ABE1D7520F9C2A45CB1EB8E95CFD55262B70B29FEEC5864E19C054FF99129280E4646217791811142820341263C5315
def curveQ : Nat := 0x8CB91E82A3386D280F5D6F7E50E641DF152F7109ED5456B31F166E6CAC0425A7CF3AB6AF6B7FC3103B883202E9046565

/-- b ^ e modulo m, for an e of at most `bits` bits. -/
def powMod (m : Nat) : Nat → Nat → Nat → Nat
  | 0, _, _ => 1 % m
  | bits + 1, b, e => powMod m bits (b * b % m) (e / 2) * (if e % 2 = 1 then b else 1) % m

/-- The inverse modulo a prime of 384 bits. -/
def invMod (m x : Nat) : Nat := powMod m 384 x (m - 2)

/-- A point of the curve; none is the point at infinity. -/
abbrev Point := Option (Nat × Nat)

/-- The third point of the line with a slope, reflected. -/
def lineThrough (slope : Nat) (a b : Nat × Nat) : Point :=
  let x := (slope * slope + 2 * curveP - a.1 - b.1) % curveP
  some (x, (slope * (a.1 + curveP - x) + curveP - a.2) % curveP)

/-- The sum of two points. -/
def Point.add : Point → Point → Point
  | none, q => q
  | p, none => p
  | some a, some b =>
    if a.1 != b.1 then lineThrough ((b.2 + curveP - a.2) * invMod curveP (b.1 + curveP - a.1) % curveP) a b
    else if a.2 != b.2 || a.2 == 0 then none
    else lineThrough ((3 * a.1 * a.1 + curveA) * invMod curveP (2 * a.2) % curveP) a a

/-- k times a point, for a k of at most `bits` bits. -/
def Point.times : Nat → Nat → Point → Point
  | 0, _, _ => none
  | bits + 1, k, p => (Point.times bits (k / 2) (p.add p)).add (if k % 2 = 1 then p else none)

def onCurve (x y : Nat) : Bool :=
  x < curveP && y < curveP && y * y % curveP == (x * x * x + curveA * x + curveB) % curveP

/-- The signature r, s of a digest checks under a key: each a pair of 384-bit numbers, the first in the upper half. -/
def signatureOk (key : BitVec 768) (digest : BitVec 384) (sig : BitVec 768) : Bool :=
  let x := key.toNat / 2 ^ 384
  let y := key.toNat % 2 ^ 384
  let r := sig.toNat / 2 ^ 384
  let t := sig.toNat % 2 ^ 384
  let w := invMod curveQ t
  let sum := (Point.times 384 (digest.toNat * w % curveQ) (some (curveX, curveY))).add
    (Point.times 384 (r * w % curveQ) (some (x, y)))
  onCurve x y && 0 < r && r < curveQ && 0 < t && t < curveQ
  && (match sum with
    | some a => a.1 % curveQ == r
    | none => false)

end Sys2Proof.Machine
end

