-- ==== Sys2Proof/Machine/Ppa.lean ====
section
/-! DEFINITION. The product-polynomial accumulator (R230 to R250): its operations, what applying them
does, and its instructions. -/

namespace Sys2Proof.Machine

/-! ### Accumulators -/

def Core.acc (c : Core) (n : Nat) : PpAcc := Table.get PpAcc.reset c.pp n
def Core.setAcc (c : Core) (n : Nat) (a : PpAcc) : Core := { c with pp := Table.set c.pp n a }

/-- c_k: +0 above the degree. -/
def PpAcc.coef (a : PpAcc) (k : Nat) : W32 := if k ≤ a.deg.toNat then Table.get 0 a.c k else 0
def PpAcc.val (a : PpAcc) (k : Nat) : FV := f32.decode (a.coef k).toNat

/-- The coefficients c_0 to c_N as a list. -/
def PpAcc.coefs (a : PpAcc) : List W32 := (List.range (a.deg.toNat + 1)).map a.coef

/-- Coefficients as a table, +0 left out. -/
def coefTable (l : List Nat) : Table W32 :=
  ((List.range l.length).zip l).foldr (fun p t => if p.2 % 2 ^ 32 = 0 then t else (p.1, BitVec.ofNat 32 p.2) :: t) []

/-- The status word (Table 9-2). -/
def PpAcc.status (a : PpAcc) : W32 :=
  BitVec.ofNat 32 (a.deg.toNat + a.trunc.toNat * 2 ^ 8 + a.unstable.toNat * 2 ^ 9 + a.nan.toNat * 2 ^ 10
    + a.range.toNat * 2 ^ 11 + a.psn.toNat * 2 ^ 12)

/-- SCL moved by d, clamped to 32 bits with RANGE (R232). -/
def PpAcc.addScl (a : PpAcc) (d : Int) : PpAcc :=
  let x := a.scl.toInt + d
  let t : ITy := ⟨32, true⟩
  { a with scl := BitVec.ofInt 32 (t.saturate x), range := a.range || t.saturate x != x }

/-! ### Rounding and overflow (R236) -/

/-- The magnitude code of a finite value rounded with unbounded exponent range. -/
def FFmt.unbounded (f : FFmt) (mode : Mode) (s : Bool) (m : Nat) (e : Int) : Nat :=
  let ue := f.ulpExp m e
  let q := if ue ≤ e then m * 2 ^ (e - ue).toNat else roundMag mode s m (2 ^ (ue - e).toNat)
  (ue - (1 - f.bias - f.man)).toNat * 2 ^ f.man + q

/-- A finite value that overflows FP32 in a mode. -/
def overflows32 (mode : Mode) : FV → Bool
  | .fin s m e => m != 0 && f32.maxCode < f32.unbounded mode s m e
  | _ => false

/-- The value of num / den with den a nonzero finite value, rounded to FP32, and whether it overflowed;
an exact zero is +0 (R240). -/
def quotient (mode : Mode) (ftz : Bool) (num den : FV) : Nat × Bool :=
  match num, den with
  | .fin s n e, .fin t d g =>
    if n = 0 then (0, false)
    else
      let neg := s != t
      let l0 : Int := (n.log2 : Int) - d.log2
      let ge := if 0 ≤ l0 then d * 2 ^ l0.toNat ≤ n else d ≤ n * 2 ^ (-l0).toNat
      let l := if ge then l0 else l0 - 1
      let x := e - g
      let ue := max (l + x - f32.man) (1 - f32.bias - f32.man)
      let q := if ue ≤ x then roundMag mode neg (n * 2 ^ (x - ue).toNat) d
               else roundMag mode neg n (d * 2 ^ (ue - x).toNat)
      let mag := (ue - (1 - f32.bias - f32.man)).toNat * 2 ^ f32.man + q
      if f32.maxCode < mag then (f32.overflow mode false neg, true)
      else if ftz && mag < 2 ^ f32.man then (f32.signed neg 0, false)
      else (f32.signed neg mag, false)
  | .inf s, .fin t _ _ => (f32.infinite false (s != t), false)
  | _, _ => (f32.nan, false)

/-! ### Rescale (R237) -/

/-- |x| against 2^k. -/
def magBelow (x : FV) (k : Int) : Bool :=
  match x with
  | .nan => true
  | .inf _ => false
  | .fin _ m e => m == 0 || (m.log2 : Int) + e < k

def PpAcc.rescale (a : PpAcc) (ftz : Bool) : PpAcc :=
  let vs := (List.range (a.deg.toNat + 1)).map a.val
  let big := vs.any (fun v => !magBelow v 64)
  let small := vs.all (fun v => magBelow v (-64)) && vs.any (fun v => !v.isNan && !v.isZero)
  if big || small then
    let s : Int := if big then -64 else 64
    let cs := vs.map (fun v => f32.roundTo .rne false ftz (v.scale s))
    { a with c := coefTable cs }.addScl (-s)
  else a

/-! ### Applying operations -/

def isNan32 (x : Nat) : Bool := (f32.decode x).isNan

/-- One factor (a + b z); coefficient k uses stream st + k (R236, R244). -/
def PpAcc.factor (x : PpAcc) (mode : Nat → Mode) (ftz : Bool) (a b : Nat) : PpAcc :=
  let va := f32.decode a
  let vb := f32.decode b
  let n := x.deg.toNat
  let prev (k : Nat) : FV := if k = 0 then .fin false 0 0 else x.val (k - 1)
  let exact (k : Nat) : FV := exactSum [va.mul (x.val k)] (vb.mul (prev k))
  let cs := (List.range (n + 1)).map (fun k => f32.roundTo (mode k) false ftz (exact k))
  let exceeds := (List.range (n + 1)).any (fun k => va.isFinite && vb.isFinite && (x.val k).isFinite && (prev k).isFinite
    && overflows32 (mode k) (exact k))
  let r := { x with c := coefTable cs, trunc := x.trunc || !(vb.mul (x.val n)).isZero
                    nan := x.nan || cs.any isNan32, range := x.range || exceeds }
  r.rescale ftz

/-- A merge of q into p (R238). -/
def PpAcc.merge (p q : PpAcc) (mode : Nat → Mode) (ftz : Bool) : PpAcc :=
  let n := p.deg.toNat
  let ns := q.deg.toNat
  let term (i j : Nat) : FV := (p.val i).mul (q.val j)
  let exact (k : Nat) : FV := exactSum ((List.range (k + 1)).map (fun i => term i (k - i))) (.fin false 0 0)
  let fin (k : Nat) : Bool := (List.range (k + 1)).all (fun i => (p.val i).isFinite && (q.val i).isFinite)
  let cs := (List.range (n + 1)).map (fun k => f32.roundTo (mode k) false ftz (exact k))
  let exceeds := (List.range (n + 1)).any (fun k => fin k && overflows32 (mode k) (exact k))
  let lost := (List.range (n + 1)).any (fun i => (List.range (ns + 1)).any (fun j => n < i + j && !(term i j).isZero))
  let r := { p with c := coefTable cs, trunc := p.trunc || (q.trunc && ns < n) || lost
                    nan := p.nan || q.nan || cs.any isNan32, range := p.range || q.range || exceeds }
  (r.addScl q.scl.toInt).rescale ftz

/-- The quotients of a removal from the bottom up: q_k from c_k and q_(k-1), newest first. -/
def removeUp (x : PpAcc) (mode : Nat → Mode) (ftz : Bool) (va vb : FV) : Nat → List (Nat × Bool)
  | 0 => [quotient (mode 0) ftz (exactSum [(vb.mul (.fin false 0 0)).neg] (x.val 0)) va]
  | k + 1 =>
    let qs := removeUp x mode ftz va vb k
    let q := f32.decode ((qs.head?.map (·.1)).getD 0)
    quotient (mode (k + 1)) ftz (exactSum [(vb.mul q).neg] (x.val (k + 1))) va :: qs

/-- From the top down: q_(d-1) to q_0 with n of them, q_(d-n) first in the list. -/
def removeDown (x : PpAcc) (mode : Nat → Mode) (ftz : Bool) (va vb : FV) (d : Nat) : Nat → List (Nat × Bool)
  | 0 => []
  | 1 => [quotient (mode (d - 1)) ftz (x.val d) vb]
  | n + 2 =>
    let qs := removeDown x mode ftz va vb d (n + 1)
    let k := d - (n + 1)
    let q := f32.decode ((qs.head?.map (·.1)).getD 0)
    quotient (mode (k - 1)) ftz (exactSum [(va.mul q).neg] (x.val k)) vb :: qs

/-- Write the quotients of a removal. -/
def PpAcc.quotients (x : PpAcc) (ftz : Bool) (qs : List (Nat × Bool)) : PpAcc :=
  let r := { x with c := coefTable (qs.map Prod.fst), range := x.range || qs.any Prod.snd
                    nan := x.nan || (qs.map Prod.fst).any isNan32 }
  r.rescale ftz

/-- Removing the factor (a + b z) (R240). -/
def PpAcc.remove (x : PpAcc) (mode : Nat → Mode) (ftz : Bool) (a b : Nat) : PpAcc :=
  let va := f32.decode a
  let vb := f32.decode b
  let n := x.deg.toNat
  let ks := List.range (n + 1)
  let refuse := { x with unstable := true }
  if !va.isFinite || !vb.isFinite || ks.any (fun k => !(x.val k).isFinite) || (va.isZero && vb.isZero) then refuse
  else if a % 2 ^ 31 ≥ b % 2 ^ 31 then x.quotients ftz (removeUp x mode ftz va vb n).reverse
  else if x.trunc then refuse
  else match ks.reverse.find? (fun k => !(x.val k).isZero) with
    | none => x
    | some 0 => refuse
    | some d => x.quotients ftz (removeDown x mode ftz va vb d d)

/-- PPSET (R242). -/
def PpAcc.setConst (x : PpAcc) (c : W32) : PpAcc :=
  let n := isNan32 c.toNat
  { x with c := coefTable [if n then 0x7FC00000 else c.toNat], scl := 0, trunc := false, unstable := false
           range := false, psn := false, nan := n }

/-- PPDEG (R243). -/
def PpAcc.setDegree (x : PpAcc) (n : BitVec 6) : PpAcc :=
  let lost := (List.range (x.deg.toNat + 1)).any (fun k => n.toNat < k && !(x.val k).isZero)
  { x with deg := n, trunc := x.trunc || lost, c := x.c.filter (fun (p : Nat × W32) => p.1 ≤ n.toNat && p.1 ≤ x.deg.toNat) }

/-- PPWR (R249). -/
def PpAcc.load (x : PpAcc) (row : Row) (scl st : W32) : PpAcc :=
  { x with deg := st.setWidth 6, trunc := st.getLsbD 8, unstable := st.getLsbD 9, nan := st.getLsbD 10
           range := st.getLsbD 11, psn := false, scl := scl
           c := coefTable ((rowLanes 32 row).take (field st 5 0 + 1)) }

/-- The mode of coefficient k of an operation, from stream st on. -/
def PpOp.modeAt (o : PpOp) (st k : Nat) : Mode := mkMode o.mode o.key o.ctr.toNat (st + k)

/-- While PSN is set every operation but PPSET and PPWR leaves the accumulator as it is (R250). -/
def PpAcc.guarded (x : PpAcc) (f : PpAcc → PpAcc) : PpAcc := if x.psn then x else f x

/-- A later operation on accumulator n waits while another queue holds a merge that reads it (R246). -/
def Core.mergePending (c : Core) (n : Nat) : Bool :=
  (List.range 8).any (fun d => d != n && (c.acc d).ops.any (fun o => match o.kind with
    | .merge src => src.toNat == n
    | _ => false))

/-- Apply the operation at the head of accumulator n, if `f` takes it: `f` answers the accumulator after
it and what is left of the operation. -/
def Core.applyHead (c : Core) (n : Nat) (f : PpOp → PpAcc → Option (PpAcc × Option PpOp)) : Core :=
  let x := c.acc n
  match x.ops with
  | [] => c
  | o :: rest =>
    if c.mergePending n then c
    else match f o x with
      | none => c
      | some (x', left) => c.setAcc n { x' with ops := left.toList ++ rest }

/-- PPA_APPLY_FACTOR: one factor, or one lane of a PPMULV (R233, R236). -/
def evPpaApplyFactor (u : UnitNo) (pp : BitVec 3) (s : State) : State :=
  s.setCore u ((s.core u).applyHead pp.toNat (fun o x => match o.kind with
    | .factors [] => some (x, none)
    | .factors ((j, a, b) :: fs) =>
      some (x.guarded (fun x => x.factor (o.modeAt (64 * j)) o.ftz a b),
        if fs.isEmpty then none else some { o with kind := .factors fs })
    | _ => none))

/-- PPA_APPLY_MERGE (R238, R246, R250). -/
def evPpaApplyMerge (u : UnitNo) (pp : BitVec 3) (s : State) : State :=
  let c := s.core u
  s.setCore u (c.applyHead pp.toNat (fun o x => match o.kind with
    | .merge src =>
      let q := c.acc src.toNat
      some (x.guarded (fun x => if q.psn then { x with psn := true } else x.merge q (o.modeAt 0) o.ftz), none)
    | _ => none))

/-- PPA_APPLY_REMOVE (R240, R245). -/
def evPpaApplyRemove (u : UnitNo) (pp : BitVec 3) (s : State) : State :=
  s.setCore u ((s.core u).applyHead pp.toNat (fun o x => match o.kind with
    | .remove a b => some (x.guarded (fun x => x.remove (o.modeAt 0) o.ftz a b), none)
    | _ => none))

/-- PPA_APPLY_SET: PPSET, PPDEG, PPSCL and PPWR (R242, R243, R247, R249). -/
def evPpaApplySet (u : UnitNo) (pp : BitVec 3) (s : State) : State :=
  s.setCore u ((s.core u).applyHead pp.toNat (fun o x => match o.kind with
    | .const v => some (x.setConst v, none)
    | .degree n => some (x.guarded (fun x => x.setDegree n), none)
    | .scale k => some (x.guarded (fun x => x.addScl k.toInt), none)
    | .load row scl st => some (x.load row scl st, none)
    | _ => none))

/-! ### The instructions (R241 to R249) -/

/-- Append an operation to accumulator n; a full queue stalls (R233). -/
def appendOp (s : State) (y : Syl) (cx : Ctx) (kind : PpKind) (mode : BitVec 3) : Rd Done :=
  let n := y.d.toNat
  if 4 ≤ (s.myCore.acc n).ops.length then .error .stall
  else
    let o : PpOp := { kind := kind, mode := mode, ftz := s.me.ftz, key := s.me.srkey
                      ctr := s.me.srctr + BitVec.ofNat 32 cx.ctr }
    .ok (Done.counted (Done.plain (fun t =>
      let x := t.myCore.acc n
      t.setMyCore (t.myCore.setAcc n { x with ops := x.ops ++ [o] }))) mode)

/-- A reader stalls until the accumulator's queue is empty (R233). -/
def readAcc (s : State) (n : Nat) : Rd PpAcc :=
  let x := s.myCore.acc n
  if x.ops.isEmpty then .ok x else .error .stall

def slotPpset (y : Syl) (s : State) (cx : Ctx) : Rd Done := do
  let v ← src2W s y
  appendOp s y cx (.const v) 0

def slotPpdeg (y : Syl) (s : State) (cx : Ctx) : Rd Done := do
  let v ← src2W s y
  needOp (v.toNat ≤ 63)
  appendOp s y cx (.degree (v.setWidth 6)) 0

def slotPpmul (y : Syl) (s : State) (cx : Ctx) : Rd Done := do
  let a ← readW s y.s1
  let b ← src2W s y
  appendOp s y cx (.factors [(0, a.toNat, b.toNat)]) (s.modeOf y.rm)

/-- A lane of a factor row as FP32; BF16 enters exactly (R244). -/
def factorLane (ty : BitVec 4) (v : Nat) : Nat := if ty = 0 then v else v * 2 ^ 16

def slotPpmulv (y : Syl) (s : State) (cx : Ctx) : Rd Done := do
  let W := if y.ty = 0 then 32 else 16
  let a ← readV s y.s1
  let b ← src2V s y W
  let m ← readM s y.s3
  let la := rowLanes W a
  let lb := rowLanes W b
  let fs := ((List.range (2048 / W)).filter (laneOn W m)).map
    (fun j => (j, factorLane y.ty (lane la j), factorLane y.ty (lane lb j)))
  appendOp s y cx (.factors fs) (s.modeOf y.rm)

def slotPpdiv (y : Syl) (s : State) (cx : Ctx) : Rd Done := do
  let a ← readW s y.s1
  let b ← src2W s y
  appendOp s y cx (.remove a.toNat b.toNat) (s.modeOf y.rm)

def slotPpmrg (y : Syl) (s : State) (cx : Ctx) : Rd Done := do
  let _ ← readAcc s (fieldNo y.s1)
  appendOp s y cx (.merge (BitVec.ofNat 3 (fieldNo y.s1))) (s.modeOf y.rm)

def slotPpscl (y : Syl) (s : State) (cx : Ctx) : Rd Done := do
  let v ← src2W s y
  appendOp s y cx (.scale v) 0

/-- POISON of an accumulator's coefficients (R248). -/
def accOk (x : PpAcc) (n : Nat) : Rd Unit :=
  if x.psn then .error (.trap causePoison 0 (BitVec.ofNat 64 n)) else .ok ()

def slotPprd (y : Syl) (s : State) : Rd Done := do
  let x ← readAcc s (fieldNo y.s1)
  accOk x (fieldNo y.s1)
  putV s y (packRow 32 ((List.range 64).map (fun k => (x.coef k).toNat)))

def slotPprdx (y : Syl) (s : State) : Rd Done := do
  let x ← readAcc s (fieldNo y.s1)
  accOk x (fieldNo y.s1)
  putW s y x.scl

def slotPprdst (y : Syl) (s : State) : Rd Done := do
  let x ← readAcc s (fieldNo y.s1)
  putW s y x.status

def slotPpwr (y : Syl) (s : State) (cx : Ctx) : Rd Done := do
  let row ← readV s y.s1
  let scl ← src2W s y
  let st ← readW s y.s3
  needOp (field st 7 6 = 0 && field st 31 12 = 0)
  appendOp s y cx (.load row scl st) 0

end Sys2Proof.Machine
end

