-- ==== Sys2Proof/Machine/ControlEvents.lean ====
section
/-! DEFINITION. What the issue unit does by itself (R71 to R73, R82), the writes of registers that have a row
of their own, the change of a slice's split (R252), and groups (R257 to R261). -/

namespace Sys2Proof.Machine

/-! ### Runs -/

def State.strandRun (s : State) (u : UnitNo) (k : Nat) : RunState := (s.strand u (BitVec.ofNat 3 k)).run

/-- The next READY strand after the one whose run ended last, of those that ended the core's idling if they
did (R71). -/
def State.nextReady (s : State) (u : UnitNo) : Option StrandNo :=
  let c := s.core u
  let order := (List.range 8).map (fun i => (c.lastRun.toNat + 1 + i) % 8)
  let ready := order.filter (fun k => s.strandRun u k == .ready)
  let first := ready.filter c.woken.contains
  ((if first.isEmpty then ready else first).head?).map (BitVec.ofNat 3)

/-- The cycle at which a core's next run begins: 2 cc after the end of the last, or after the core's idling
ended (R71). -/
def Core.runAt (c : Core) : Nat := Nat.max c.cycle.toNat (c.gapEnd.toNat + 2)

/-- A core that has joined a group which all its cores have joined waits for the start: its counter stays in
front of the cc at which the members issue (R260). -/
def State.startLimit (s : State) (u : UnitNo) : Option Nat :=
  if u.toNat < 512 then
    (s.cluster (unitCluster u)).groups.findSome? (fun (p : Nat × Group) =>
      if !p.2.started && p.2.joined.getLsbD (u.toNat % 16) && p.2.joined == p.2.mask then some (p.2.startAt.toNat - 1) else none)
  else none

/-- The counter of core u may move on to cycle n. -/
def State.mayReach (s : State) (u : UnitNo) (n : Nat) : Bool :=
  match s.startLimit u with
  | some m => n ≤ m
  | none => true

/-- Begin a run of strand k: it is RUNNING, and its runs are counted (sys.RUNSTAT). -/
def State.beginRun (s : State) (u : UnitNo) (k : StrandNo) : State :=
  let t := s.strand u k
  let c := s.core u
  let s := s.setStrand u k { t with run := .running, runLen := 0, runs := if t.runs = BitVec.allOnes 32 then t.runs else t.runs + 1 }
  s.setCore u { c with active := some k, woken := [] }

/-- RUN_START: 2 cc after the end of the last run. -/
def evRunStart (u : UnitNo) (s : State) : State :=
  let c := s.core u
  if c.active.isSome || c.group.isSome || c.stoppedEngines || !s.mayReach u c.runAt then s
  else match s.nextReady u with
    | none => s
    | some k => (s.setCore u (c.toCycle (BitVec.ofNat 64 c.runAt))).beginRun u k

/-- QUANTUM_END (R73). -/
def evQuantumEnd (u : UnitNo) (s : State) : State :=
  match (s.core u).active with
  | some k => if s.quantumDue u k && (s.core u).group.isNone then s.quantumEnd u k else s
  | none => s

/-- What a blocked strand waits for has come about (R72). -/
def State.waitOver (s : State) (u : UnitNo) (k : StrandNo) : Bool :=
  let c := s.core u
  let t := s.strand u k
  match t.wait with
  | .none => true
  | .barrier b ph => (c.barSeen b).phaseDone ph
  | .timeline q n => n.toNat ≤ (c.tlSeen q).toNat
  | .cycle n => n.toNat ≤ c.cycle.toNat
  | .queueFull q => !(c.queue q).full
  | .queuesFull q r => !(c.queue q).full && !(c.queue r).full
  | .tlbinv n => n.toNat ≤ (s.ivtlSeen u k).toNat
  | .circuit h g => (s.seqOf (field t.circctx 2 0)).waitDone h g
  | .counter n v => v.toNat ≤ (s.counter n).toNat
  | .group g _ =>
    let x := s.groupOf (unitCluster u) g
    x.started == x.joined.getLsbD (u.toNat % 16)
  | .sync g => (s.groupOf (unitCluster u) g).synced.getLsbD (u.toNat % 16)

/-- STRAND_WAKE: the strand becomes READY. A core that idles begins its next run 2 cc later. -/
def evStrandWake (u : UnitNo) (k : StrandNo) (s : State) : State :=
  let t := s.strand u k
  if t.run == .blocked && s.waitOver u k then (s.setStrand u k { t with wait := .none }).makeReady u k
  else s

/-- TRAP_ENTRY: the trap that has waited for loads is entered, or a held asynchronous trap is taken between
two bundles (R82, R83, R122). -/
def evTrapEntry (u : UnitNo) (k : StrandNo) (s : State) : State :=
  let t := s.strand u k
  match t.entering with
  | some e => if t.run == .halted || t.run == .stopped then s else s.finishTrap u k e
  | none => if s.asyncDue u k then s.takeAsync u k else s

/-! ### Register writes with a row of their own -/

/-- Strand k of unit u writes v to CR[n]: the change of WRSR, or its trap. -/
def State.eventWrite (s : State) (u : UnitNo) (k : StrandNo) (n : Nat) (v : W64) : State :=
  if (s.strand u k).run != .running || (s.strand u k).entering.isSome then s
  else
    let s1 := s.actAs u k
    match writeCR s1 n v with
    | .ok f => f s1
    | .error (.trap c a i) => s1.trapHere c a i 2 0
    | .error _ => s1

def evCmdareaWrite (u : UnitNo) (k : StrandNo) (v : W64) (s : State) : State := s.eventWrite u k 0x020 v
def evRegionEntryWrite (u : UnitNo) (k : StrandNo) (region : BitVec 5) (high : Bool) (v : W64) (s : State) : State :=
  s.eventWrite u k (0x100 + 2 * region.toNat + high.toNat) v
def evMxposWrite (u : UnitNo) (k : StrandNo) (v : W64) (s : State) : State := s.eventWrite u k 0x026 v
def evSlcfgWrite (u : UnitNo) (k : StrandNo) (v : W64) (s : State) : State := s.eventWrite u k 0x030 v
def evXrootWrite (u : UnitNo) (k : StrandNo) (v : W64) (s : State) : State := s.eventWrite u k 0x060 v
def evRepstatWrite (u : UnitNo) (k : StrandNo) (v : W64) (s : State) : State := s.eventWrite u k 0x00C v

/-! ### The split of a slice -/

/-- Set the bytes of keys from a up to b to the contents of reset; fetch keeps what it knew (R32). -/
def State.clearRange (s : State) (a b : Nat) : State :=
  let gone := s.mem.filter (fun c => a ≤ c.1 && c.1 < b)
  { s with mem := s.mem.filter (fun c => !(a ≤ c.1 && c.1 < b))
           poison := s.poison.filter (fun c => !(a ≤ c.1 && c.1 < b))
           codeLog := gone.map (fun c => (c.1, c.2)) ++ s.codeLog }

/-- SPLIT_CHANGE_DONE (R252): units that become pinned are zero, and units that become cache lose their
contents; both are no bytes of the pinned storage any more or not yet. -/
def evSplitChangeDone (c : ClusterNo) (s : State) : State :=
  let x := s.cluster c.toNat
  if !x.chg then s
  else
    let unit := 3 * 2 ^ 20
    let a := Nat.min x.pin.toNat x.slcfg.toNat * unit
    let b := Nat.max x.pin.toNat x.slcfg.toNat * unit
    -- of the slice's other lines, those in units that become pinned are invalidated
    let stale := if x.pin.toNat < x.slcfg.toNat then x.stale.filter (fun e => Config.keepsLine (s.tick + e.1)) else x.stale
    let t := (s.clearRange (pinKey c.toNat a) (pinKey c.toNat b)).setCluster c.toNat { x with pin := x.slcfg, chg := false, stale := stale }
    State.releaseHeld { t with tick := s.tick + 1 }

/-! ### Groups -/

/-- The members of a group: core of the cluster and strand. -/
def Group.members (x : Group) : List (Nat × Nat) :=
  ((List.range 16).filter (fun i => x.joined.getLsbD i)).map (fun i => (i, Table.get 0 x.strands i))

def memberUnit (c : Nat) (i : Nat) : UnitNo := BitVec.ofNat 10 (16 * c + i)

/-- Let a member's strand have the issue unit: another strand that was RUNNING stays READY, its latches lost (R76,
R256). Every member's counter stands at the same cc. -/
def State.enterGroup (s : State) (c : Nat) (g : BitVec 2) (at_ : Nat) (m : Nat × Nat) : State :=
  let u := memberUnit c m.1
  let k : StrandNo := BitVec.ofNat 3 m.2
  let s := match (s.core u).active with
    | some j => if j = k then s else (s.setStrand u j { s.strand u j with lat := [] }).endRun u j .ready
    | none => s
  let s := s.setCore u { (s.core u).toCycle (BitVec.ofNat 64 at_) with group := some g }
  if (s.strand u k).run == .stopped then s
  else
    let s := (s.setStrand u k { s.strand u k with wait := .none }).beginRun u k
    -- one that is in a trap handler holds the group from the start on (R258)
    if (s.strand u k).td then s.groupHold u else s

/-- GROUP_START (R260): every core of MASK has joined; each member's SGRP completes, and the next bundles
issue at startAt, 16 cc after the last join. -/
def evGroupStart (c : ClusterNo) (g : BitVec 2) (s : State) : State :=
  let x := s.groupOf c.toNat g.toNat
  if x.started || x.mask = 0 || x.joined != x.mask then s
  else
    let s := s.setGroup c.toNat g.toNat { x with started := true, scnt := 0, done := 0, synced := 0, parked := 0 }
    x.members.foldl (fun (s : State) m => s.enterGroup c.toNat g (x.startAt.toNat - 1) m) s

/-- GROUP_UNPARK (R261): every member is parked; each SGSYNC completes, and the next bundles issue
together 4 cc later. -/
def evGroupUnpark (c : ClusterNo) (g : BitVec 2) (s : State) : State :=
  let x := s.groupOf c.toNat g.toNat
  if !x.started || x.joined = 0 || x.parked != x.joined then s
  else
    let now := s.latestOf c.toNat x.joined
    let s := s.setGroup c.toNat g.toNat { x with synced := x.joined, parked := 0, startAt := BitVec.ofNat 64 (now + 4)
                                                 holdSince := if x.faultHold = 0 then none else x.holdSince }
    x.members.foldl (fun (s : State) m =>
      let u := memberUnit c.toNat m.1
      let k : StrandNo := BitVec.ofNat 3 m.2
      (s.setCore u ((s.core u).toCycle (BitVec.ofNat 64 (now + 3)))).setStrand u k { s.strand u k with wait := .none }) s

/-- Break a group (R258): its slot is freed, and each member takes GROUP-BROKEN. -/
def State.breakGroup (s : State) (c g : Nat) : State :=
  let x := s.groupOf c g
  let s := s.setGroup c g Group.reset
  x.members.foldl (fun (s : State) m =>
    let u := memberUnit c m.1
    let k : StrandNo := BitVec.ofNat 3 m.2
    let s := s.setCore u { s.core u with group := none }
    s.routeFault (s.unitPart u) clsGroupBroken g 0 0 u k) s

/-- GROUP_BROKEN: a hold has lasted longer than sys.SGHOLD, where that sets a limit (Table 10-1). -/
def evGroupBroken (c : ClusterNo) (g : BitVec 2) (s : State) : State :=
  let x := s.groupOf c.toNat g.toNat
  match x.holdSince with
  | some since =>
    if x.started && (s.cluster c.toNat).sghold != 0
        && (s.cluster c.toNat).sghold.toNat < s.latestOf c.toNat x.joined - since.toNat then
      s.breakGroup c.toNat g.toNat
    else s
  | none => s

/-- One member's part in a common issue: the bundle at its pc. -/
abbrev MemberRun := State → UnitNo → StrandNo → Option Bundle

/-- What the members of a group do in one cc (R257): `fetch` decodes the bundle at a strand's pc, none
where that traps. -/
inductive MemberWill where
  | issues | parks | stalls | traps
  deriving DecidableEq, Repr

/-- What a member would do now. -/
def State.memberWill (s : State) (fetch : MemberRun) (u : UnitNo) (k : StrandNo) : MemberWill :=
  if (s.strand u k).run != .running then .stalls
  else if (s.strand u k).entering.isSome then (if (s.strand u k).entryWaits then .stalls else .traps)
  else if s.asyncDue u k then .traps
  else
    let s1 := s.actAs u k
    match fetch s1 u k with
    | none => .traps
    | some b =>
      let rs := slotResults b.len s1.me b.slots
      if s1.me.repSkip then .issues
      else if (s1.me.untaken.isSome && b.slots.any (·.marks))
          || (s1.me.repn != 0 && b.slots.any (fun x => 0x0B ≤ x.maj && x.maj ≤ 0x0F)) then
        .traps
      else match rs.findSome? isBlock with
      | some (.sync _) => .parks
      | some _ => .stalls
      | none =>
        if rs.any isStall then .stalls
        else if rs.any (fun r => match r.2 with
          | .error _ => true
          | .ok _ => false) then .traps
        else if s1.noRoom (donesOf rs) then .stalls
        else .issues

/-- A member that stalls in front of region blocks starts their fills (R150). -/
def State.memberFills (s : State) (fetch : MemberRun) (u : UnitNo) (k : StrandNo) : State :=
  let s1 := s.actAs u k
  if s.memberWill fetch u k != .stalls || (s.strand u k).run != .running || (s.strand u k).entering.isSome then s
  else match fetch s1 u k with
    | none => s
    | some b =>
      let rs := slotResults b.len s1.me b.slots
      if (rs.findSome? isBlock).isSome then s else s1.startFills rs

/-- One cc of a group: members at a rendezvous park; if one cannot issue, none does and the stall wire is
held; a trap holds it too; else every unparked member issues and SCNT rises. `run` issues the bundle of a
strand. -/
def State.groupAct (s : State) (c : ClusterNo) (g : BitVec 2) (fetch : MemberRun)
    (run : State → UnitNo → StrandNo → State) : State :=
  let n := c.toNat
  let x := s.groupOf n g.toNat
  let live := x.members.filter (fun m => !x.parked.getLsbD m.1)
  -- after a hold of one member every counter stands at the cc that it has reached
  let now : W64 := BitVec.ofNat 64 (s.latestOf n (x.joined &&& ~~~x.parked))
  let s := if x.faultHold != 0 then s else live.foldl (fun (s : State) m =>
    s.setCore (memberUnit n m.1) ((s.core (memberUnit n m.1)).toCycle now)) s
  let will := live.map (fun m => (m, s.memberWill fetch (memberUnit n m.1) (BitVec.ofNat 3 m.2)))
  let go (f : MemberWill → Bool) (s : State) : State := will.foldl (fun (s : State) w =>
    if f w.2 then run s (memberUnit n w.1.1) (BitVec.ofNat 3 w.1.2) else s) s
  let tick (s : State) : State := live.foldl (fun (s : State) m => s.tickCore (memberUnit n m.1) 1) s
  if !x.started || live.isEmpty || x.joined &&& ~~~x.done != 0 || x.synced != 0 || x.faultHold != 0 then s
  else if live.any (fun m => (s.core (memberUnit n m.1)).cycle.toNat < x.startAt.toNat) then tick s
  else if will.any (fun w => w.2 == .parks) then go (· == .parks) s
  else if will.any (fun w => w.2 == .traps) then go (· == .traps) s
  else match will.find? (fun w => w.2 == .stalls) with
    | some _ =>
      let s := live.foldl (fun (s : State) m => s.memberFills fetch (memberUnit n m.1) (BitVec.ofNat 3 m.2)) s
      tick (s.setGroup n g.toNat { x with holdSince := some (x.holdSince.getD (BitVec.ofNat 64 (s.latestOf n x.joined))) })
    | none =>
      let s := go (· == .issues) (s.setGroup n g.toNat { x with holdSince := none })
      let y := s.groupOf n g.toNat
      if y.started then s.setGroup n g.toNat { y with scnt := y.scnt + 1 } else s

end Sys2Proof.Machine
end

