-- ==== Sys2Proof/Machine/Migrate.lean ====
section
/-! DEFINITION. Migration (R277 to R282), budget periods (R283), and the way of a TLBINV past the store
queue (R300, R301). -/

namespace Sys2Proof.Machine

/-! ### Frame stacks (Table 12-2) -/

def stackCount (w : W64) : Nat := field w 9 0
def stackPage (w : W64) : Nat := field w 51 12 * 4096
def withCount (w : W64) (n : Nat) : W64 := (w &&& ~~~0x3FF) ||| BitVec.ofNat 64 n

/-- The frame address at the top of a stack; none where the stack is empty or its page is not backed. -/
def State.topFrame (s : State) (w : W64) : Option Nat :=
  if stackCount w = 0 then none
  else (s.localKey (stackPage w)).map (fun k => field (BitVec.ofNat 64 (s.readNat (k + 8 * (stackCount w - 1)) 8)) 51 12 * 4096)

/-- Push a frame address: the word is written at the count (nothing where the page is not backed). -/
def State.pushFrame (s : State) (w : W64) (frame : Nat) : State × W64 :=
  if 512 ≤ stackCount w then (s, w)
  else match s.localKey (stackPage w) with
    | some k => (s.writeWord (k + 8 * stackCount w) frame, withCount w (stackCount w + 1))
    | none => (s, w)

def satInc (x : BitVec 16) : BitVec 16 := if x = 0xFFFF then x else x + 1

/-! ### Admission (R277, R278, R282) -/

/-- The home code of a key's die, as a destination names it. -/
def homeCode (k : Nat) : Nat :=
  match placeOf k with
  | .die d => d
  | .far d => 8 + d
  | _ => 15

/-- A leaf that may move: level 1, no contiguous hint, CACHED or UNCACHED, in HBM or far-tier LPDDR. -/
def movable (e : TlbEntry) (key : Nat) : Bool :=
  let pa := leafFrame e.leaf
  e.level == 1 && !leafCont e.leaf && leafHome e.leaf ≤ 1 && homeCode key ≤ 9 && pa < 0x030000000000

/-- The engine of a move: that of the far-tier die involved, or by the parity of the destination. -/
def moveEngine (src dst : Nat) : BitVec 1 :=
  if dst = 8 || src = 8 && dst ≠ 9 then 0 else if dst = 9 || src = 9 then 1 else BitVec.ofNat 1 dst

/-- History entries that are younger than 1 ms. -/
def State.recent (s : State) : List (Nat × W64 × Option W64) :=
  s.homes.history.filter (fun h => s.ptime.toNat - h.2.1.toNat < 1000000)

def hintQueued : Nat := 0
def hintAlready : Nat := 1
def hintHeld : Nat := 2
def hintRefused : Nat := 3
def hintBusy : Nat := 4
def hintUnmapped : Nat := 5
def hintNoFrame : Nat := 6

/-- The answer to a hint for the page of a hit (Table 12-5; DEDUCED, log entry 25: the order of the checks). -/
def State.hintStatus (s : State) (part : Nat) (h : Hit) (home : Nat) : Nat :=
  let here := s.liveKey h.key
  let lk := (s.tableKey h.entry.entry).getD 0
  let present := s.homes.present.contains home || s.homes.farPresent.contains home
  if 9 < home || !(s.partOf part).hinten || !movable h.entry here then hintRefused
  else if homeCode here = home then hintAlready
  else if !present then hintRefused
  else if s.homes.moves.any (fun m => m.leafKey == lk)
      || 32 ≤ (s.homes.moves.filter (fun m => m.engine == moveEngine (homeCode here) home && !m.started)).length
      || (65536 ≤ s.recent.length && !s.recent.any (fun x => x.1 == lk)) then hintBusy
  else if s.leafHeld lk then hintHeld
  else if (s.topFrame (Table.get 0 s.homes.migpool home)).isNone || 512 ≤ stackCount s.homes.migrel then hintNoFrame
  else hintQueued

/-- The engine takes its next move where it runs none. -/
def startMoves (e : BitVec 1) : List Move → List Move
  | [] => []
  | m :: rest => if m.engine == e && !m.started then { m with started := true } :: rest else m :: startMoves e rest

/-- The bytes of a frame. -/
def frameKeysOf (f : Nat) : List Nat := (List.range 4096).map (fun i => f * 4096 + i)

/-- A move that starts recalls the lines of its frame: no slice holds one from then on (R279). -/
def State.kickEngine (s : State) (e : BitVec 1) : State :=
  if s.homes.moves.any (fun m => m.engine == e && m.started) then s
  else match s.homes.moves.find? (fun m => m.engine == e && !m.started) with
    | some m => ({ s with homes := { s.homes with moves := startMoves e s.homes.moves } } : State).freshen (frameKeysOf m.oldFrame)
    | none => s

/-- Admit a move: its frame is popped from the destination's stack. -/
def State.admitMove (s : State) (part : Nat) (ea : W64) (h : Hit) (home : Nat) : State :=
  let w := Table.get 0 s.homes.migpool home
  match s.topFrame w with
  | none => s
  | some n =>
    let here := s.liveKey h.key
    let e := moveEngine (homeCode here) home
    let m : Move := { id := s.homes.nextMove, engine := e, leafKey := (s.tableKey h.entry.entry).getD 0
                      part := BitVec.ofNat 6 part, va := va57 ea / 4096 * 4096, leaf := h.entry.leaf, dst := home
                      oldFrame := here / 4096, newFrame := ((s.localKey n).getD n) / 4096, newPhys := n
                      started := false, copyNs := 0, committed := false, releasing := false, heldAccs := [], heldCmds := [] }
    let s := { s with homes := { s.homes with
      moves := s.homes.moves ++ [m], nextMove := s.homes.nextMove + 1
      migpool := Table.set s.homes.migpool home (withCount w (stackCount w - 1)) } }
    s.kickEngine e

/-- Count a refusal: hold events, or the others. -/
def State.countHint (s : State) (st : Nat) : State :=
  if st = hintHeld then { s with homes := { s.homes with migholds := satInc s.homes.migholds } }
  else if st = hintQueued || st = hintAlready then s
  else { s with homes := { s.homes with migother := satInc s.homes.migother } }

/-- MOVE_ADMIT: the engine answers the strand's oldest hint with the rights it was made with. Its walk waits while
activity 3 is spent at a home it reads (R283), or for an eviction (R297). -/
def evMoveAdmit (u : UnitNo) (k : StrandNo) (s : State) : State :=
  let t := s.strand u k
  match t.hints with
  | [] => s
  | x :: rest =>
    let part := s.unitPart u
    let homes := s.walkHomes part x.ea
    if s.homes.spent 3 homes || s.walkWaits part x.ea then s
    else
      let r := (s.setStrand u k { t with hints := rest }).translate ⟨u, part, x.sup, x.pkr⟩ x.ea .read .quiet
      let s := r.2.spend 3 homes
      match r.1 with
      | .error _ => (s.countHint hintUnmapped).deliver u k x.seq x.dst 0 hintUnmapped
      | .ok h =>
        let st := s.hintStatus part h x.home.toNat
        let s := if st = hintQueued then s.admitMove part x.ea h x.home.toNat else s.countHint st
        s.deliver u k x.seq x.dst 0 st

/-! ### The move (R279 to R281) -/

def State.findMove (s : State) (id : Nat) : Option Move := s.homes.moves.find? (fun m => m.id == id)

def State.setMove (s : State) (m : Move) : State :=
  { s with homes := { s.homes with moves := s.homes.moves.map (fun x => if x.id == m.id then m else x) } }

def State.dropMove (s : State) (m : Move) : State :=
  ({ s with homes := { s.homes with moves := s.homes.moves.filter (fun x => x.id != m.id) } }).kickEngine m.engine

/-- The popped frame does not belong to the destination's range: expansion memory is no destination (R275). -/
def Move.foreign (m : Move) (s : State) : Bool :=
  (s.localKey m.newPhys).isNone || homeCode (m.newFrame * 4096) ≠ m.dst || 0x030000000000 ≤ m.newFrame * 4096

/-- The move meets an uncorrectable error, or the home of its new frame is lost (R281, R284). -/
def Move.broken (m : Move) (s : State) : Bool :=
  s.homeLost (m.newFrame * 4096) || (List.range 4096).any (fun i => s.poisoned (m.oldFrame * 4096 + i))

/-- The move has to be aborted (R281). -/
def Move.mustAbort (m : Move) (s : State) : Bool := 8000 < m.copyNs || m.foreign s || m.broken s

/-- Copy frame F to frame N: what a fetch path knew of a byte of F, it knows of N's (R32); no slice keeps a line of
either, and blocks of N that were PACKED or ZERO take the lines in (R276). -/
def State.copyFrame (s : State) (f n : Nat) : State :=
  let mem := (List.range 4096).foldl (fun (m : Memory) i => m.write (n * 4096 + i) (s.mem.read (f * 4096 + i))) s.mem
  let poison := (List.range 4096).foldl (fun (m : Memory) i => m.write (n * 4096 + i) 0) s.poison
  let rename (e : Nat × Byte) : Nat × Byte :=
    if e.1 / 4096 = f then (n * 4096 + e.1 % 4096, e.2) else if e.1 / 4096 = n then (2 ^ 63, e.2) else e
  (({ s with mem := mem, poison := poison, codeLog := s.codeLog.map rename }).freshen
    (frameKeysOf f ++ frameKeysOf n)).compress ((frameKeysOf n).map (fun k => (k, 0))) []

/-- Record a commit of a leaf in the history. -/
def State.recordCommit (s : State) (key : Nat) : State :=
  let old := (s.recent.find? (fun h => h.1 == key)).map (fun h => h.2.1)
  { s with homes := { s.homes with history := (key, s.ptime, old) :: s.recent.filter (fun h => h.1 != key) } }

/-- A queue entry still names a byte of frame f. -/
def LqKind.names (f : Nat) : LqKind → Bool
  | .load segs _ _ _ _ _ _ _ => segs.any (fun p => p.1 / 4096 == f || (p.1 + p.2 - 1) / 4096 == f)
  | .fill _ _ key _ _ => key / 4096 == f
  | _ => false

def SqKind.names (f : Nat) (q : SqKind) : Bool := q.keys.any (fun k => k / 4096 == f)

/-- The queue entries that the home of frame f holds: at the heads of their queues, with no older load of the
strand to wait for (R279). -/
def State.heldEntries (s : State) (f : Nat) : List (Nat × Nat) :=
  s.strands.filterMap (fun (p : Nat × Strand) =>
    match p.2.sq with
    | [] => none
    | q :: _ =>
      let atHead := match q.kind, p.2.lq with
        | .atomic _ _, l :: _ => l.seq == q.seq
        | .atomic _ _, [] => false
        | _, _ => !s.loadOlder p.2 q.seq .direct q.kind.keys
      if q.kind.names f && atHead then some (p.1, q.seq) else none)

/-- The commands under way that write a byte of frame f. -/
def State.heldCommands (s : State) (f : Nat) : List (Nat × Nat × W64) :=
  s.units.flatMap (fun (p : Nat × Core) => (p.2.eng.filter (fun (e : Nat × EngRun) => match e.2.out with
    | some o => o.cells.any (fun c => c.1 / 4096 == f)
    | none => false)).map (fun (e : Nat × EngRun) => (p.1, e.2.queue, e.2.num)))

/-- MIGRATION_COMMIT, once some of the page has been copied: the leaf names the new frame, HOME, CMP, permissions, key and the A and D bits kept;
from now on accesses that reach the old frame are forwarded. -/
def evMigrationCommit (id : Nat) (s : State) : State :=
  match s.findMove id with
  | none => s
  | some m =>
    if !m.started || m.committed || m.mustAbort s || m.copyNs = 0 then s
    else
      let accs := s.heldEntries m.oldFrame
      let cmds := s.heldCommands m.oldFrame
      let s := s.copyFrame m.oldFrame m.newFrame
      let e := BitVec.ofNat 64 (s.readNat m.leafKey 8)
      let e' := (e &&& ~~~0x000FFFFFFFFFF000) ||| BitVec.ofNat 64 m.newPhys
      let s := s.writeWord m.leafKey e'.toNat
      let s := s.recordCommit m.leafKey
      let s := s.setMove { m with committed := true, releasing := true, heldAccs := accs, heldCmds := cmds }
      State.letGo { s with homes := { s.homes with migcommits := satInc s.homes.migcommits } } m.oldFrame

/-- Some access or command names a byte of frame f. -/
def State.frameInUse (s : State) (f : Nat) : Bool :=
  s.strands.any (fun (p : Nat × Strand) => p.2.lq.any (fun q => q.kind.names f) || p.2.sq.any (fun q => q.kind.names f))
    || s.parts.any (fun (x : Nat × Part) => x.2.saved.any (fun v => v.strands.any (fun (p : Nat × Strand) =>
        p.2.lq.any (fun q => q.kind.names f) || p.2.sq.any (fun q => q.kind.names f))))
    || !(s.heldCommands f).isEmpty

/-- Drop the TLB entries that came from the leaf at a key, at the dies that the record of its table page names; through
a MULTI record, those of the whole space of each partition it names (R297). -/
def State.dropLeaf (s : State) (key : Nat) : State :=
  let r := Table.get ⟨[], 1, 0, [], false⟩ s.homes.dir (key / 4096)
  let dies := r.dies
  if r.multi then s.invalidateRecord r else
  let stays (die : Nat) (e : TlbEntry) : Bool := !dies.contains die || s.tableKey e.entry != some key
  { s with units := s.units.map (fun (p : Nat × Core) => (p.1, { p.2 with tlb := p.2.tlb.filter (stays (unitDirDie p.1)) }))
           clusters := s.clusters.map (fun (p : Nat × Cluster) => (p.1, { p.2 with tlb := p.2.tlb.filter (stays (p.1 / 4)) })) }

/-- MIGRATION_RELEASE: the invalidations are complete, no access names the old frame any more, and it goes
to the release stack. -/
def evMigrationRelease (id : Nat) (s : State) : State :=
  match s.findMove id with
  | none => s
  | some m =>
    if !m.committed || s.frameInUse m.oldFrame then s
    else
      let s := s.dropLeaf m.leafKey
      let (s1, w) := s.pushFrame s.homes.migrel (leafFrame m.leaf)
      (({ s1 with homes := { s1.homes with migrel := w } }).dropMove m).releaseHeld

/-- MIGRATION_ABORT, also for an error of the engine: the frame goes back to its stack, but a foreign one is
dropped; an engine error or a foreign frame routes a migration fault (R281, R284). -/
def evMigrationAbort (e : MoveEnd) (s : State) : State :=
  match s.findMove e.move with
  | none => s
  | some m =>
    if !m.started || m.committed || !(m.mustAbort s || e.engineError) then s
    else
      let foreign := m.foreign s
      let fault := foreign || m.broken s || e.engineError
      let s := if foreign then s
        else
          let (s1, w) := s.pushFrame (Table.get 0 s.homes.migpool m.dst) m.newPhys
          { s1 with homes := { s1.homes with migpool := Table.set s1.homes.migpool m.dst w } }
      let s := { s with homes := { s.homes with migaborts := satInc s.homes.migaborts } }
      let s := (s.dropMove m).letGo m.oldFrame
      if fault then s.routeFault m.part.toNat clsMigration 0 0 (BitVec.signExtend 64 (BitVec.ofNat 57 m.va)) 0 0 else s

/-! ### Budget periods (R283) -/

/-- BUDGET_PERIOD: at a multiple of 100,000 ns the budgets written take effect and renew. -/
def evBudgetPeriod (s : State) : State :=
  let p := s.ptime.toNat / 100000
  if p ≤ s.homes.period then s
  else
    let h := s.homes
    { s with homes := { h with
      period := p
      abud := h.abudNext.foldl (fun (t : Table (BitVec 17)) e => Table.set t e.1 e.2) h.abud
      abudNext := []
      abused := [] } }

/-! ### TLBINV (R300, R301) -/

/-- Count completions in issue order: IVTL rises while its next TLBINV has every answer. -/
def Strand.countInvs (t : Strand) : Nat → Strand
  | 0 => t
  | n + 1 =>
    if t.invs.any (fun x => x.n == t.ivtl + 1 && x.dies.isEmpty) then
      ({ t with ivtl := t.ivtl + 1, invs := t.invs.filter (fun x => x.n != t.ivtl + 1) } : Strand).countInvs n
    else t

/-- Count completions of strand k of unit u; the checks of this cc do not see them yet (R162). -/
def State.countInvs (s : State) (u : UnitNo) (k : StrandNo) : State :=
  let t := s.strand u k
  let t1 := t.countInvs 8
  let c := s.core u
  let s := s.setStrand u k t1
  if t1.ivtl = t.ivtl || Table.has c.ivOld k.toNat then s
  else s.setCore u { c with ivOld := Table.insert k.toNat t.ivtl c.ivOld }

/-- The present dies by their numbers in a directory mask. -/
def Homes.allDies (h : Homes) : List Nat := h.present ++ h.farPresent ++ [10]

/-- Remove a partition's records from the directory; a MULTI record stays for the others it names. -/
def dropRecords (part : Nat) (dir : Table DirRecord) : Table DirRecord :=
  (dir.map (fun (p : Nat × DirRecord) => (p.1, { p.2 with parts := p.2.parts.filter (· != part) }))).filter
    (fun (p : Nat × DirRecord) => !p.2.parts.isEmpty)

/-- The record of a table page for a partition. -/
def State.recordOf (s : State) (part : Nat) (page : W64) : Option (Nat × DirRecord) :=
  match s.tableKey page.toNat with
  | none => none
  | some k =>
    if Table.has s.homes.dir (k / 4096) then
      let r := Table.get ⟨[], 1, 0, [], false⟩ s.homes.dir (k / 4096)
      if r.parts.contains part then some (k / 4096, r) else none
    else none

/-- What one TLBINV targets, and the state after the target dies have dropped their entries. Through a MULTI record
TLBINV.TBL covers every partition that the record names (R297). -/
def State.invalidate (s : State) (part form : Nat) (va page : W64) : List Nat × State :=
  if form = 2 then
    let dies := s.homes.allDies
    let s := s.dropEntries dies part (fun _ => true) (fun _ => true)
    (dies, { s with homes := { s.homes with dir := dropRecords part s.homes.dir } })
  else match s.recordOf part page with
    | none => ([], s)
    | some (n, r) =>
      if form = 0 then
        (r.dies, s.dropEntries r.dies part (fun e => e.covers part va)
          (fun w => w.table == page.toNat && (walkRange w).1 ≤ va57 va && va57 va < (walkRange w).1 + (walkRange w).2))
      else
        let s := s.invalidateRecord r
        (r.dies, { s with homes := { s.homes with dir := Table.set s.homes.dir n { r with dies := [] } } })

/-- The ranges of the entries that an invalidation at dies drops. -/
def State.droppedRanges (s : State) (dies : List Nat) (part : Nat) (hitT : TlbEntry → Bool) (hitW : WalkEntry → Bool) :
    List (Nat × Nat) :=
  let tlb := s.units.flatMap (fun (p : Nat × Core) => if dies.contains (unitDirDie p.1) then p.2.tlb else [])
    ++ s.clusters.flatMap (fun (p : Nat × Cluster) => if dies.contains (p.1 / 4) then p.2.tlb else [])
  (tlb.filter (fun e => e.part == part && hitT e)).map (fun e => (e.base, e.size))
    ++ (s.homes.walk.filter (fun w => dies.contains w.die && w.part == part && hitW w)).map walkRange

/-- The partitions and the ranges whose accesses one TLBINV waits for: those that may have used an entry it drops (R300;
DEDUCED, log entry 57). -/
def State.invRanges (s : State) (part form : Nat) (va page : W64) : List Nat × List (Nat × Nat) :=
  if form = 2 then ([part], [(0, 2 ^ 57)])
  else match s.recordOf part page with
    | none => ([], [])
    | some (_, r) =>
      if form = 0 then
        ([part], (va57 va / 4096 * 4096, 4096) :: s.droppedRanges r.dies part (fun e => e.covers part va)
          (fun w => w.table == page.toNat && (walkRange w).1 ≤ va57 va && va57 va < (walkRange w).1 + (walkRange w).2))
      else (r.parts, [r.range])

/-- What is under way in any of several ranges. -/
def State.underWayIn (s : State) (parts dies : List Nat) (ranges : List (Nat × Nat)) :
    List (Nat × Nat) × List (Nat × Nat × W64) :=
  ((ranges.flatMap (fun r => (s.underWay parts dies r.1 r.2).1)).eraseDups,
   (ranges.flatMap (fun r => (s.underWay parts dies r.1 r.2).2)).eraseDups)

/-- TLBINV_DISPATCH: the TLBINV leaves the store queue for its target dies. -/
def evTlbinvDispatch (u : UnitNo) (k : StrandNo) (s : State) : State :=
  match (s.strand u k).sq with
  | ⟨seq, .tlbinv n form va page⟩ :: _ =>
    let s := s.pop u k seq
    let part := s.unitPart u
    let (parts, ranges) := s.invRanges part form va page
    let (dies, s) := s.invalidate part form va page
    let (accs, cmds) := s.underWayIn parts dies ranges
    -- a record of the page under eviction: the TLBINV waits for what the eviction waits for (R297)
    let old := s.evictions.filter (fun e => form == 2 || some (e.page * 4096) == s.tableKey page.toNat)
    let t := s.strand u k
    let x : InvWait := { n := n, dies := (dies ++ old.flatMap (·.dies)).eraseDups
                         accs := accs ++ old.flatMap (·.accs), cmds := cmds ++ old.flatMap (·.cmds) }
    (s.setStrand u k { t with invs := t.invs ++ [x] }).countInvs u k
  | _ => s

/-- TLBINV_ACK: a die acknowledges once what was under way there is done. -/
def evTlbinvAck (u : UnitNo) (k : StrandNo) (n : BitVec 64) (die : BitVec 4) (s : State) : State :=
  let t := s.strand u k
  match t.invs.find? (fun x => x.n == n) with
  | none => s
  | some x =>
    let d := die.toNat
    if x.accs.any (fun a => unitDirDie (a.1 % savedBase / 8) == d && s.entryThere a.1 a.2)
        || x.cmds.any (fun c => unitDirDie c.1 == d && s.commandThere c.1 c.2.1 c.2.2) then s
    else
      let invs := t.invs.map (fun (y : InvWait) => if y.n == n then { y with dies := y.dies.filter (· != d) } else y)
      (s.setStrand u k { t with invs := invs }).countInvs u k

end Sys2Proof.Machine
end

