-- ==== Sys2Proof/Machine/SeqWords.lean ====
section
/-! DEFINITION. The fabric sequencer (R313 to R330) and the optical faults (R338). -/

namespace Sys2Proof.Machine

/-! ### Boundaries -/

/-- B(n) of a context (R316). -/
def Seq.boundary (q : Seq) (n : Nat) : Nat := q.origin.toNat + n * q.step

def HandleUp (h : Handle) : Bool := h.state == .settling || h.state == .live

/-- The context runs, and the boundary of its segment has come. -/
def Seq.due (q : Seq) (now : Nat) : Option Nat :=
  match q.next with
  | some c => if q.loaded && q.status = 0 && q.boundary c ≤ now then some c else none
  | none => none

/-- The strand of a context's instance, by which its faults name the node (R83). -/
def State.ownerStrand (s : State) (q : Seq) : UnitNo × StrandNo :=
  match q.owner, s.strands.find? (fun (p : Nat × Strand) => match p.2.inst, q.owner with
      | some i, some (t, n, k) => i.ticket == t && i.node == n && i.num == k && i.part == q.part
      | _, _ => false) with
  | some _, some (key, _) => (BitVec.ofNat 10 (key / 8), BitVec.ofNat 3 key)
  | _, _ => (0, 0)

/-- The subject of a fault of handle h (R340). -/
def circSubject (ctx h port : Nat) (gen : W32) : Nat :=
  h % 256 + port % 128 * 2 ^ 8 + ctx % 8 * 2 ^ 15 + gen.toNat % 2 ^ 30 * 2 ^ 18

/-- Route a fault of a context: class, detail and subject. -/
def State.seqFault (s : State) (x cls detail subject : Nat) : State :=
  let q := s.seqOf x
  let (u, k) := s.ownerStrand q
  s.routeFault q.part cls detail subject 0 u k

/-! ### Endpoints (R309, R314) -/

def slotDie (q : Seq) (n : Nat) : Nat := field q.slots (4 * n + 3) (4 * n)

/-- The port number of local index i of a slot's die; none for an unused slot or an index beyond the die's
ports. -/
def Seq.port (q : Seq) (slot i : Nat) : Option Nat :=
  let d := slotDie q slot
  if d < 8 then some (8 * d + i)
  else if d = 8 then if i < 4 then some (64 + i) else none
  else if d = 9 then if i < 4 then some (68 + i) else none
  else if d = 10 then some (72 + i)
  else none

def State.portBad (s : State) (p : Nat) : Bool := s.optics.bad0.getLsbD p || (64 ≤ p && s.optics.bad1.getLsbD (p - 64))

/-- The transmitter, or the receiver, of a port is assigned to a partition (R311). -/
def State.portAssigned (s : State) (part p : Nat) (rx : Bool) : Bool :=
  let w := Table.get 0 s.assign.oport p
  if rx then w.getLsbD 13 && field w 12 8 == part else w.getLsbD 5 && field w 4 0 == part

/-- Some circuit that is SETTLING or LIVE has this transmitter, or this receiver (R312). -/
def State.portUsed (s : State) (p : Nat) (rx : Bool) : Bool :=
  s.seqs.any (fun (e : Nat × Seq) => e.2.handles.any (fun (h : Nat × Handle) =>
    HandleUp h.2 && (if rx then h.2.dport.toNat else h.2.sport.toNat) == p))

/-! ### Words -/

/-- What a word does to the context's run: go on, jump, end the segment, or stop before the word with a
status, and with the handle of an SQEST that stops (R322, R340). -/
inductive SeqFlow where
  | next
  | jump (target : Nat)
  | ends
  | stops (status : Byte) (handle : Option Nat)
  deriving DecidableEq, Repr

def seqBadWord : Byte := 0x10
def seqOverrun : Byte := 0x11
def seqHandleBusy : Byte := 0x12
def seqBadEndpoint : Byte := 0x13
def seqBadTarget : Byte := 0x14

/-- A word of context x at boundary c. -/
abbrev SeqWord := Nat → Nat → SeqArg → State → SeqFlow × State

/-- Establish a circuit of handle h at boundary c from port sp to port dp, or refuse it (R312, R324). -/
def State.establish (s : State) (x h c sp dp : Nat) (expiry : Option Nat) : State :=
  let q := s.seqOf x
  let hd := q.handle h
  let ok := s.portAssigned q.part sp false && s.portAssigned q.part dp true && !s.portBad sp && !s.portBad dp
    && !s.portUsed sp false && !s.portUsed dp true
  let new : Handle :=
    { hd with gen := hd.gen + 1, sport := BitVec.ofNat 7 sp, dport := BitVec.ofNat 7 dp
              state := if ok then .settling else .refused
              expiry := if ok then expiry else none
              liveAt := BitVec.ofNat 64 (q.boundary c + 48) }
  let s := s.setSeq x (q.setHandle h new)
  if ok then s else s.seqFault x clsCircRefused h (circSubject x h sp new.gen)

/-- SQEST (R324). -/
def wordEst : SeqWord := fun x c a s =>
  let q := s.seqOf x
  let h := field a 59 52
  let hd := q.handle h
  match q.port (field a 51 48) (field a 47 45), q.port (field a 44 41) (field a 40 38) with
  | some sp, some dp =>
    if slotDie q (field a 51 48) = slotDie q (field a 44 41) then (.stops seqBadEndpoint (some h), s)
    else if HandleUp hd then (.stops seqHandleBusy (some h), s)
    else
      let lease := field a 37 26
      (.next, s.establish x h c sp dp (if lease ≠ 0 then some (c + lease) else none))
  | _, _ => (.stops seqBadEndpoint (some h), s)

/-- SQHOLD (R325). -/
def wordHold : SeqWord := fun x c a s =>
  let q := s.seqOf x
  let h := field a 59 52
  let hd := q.handle h
  (.next, if HandleUp hd then s.setSeq x (q.setHandle h { hd with expiry := some (c + field a 37 26) }) else s)

/-- A circuit that goes away: its handle is IDLE. -/
def Handle.down (h : Handle) : Handle := if HandleUp h then { h with state := .idle, expiry := none } else h

/-- Tear down every circuit of a context. -/
def Seq.tearAll (q : Seq) : Seq := { q with handles := q.handles.map (fun (p : Nat × Handle) => (p.1, p.2.down)) }

/-- SQTEAR (R326). -/
def wordTear : SeqWord := fun x _ a s =>
  let q := s.seqOf x
  let h := field a 59 52
  (.next, s.setSeq x (if bit a 51 then q.tearAll else q.setHandle h (q.handle h).down))

/-- SQWAIT (R327). -/
def wordWait : SeqWord := fun x c a s =>
  let q := s.seqOf x
  let n := field a 47 0
  let s := s.setSeq x { q with next := some (if bit a 59 then c + n else if c < n then n else c + 1) }
  if !bit a 59 && n ≤ c then
    let s := { s with optics := { s.optics with late := satInc s.optics.late } }
    (.ends, s.seqFault x clsSeqLate 0 (circSubject x 0 0 0))
  else (.ends, s)

/-- SQJMP and SQLOOP (R328). -/
def Seq.target (q : Seq) (t : Nat) : SeqFlow := if q.prog.length ≤ t then .stops seqBadTarget none else .jump t

def wordJmp : SeqWord := fun x _ a s => ((s.seqOf x).target (field a 11 0), s)

def wordLoop : SeqWord := fun x _ a s =>
  let q := s.seqOf x
  let k := field a 59 58
  let lc : BitVec 16 := Table.get 0 q.lc k
  let n := (if lc = 0 then BitVec.ofNat 16 (field a 47 32) else lc) - 1
  let s' := s.setSeq x { q with lc := Table.set q.lc k n }
  if n = 0 then (.next, s')
  else match q.target (field a 11 0) with
    | .stops st h => (.stops st h, s)
    | f => (f, s')

/-- An arrival at a core's barrier; a core that is not present routes a core fault (R172). -/
def State.arriveAt (s : State) (x unit bar n : Nat) : State :=
  if s.unitPresent unit then s.arrive (BitVec.ofNat 10 unit) bar n
  else s.seqFault x clsCore (Config.coreDetail 0).toNat 0

/-- SQSIG (R329). -/
def wordSig : SeqWord := fun x c a s =>
  let q := s.seqOf x
  let d := slotDie q (field a 51 48)
  let unit := 64 * d + 16 * field a 47 46 + field a 45 42
  let n := field a 32 25 + 1
  if 8 ≤ d then (.stops seqBadEndpoint none, s)
  else if bit a 59 then
    (.next, s.setSeq x { q with sigs := q.sigs ++ [{ at_ := BitVec.ofNat 64 (q.boundary c + 48), unit := unit
                                                     bar := field a 41 33, n := n }] })
  else (.next, s.arriveAt x unit (field a 41 33) n)

/-- SQHALT (R330). -/
def wordHalt : SeqWord := fun x _ a s =>
  let q := s.seqOf x
  let q := if bit a 59 then q.tearAll else q
  (.ends, s.setSeq x { q with status := 0x01, next := none })

def seqWord (op : Nat) : SeqWord :=
  match op with
  | 1 => wordEst
  | 2 => wordHold
  | 3 => wordTear
  | 4 => wordWait
  | 5 => wordJmp
  | 6 => wordLoop
  | 7 => wordSig
  | _ => wordHalt

/-- Stop a context with a fault, which names the handle of an SQEST (R322, R340; DEDUCED, log entry 75). -/
def State.stopSeq (s : State) (x c : Nat) (st : Byte) (handle : Option Nat) : State :=
  let q := s.seqOf x
  let subject := match handle with
    | some h => circSubject x h 0 (q.handle h).gen
    | none => circSubject x 0 0 0
  let s := s.setSeq x { q with status := st, next := none, words := 0, applied := BitVec.ofNat 48 c }
  s.seqFault x clsSequencer st.toNat subject

/-- The place after a word: `ends` records the segment applied. -/
def State.afterWord (s : State) (x c : Nat) (f : SeqFlow) : State :=
  let q := s.seqOf x
  match f with
  | .next => s.setSeq x { q with pc := q.pc + 1, words := q.words + 1 }
  | .jump t => s.setSeq x { q with pc := t, words := q.words + 1 }
  | .ends => s.setSeq x { q with pc := q.pc + 1, words := 0, applied := BitVec.ofNat 48 c }
  | .stops st h => s.stopSeq x c st h

/-- One word of context x at boundary c; whether the segment goes on. -/
def State.seqStep (s : State) (x c : Nat) : Bool × State :=
  let q := s.seqOf x
  if 64 ≤ q.words then (false, s.stopSeq x c seqOverrun none)
  else match q.prog[q.pc]? with
    | none => (false, s.stopSeq x c seqBadTarget none)
    | some w =>
      let a : SeqArg := slice w 0 60
      if !seqFieldsOk (field w 63 60) a then (false, s.stopSeq x c seqBadWord none)
      else
        let (f, s1) := seqWord (field w 63 60) x c a s
        (match f with
          | .next | .jump _ => true
          | _ => false, s1.afterWord x c f)

/-- Execute context x's segment due at boundary c. -/
def State.seqSegment (x c : Nat) : Nat → State → State
  | 0, s => s
  | n + 1, s => match s.seqStep x c with
    | (true, s1) => State.seqSegment x c n s1
    | (false, s1) => s1

/-- One word by itself: the word at the context's pc, at the boundary that is due. -/
def evSeqWord (op : Nat) (x : SeqCtx) (a : SeqArg) (s : State) : State :=
  let q := s.seqOf x.toNat
  match q.due s.ptime.toNat with
  | some c =>
    if q.revive.isNone && q.prog[q.pc]? == some (encodeSeq op a) then (s.seqStep x.toNat c).2 else s
  | none => s

def evSqest (x : SeqCtx) (a : SeqArg) (s : State) : State := evSeqWord 1 x a s
def evSqhold (x : SeqCtx) (a : SeqArg) (s : State) : State := evSeqWord 2 x a s
def evSqtear (x : SeqCtx) (a : SeqArg) (s : State) : State := evSeqWord 3 x a s
def evSqwait (x : SeqCtx) (a : SeqArg) (s : State) : State := evSeqWord 4 x a s
def evSqjmp (x : SeqCtx) (a : SeqArg) (s : State) : State := evSeqWord 5 x a s
def evSqloop (x : SeqCtx) (a : SeqArg) (s : State) : State := evSeqWord 6 x a s
def evSqsig (x : SeqCtx) (a : SeqArg) (s : State) : State := evSeqWord 7 x a s
def evSqhalt (x : SeqCtx) (a : SeqArg) (s : State) : State := evSeqWord 8 x a s

/-! ### Boundaries, expiry and liveness -/

/-- The lease of a handle has run out. -/
def Seq.expired (q : Seq) (h : Handle) (now : Nat) : Bool :=
  HandleUp h && (match h.expiry with
    | some e => q.boundary e ≤ now
    | none => false)

def Seq.expire (q : Seq) (now : Nat) : Seq :=
  { q with handles := q.handles.map (fun (p : Nat × Handle) => (p.1, if q.expired p.2 now then p.2.down else p.2)) }

/-- LEASE_EXPIRY (R325). -/
def evLeaseExpiry (x : SeqCtx) (h : BitVec 8) (s : State) : State :=
  let q := s.seqOf x.toNat
  let hd := q.handle h.toNat
  if q.expired hd s.ptime.toNat then s.setSeq x.toNat (q.setHandle h.toNat hd.down) else s

/-- Settled arrivals whose time has come, once no circuit of the context is still to become LIVE by then
(R329). -/
def State.settledSigs (s : State) (x : Nat) : State :=
  let q := s.seqOf x
  let now := s.ptime.toNat
  if q.handles.any (fun (p : Nat × Handle) => p.2.state == .settling && p.2.liveAt.toNat ≤ now) then s
  else
    let due := q.sigs.filter (fun g => g.at_.toNat ≤ now)
    let s := s.setSeq x { q with sigs := q.sigs.filter (fun g => now < g.at_.toNat) }
    due.foldl (fun (s : State) g => s.arriveAt x g.unit g.bar g.n) s

/-- CIRCUIT_LIVE (R317), and the settled arrivals that waited for it. -/
def evCircuitLive (x : SeqCtx) (h : BitVec 8) (s : State) : State :=
  let q := s.seqOf x.toNat
  let hd := q.handle h.toNat
  let s := if hd.state == .settling && hd.liveAt.toNat ≤ s.ptime.toNat then
      s.setSeq x.toNat (q.setHandle h.toNat { hd with state := .live })
    else s
  s.settledSigs x.toNat

/-- After a restore, the circuits that were up at the save are established again at the next boundary; one whose lease
ends there is up for that step (R341; DEDUCED, log entry 30). -/
def State.reviveDue (s : State) (x : Nat) : State :=
  let q := s.seqOf x
  match q.revive with
  | some (c, hs) =>
    if s.ptime.toNat < q.boundary c then s
    else hs.foldl (fun (s : State) h =>
      let hd := (s.seqOf x).handle h
      s.establish x h c hd.sport.toNat hd.dport.toNat (hd.expiry.map (Nat.max (c + 1)))) (s.setSeq x { q with revive := none })
  | none => s

/-- The segment of one context, where its boundary has come. -/
def State.applyDue (s : State) (x : Nat) : State :=
  let s := s.reviveDue x
  match (s.seqOf x).due s.ptime.toNat with
  | some c => State.seqSegment x c 65 s
  | none => s

/-- SEGMENT_APPLY (R321): first the leases that run out, of every context; then the segments, in ascending
context number. -/
def evSegmentApply (s : State) : State :=
  let now := s.ptime.toNat
  let s := { s with seqs := s.seqs.map (fun (p : Nat × Seq) => (p.1, p.2.expire now)) }
  let s := (List.range 8).foldl (fun (s : State) x => s.settledSigs x) s
  (List.range 8).foldl (fun (s : State) x => s.applyDue x) s

/-- Every circuit of the context whose time has come is LIVE (R317). -/
def Seq.settle (q : Seq) (now : Nat) : Seq :=
  { q with handles := q.handles.map (fun (p : Nat × Handle) =>
      (p.1, if p.2.state == .settling && p.2.liveAt.toNat ≤ now then { p.2 with state := .live } else p.2)) }

/-- All that falls due in the sequencer at the package time that has come, so that every check made at that
time or later observes it (R318). -/
def State.fabricDue (s : State) : State :=
  let now := s.ptime.toNat
  evSegmentApply { s with seqs := s.seqs.map (fun (p : Nat × Seq) => (p.1, p.2.settle now)) }

/-- The next package time after now at which something of a context falls due; those due already count as
now. -/
def Seq.nextTime (q : Seq) : List Nat :=
  (match q.next with
    | some c => if q.loaded && q.status = 0 then [q.boundary c] else []
    | none => [])
  ++ q.handles.filterMap (fun (p : Nat × Handle) => if p.2.state == .settling then some p.2.liveAt.toNat else none)
  ++ q.handles.filterMap (fun (p : Nat × Handle) => if HandleUp p.2 then p.2.expiry.map q.boundary else none)
  ++ q.sigs.map (fun g => g.at_.toNat)
  ++ (match q.revive with
    | some (c, _) => [q.boundary c]
    | none => [])

/-! ### Optical faults (R338) -/

/-- The circuits that use a port or cross the element. -/
def State.hitCircuits (s : State) (port : Nat) (usesPort : Bool) (crossing : List (BitVec 11)) : List (Nat × Nat) :=
  s.seqs.flatMap (fun (p : Nat × Seq) => p.2.handles.filterMap (fun (h : Nat × Handle) =>
    if HandleUp h.2 && ((usesPort && (h.2.sport.toNat == port || h.2.dport.toNat == port))
        || crossing.contains (BitVec.ofNat 11 (p.1 * 256 + h.1))) then some (p.1, h.1) else none))

/-- Each circuit becomes FAILED, and one fault is routed for it. -/
def State.failCircuits (s : State) (cls port : Nat) (detail : Byte) : List (Nat × Nat) → State
  | [] => s
  | (x, h) :: rest =>
    let q := s.seqOf x
    let hd := q.handle h
    let s := s.setSeq x (q.setHandle h { hd with state := .failed, expiry := none })
    (s.seqFault x cls detail.toNat (circSubject x h port hd.gen)).failCircuits cls port detail rest

def State.markPort (s : State) (p : Nat) : State :=
  let o := s.optics
  { s with optics := { o with
    bad0 := if p < 64 then o.bad0 ||| BitVec.twoPow 64 p else o.bad0
    bad1 := if 64 ≤ p && p < 80 then o.bad1 ||| BitVec.twoPow 16 (p - 64) else o.bad1 } }

/-- LASER_FAULT. -/
def evLaserFault (port : BitVec 7) (detail : Byte) (s : State) : State :=
  if 80 ≤ port.toNat then s
  else
    let s := { s with optics := { s.optics with laser := satInc s.optics.laser } }
    let hit := s.hitCircuits port.toNat true []
    (s.markPort port.toNat).failCircuits clsLaser port.toNat detail hit

/-- RING_TUNING_FAULT: of a port (details 1 and 3) or of a mesh element (detail 2), whose crossings are not
architected. A unit that failed its CRC four times was sent again three times. -/
def evRingTuningFault (port : BitVec 7) (detail : Byte) (crossing : List (BitVec 11)) (s : State) : State :=
  if 80 ≤ port.toNat then s
  else
    let mesh := detail = 2
    let o := s.optics
    let s := { s with optics := { o with
      ring := satInc o.ring
      resent := if detail = 3 then satInc (satInc (satInc o.resent)) else o.resent } }
    let hit := s.hitCircuits port.toNat (!mesh) (if mesh then crossing else [])
    (if mesh then s else s.markPort port.toNat).failCircuits clsRingTuning port.toNat detail hit

end Sys2Proof.Machine
end

