-- ==== Sys2Proof/Machine/Hive.lean ====
section
/-! DEFINITION. The Hive (R348 to R360, R443, R444): graph descriptors and their checks, work identifiers
and placement, dispatch, completion, and the launch table. -/

namespace Sys2Proof.Machine

/-! ### Reading and writing with the rights of a launch (R443) -/

/-- The rights of a launch. -/
def Launch.who (l : Launch) : Who := ⟨512, l.part, l.sup, l.pkr⟩

/-- n bytes at a virtual address; none where a page does not translate for reading or holds poison. -/
def State.hiveRead (s : State) (w : Who) (va : W64) (n : Nat) : Option (List Byte) × State :=
  match s.translateRange w .read .demand (piecesOf va n) with
  | (.ok hs, s1) =>
    let keys := segKeys (hitSegs hs)
    (if s1.engPoison keys then none else some (keys.map (s1.engByte 512)), s1)
  | (.error _, s1) => (none, s1)

/-- Write bytes at a virtual address; whether it translates for writing. -/
def State.hiveWrite (s : State) (w : Who) (va : W64) (data : List Byte) : Bool × State :=
  match s.translateRange w .write .demand (piecesOf va data.length) with
  | (.ok hs, s1) =>
    let cells := cellsOf (segKeys (hitSegs hs)) data
    let far := cells.filter (fun c => isFar c.1)
    let cmp := hitSegs (hs.filter (fun h => leafCmp h.1.entry.leaf))
    (true, (s1.farStores ⟨512, 0, 0, w.part, va⟩ (runsOf far)).makeVisible 1023 cells cmp)
  | (.error _, s1) => (false, s1)

/-- A write of n bytes at a virtual address waits at its home (R252, R279). -/
def State.rangeHeld (s : State) (w : Who) (va : W64) (n : Nat) : Bool :=
  match (s.translateRange w .write .quiet (piecesOf va n)).1 with
  | .ok hs => (segKeys (hitSegs hs)).any s.writeHeld
  | .error _ => false

/-- The home of some of n bytes at a virtual address is lost (R284). -/
def State.rangeLost (s : State) (w : Who) (va : W64) (n : Nat) : Bool :=
  match (s.translateRange w .write .quiet (piecesOf va n)).1 with
  | .ok hs => (segKeys (hitSegs hs)).any s.homeLost
  | .error _ => false

/-- n bytes at offset o of a list, as a little-endian number. -/
def numAt (b : List Byte) (o n : Nat) : Nat := leNat ((b.drop o).take n)

/-! ### Nodes (Table 16-3) -/

/-- A field of a work identifier (R140, R350): width, level, last value, and place. -/
structure WidField where
  width : Nat
  level : Nat
  last : Nat
  off : Nat
  deriving DecidableEq, Repr

/-- The fields of a node from field k on, the first at bit off. -/
def widFields (fmt : W64) (counts : List Nat) : Nat → Nat → Nat → List WidField
  | 0, _, _ => []
  | n + 1, k, off =>
    let w := field fmt (9 * k + 5) (9 * k) + 1
    ⟨w, field fmt (9 * k + 8) (9 * k + 6), (counts[k]?).getD 0, off⟩ :: widFields fmt counts n (k + 1) (off + w)

def Node.fields (n : Node) : List WidField := widFields n.widfmt n.counts (field n.widfmt 56 54) 0 0

/-- The number of instances. -/
def Node.total (n : Node) : Nat := (n.fields.map (fun f => f.last + 1)).foldl (· * ·) 1

/-- The values of the fields of instance i; field 0 counts fastest. -/
def fieldValues : List WidField → Nat → List (WidField × Nat)
  | [], _ => []
  | f :: rest, i => (f, i % (f.last + 1)) :: fieldValues rest (i / (f.last + 1))

/-- The identifier of instance i (R350). -/
def Node.wid (n : Node) (i : Nat) : W64 :=
  BitVec.ofNat 64 ((fieldValues n.fields i).map (fun p => p.2 * 2 ^ p.1.off)).sum

/-- The fields whose level satisfies p, as one number (DEDUCED, log entry 26: several fields of a level count as one). -/
def Node.combo (n : Node) (p : Nat → Bool) (i : Nat) : Nat :=
  ((fieldValues n.fields i).filter (fun x => p x.1.level)).foldr (fun x a => x.2 + (x.1.last + 1) * a) 0

def Node.countOf (n : Node) (p : Nat → Bool) : Nat :=
  ((n.fields.filter (fun f => p f.level)).map (fun f => f.last + 1)).foldl (· * ·) 1

def Node.hasLevel (n : Node) (l : Nat) : Bool := n.fields.any (fun f => f.level == l)

/-- The instances of gang g (R351). -/
def Node.gang (n : Node) (g : Nat) : List Nat := (List.range n.total).filter (fun i => n.combo (· == 5) i == g)
def Node.gangCount (n : Node) : Nat := n.countOf (· == 5)

/-! ### The checks of a graph (R349) -/

/-- The width limits of Table 16-4. -/
def widthLimit (cls level : Nat) : Nat :=
  match level with
  | 0 => 3
  | 1 => 4
  | 2 => 2
  | 3 => if cls = 2 then 1 else 3
  | _ => 32

def Node.fieldsOk (n : Node) : Bool :=
  field n.widfmt 56 54 ≤ 6 && field n.widfmt 63 57 == 0
  && n.fields.all (fun f => f.level ≤ 5 && f.width ≤ widthLimit n.cls.toNat f.level && f.last < 2 ^ f.width)
  && (n.counts.drop (field n.widfmt 56 54)).all (· == 0)
  && n.total ≤ 2 ^ 24 && n.nstr * n.countOf (· == 0) ≤ 8
  && !(n.cls != 0 && n.hasLevel 2) && !(n.cls == 1 && n.hasLevel 3)

/-- The head of a node entry, without its tables. A CLEN field of 0 stands for 4,096 words (DEDUCED, log entry 58). -/
def nodeOf (b : List Byte) : Node :=
  let flags := numAt b 0 4
  let clen := numAt b 0x58 4
  { cls := BitVec.ofNat 2 flags, prio := BitVec.ofNat 3 (flags / 4), nstr := flags / 32 % 8 + 1
    noReplay := flags.testBit 8, notice := flags.testBit 9, circ := flags.testBit 10
    widfmt := BitVec.ofNat 64 (numAt b 0x08 8)
    counts := (List.range 6).map (fun k => numAt b (0x10 + 4 * k) 4)
    entry := BitVec.ofNat 64 (numAt b 0x28 8), tids := [], rgns := []
    cprog := BitVec.ofNat 64 (numAt b 0x50 8), clen := if clen % 4096 = 0 then 4096 else clen % 4096, step := clen / 4096 % 2 ^ 17
    slots := BitVec.ofNat 64 (numAt b 0x60 8), pred := BitVec.ofNat 64 (numAt b 0x68 8)
    bufs := (List.range (Nat.min (numAt b 0x70 8) 16)).map (fun k =>
      let d := numAt b (0x80 + 8 * k) 8
      (d % 4096, d / 4096 % 4))
    gangs := [], finished := [], failed := false, blamed := none, cancelled := false, complete := false
    exitStatus := 0, fault := 0, noNotify := false }

/-- The reserved bits and the ranges of a node entry. -/
def nodeFrameOk (b : List Byte) : Bool :=
  let nb := numAt b 0x70 8
  numAt b 0 4 < 2 ^ 11 && numAt b 0 4 % 4 != 3 && numAt b 4 4 == 0 && numAt b 0x48 8 < 2 ^ 32
  && numAt b 0x58 4 < 2 ^ 29 && numAt b 0x5C 4 == 0 && nb ≤ 16 && numAt b 0x78 8 == 0
  && (List.range 16).all (fun k =>
    let d := numAt b (0x80 + 8 * k) 8
    d < 2 ^ 14 && (nb ≤ k || 1 ≤ d / 4096))

/-- The other checks of node i of n nodes. -/
def State.nodeOk (s : State) (part n : Nat) (x : Node) : Bool :=
  x.pred.toNat < 2 ^ n && x.fieldsOk
  && (List.range 16).all (fun k => !(0xB ≤ field x.slots (4 * k + 3) (4 * k) && field x.slots (4 * k + 3) (4 * k) ≤ 0xE))
  && (!x.circ || (256 ≤ x.step && x.step ≤ 65536))
  && x.bufs.all (fun b => ((s.partOf part).handle b.1).w0.getLsbD 0)

/-- The entries of a table that a mask selects, n bytes each, as words. -/
def State.readTable (s : State) (w : Who) (base mask : Nat) (n : Nat) : List Nat → Option (List (Nat × List W64)) × State
  | [] => (some [], s)
  | k :: rest =>
    if mask.testBit k then
      match s.hiveRead w (BitVec.ofNat 64 (base + n * k)) n with
      | (some b, s1) => match s1.readTable w base mask n rest with
        | (some t, s2) => (some ((k, (List.range (n / 8)).map (fun j => BitVec.ofNat 64 (numAt b (8 * j) 8))) :: t), s2)
        | (none, s2) => (none, s2)
      | (none, s1) => (none, s1)
    else s.readTable w base mask n rest

/-- Read and check node i at its place in the descriptor; the error is the address of an entry that cannot be
read, or none for one that is not in order. -/
def State.readNode (s : State) (l : Launch) (n i : Nat) : Except (Option W64) Node × State :=
  let va := l.desc + BitVec.ofNat 64 (0x40 + 256 * i)
  match s.hiveRead l.who va 256 with
  | (none, s1) => (.error (some va), s1)
  | (some b, s1) =>
    let x := nodeOf b
    if !nodeFrameOk b || !s1.nodeOk l.part n x then (.error none, s1)
    else
      match s1.readTable l.who (numAt b 0x30 8) (numAt b 0x38 8) 32 (List.range 64) with
      | (none, s2) => (.error none, s2)
      | (some t, s2) => match s2.readTable l.who (numAt b 0x40 8) (numAt b 0x48 8) 16 (List.range 32) with
        | (none, s3) => (.error none, s3)
        | (some r, s3) => (.ok { x with tids := t, rgns := r }, s3)

def State.readNodes (s : State) (l : Launch) (n : Nat) : List Nat → Except (Option W64) (List Node) × State
  | [] => (.ok [], s)
  | i :: rest => match s.readNode l n i with
    | (.error e, s1) => (.error e, s1)
    | (.ok x, s1) => match s1.readNodes l n rest with
      | (.error e, s2) => (.error e, s2)
      | (.ok xs, s2) => (.ok (x :: xs), s2)

/-- The nodes all of whose predecessors are in `done`, once more. -/
def orderStep (nodes : List Node) (done : List Nat) : List Nat :=
  (List.range nodes.length).filter (fun i => match nodes[i]? with
    | some x => (List.range nodes.length).all (fun j => !x.pred.getLsbD j || done.contains j)
    | none => false)

def orderAll (nodes : List Node) : Nat → List Nat → List Nat
  | 0, done => done
  | n + 1, done => orderAll nodes n (orderStep nodes done)

/-- The predecessors form no cycle. -/
def acyclic (nodes : List Node) : Bool := (orderAll nodes nodes.length []).length == nodes.length

/-! ### LAUNCH_ACCEPT (R349, R355, R444) -/

/-- A HIVE fault about a launch. -/
def State.hiveFault (s : State) (l : Launch) (detail : Nat) (faddr : W64) : State :=
  s.routeFault l.part clsHive detail (l.ticket.toNat % 2 ^ 48) faddr (BitVec.ofNat 10 (l.origin.getD 0)) 0

def badGraph : Byte := 0x20

/-- The launch will complete BAD-GRAPH. -/
def Launch.bad (l : Launch) (noRecord : Bool) : Launch :=
  { l with accepted := true, status := badGraph, noRecord := noRecord, nodes := [] }

def State.setLaunch (s : State) (l : Launch) : State := s.setPart l.part ((s.partOf l.part).setLaunch l)

/-- Read and check the descriptor of a launch. -/
def State.acceptLaunch (s : State) (l : Launch) : State :=
  if l.desc.toNat % 64 ≠ 0 then (s.setLaunch (l.bad true)).hiveFault l 0x01 l.desc
  else match s.hiveRead l.who l.desc 64 with
    | (none, s1) => (s1.setLaunch (l.bad true)).hiveFault l 0x02 l.desc
    | (some h, s1) =>
      let n := numAt h 0 8
      let l : Launch := { l with crec := BitVec.ofNat 64 (numAt h 8 8), report := BitVec.ofNat 64 (numAt h 0x10 8)
                                 argv := l.arg.getD (BitVec.ofNat 64 (numAt h 0x18 8)) }
      if l.crec.toNat % 32 ≠ 0 then (s1.setLaunch (l.bad true)).hiveFault l 0x03 l.crec
      else match s1.translateRange l.who .write .probe (piecesOf l.crec 32) with
        | (.error _, s2) => (s2.setLaunch (l.bad true)).hiveFault l 0x04 l.crec
        | (.ok _, s2) =>
          if n = 0 || 64 < n || 2 ^ 10 ≤ l.report.toNat || (h.drop 0x20).any (· != 0) then s2.setLaunch (l.bad false)
          else match s2.readNodes l n (List.range n) with
            | (.ok nodes, s3) =>
              s3.setLaunch (if acyclic nodes then { l with accepted := true, nodes := nodes } else l.bad false)
            | (.error none, s3) => s3.setLaunch (l.bad false)
            | (.error (some va), s3) => (s3.setLaunch (l.bad true)).hiveFault l 0x02 va

/-- The strand whose store queue has the launch of a ticket at its head. -/
def State.launchHead (s : State) (p : Nat) (ticket : W64) : Option (UnitNo × StrandNo × Nat) :=
  s.strands.findSome? (fun (e : Nat × Strand) => match e.2.sq with
    | ⟨seq, .launch t _ _ _ _⟩ :: _ =>
      let u : UnitNo := BitVec.ofNat 10 (e.1 / 8)
      if t == ticket && s.unitPart u == p then some (u, BitVec.ofNat 3 e.1, seq) else none
    | _ => none)


/-- DBELL (R355). -/
def evDbell (p : PartNo) (v : BitVec 64) (s : State) : State := if s.isUp && p.toNat < 32 then s.doorbell p.toNat v else s

/-! ### Units -/

/-- The strand holds no work: HALTED, or STOPPED once its launch is complete; a rule strand that has ended belongs to
its block until that is settled (R422). -/
def State.strandIdle (s : State) (t : Strand) : Bool :=
  t.rule.isNone && t.sq.isEmpty && t.lq.isEmpty && (match t.run, t.inst with
    | .halted, none => true
    | .stopped, none => true
    | .stopped, some i => match (s.partOf i.part).findLaunch i.ticket with
      | some l => l.complete
      | none => true
    | _, _ => false)

/-- A unit is idle: no strand holds work, no engine runs a command, no far access of it is open, and no
pre-emption is stopping it (R343, R351). -/
def State.unitIdle (s : State) (u : Nat) : Bool :=
  let un : UnitNo := BitVec.ofNat 10 u
  (List.range 8).all (fun k => s.strandIdle (s.strand un (BitVec.ofNat 3 k)))
  && (s.core un).eng.isEmpty && !(s.core un).stoppedEngines && !(s.core un).pair.saved
  && !s.fabric.reqs.any (fun r => match r.owner with
    | some (v, k) => v == u && (k < 8 || r.waits)
    | none => false)

/-- A saved instance has its context in the unit's name (R344, R361). -/
def State.unitSaved (s : State) (u : Nat) : Bool :=
  s.parts.any (fun (p : Nat × Part) => p.2.saved.any (fun v => v.units.contains u))

/-! ### Placement (R350, Table 16-4) -/

/-- A unit that could take instance i of a node by itself. -/
def State.unitMatches (s : State) (part : Nat) (n : Node) (i u : Nat) : Bool :=
  u < 560 && unitClass (BitVec.ofNat 10 u) == n.cls.toNat && s.unitPresent u
  && s.unitPart (BitVec.ofNat 10 u) == part
  && (!n.hasLevel 1 || (if u < 512 then u % 16 else if u < 528 then u - 512 else (u - 528) % 16) == n.combo (· == 1) i)

/-- It is idle too. -/
def State.unitFits (s : State) (part : Nat) (n : Node) (i u : Nat) : Bool := s.unitMatches part n i u && s.unitIdle u

/-- Two instances of a gang may stand on units u and v. -/
def placedTogether (n : Node) (i u j v : Nat) : Bool :=
  let same (p : Nat → Bool) : Bool := n.combo p i == n.combo p j
  let die (x : Nat) : Nat := dirDie (BitVec.ofNat 10 x)
  (same (fun l => 1 ≤ l) == (u == v))
  && (!same (fun l => 3 ≤ l) || die u == die v)
  && (same (fun l => l == 3) || die u != die v)
  && (n.cls != 0 || !same (fun l => 2 ≤ l) || u / 16 == v / 16)
  && (n.cls != 0 || !same (fun l => 3 ≤ l) || same (fun l => l == 2) || u / 16 != v / 16)

/-- A placement of a gang is allowed. -/
def State.placeOk (s : State) (part : Nat) (n : Node) (ps : List (Nat × Nat)) : Bool :=
  ps.all (fun a => s.unitFits part n a.1 a.2 && ps.all (fun b => placedTogether n a.1 a.2 b.1 b.2))

/-- Some placement of the instances still to be placed goes with those placed. -/
def State.canPlace (s : State) (part : Nat) (n : Node) : List Nat → List (Nat × Nat) → Bool
  | [], _ => true
  | i :: rest, ps => (List.range 560).any (fun u =>
      s.unitFits part n i u && ps.all (fun b => placedTogether n i u b.1 b.2) && s.canPlace part n rest ((i, u) :: ps))

/-- A free sequencer context of the partition (R352). -/
def State.ctxFree (s : State) (part x : Nat) : Bool :=
  let w := Table.get 0 s.assign.seq x
  x < 8 && w.getLsbD 5 && w.toNat % 32 == part && !(s.seqOf x).loaded

/-! ### Ready gangs and the Hive's choice (R354) -/

/-- PRIO of a node of a launch (R357). -/
def Launch.prioOf (l : Launch) (n : Node) : Nat := (l.prio.getD n.prio).toNat

/-- Every predecessor of the node has completed with status OK. -/
def Launch.predsOk (l : Launch) (n : Node) : Bool :=
  (List.zip (List.range l.nodes.length) l.nodes).all (fun (p : Nat × Node) =>
    !n.pred.getLsbD p.1 || (p.2.complete && !p.2.failed && !p.2.cancelled))

/-- A ready gang. -/
structure ReadyGang where
  part : Nat
  ticket : W64
  node : Nat
  gang : Nat
  prio : Nat
  deriving DecidableEq, Repr

/-- The gangs of a node that can be placed now. -/
def State.readyOf (s : State) (l : Launch) (i : Nat) (n : Node) : List ReadyGang :=
  if n.complete || !l.predsOk n then []
  else if n.circ && !(List.range 8).any (s.ctxFree l.part) then []
  else ((List.range n.gangCount).filter (fun g => !n.gangs.contains g && s.canPlace l.part n (n.gang g) [])).map (fun g =>
    ⟨l.part, l.ticket, i, g, l.prioOf n⟩)

/-- A launch of which the Hive dispatches: while its partition is frozen, only one that has begun (R362). -/
def Part.dispatches (x : Part) (l : Launch) : Bool :=
  l.accepted && !l.complete && !l.cancelled && !l.stopping && !l.saved && (!x.frozen || l.nodes.any (fun n => !n.gangs.isEmpty))

def State.readyGangs (s : State) : List ReadyGang :=
  s.parts.flatMap (fun (p : Nat × Part) => (p.2.launches.filter p.2.dispatches).flatMap (fun l =>
    (List.zip (List.range l.nodes.length) l.nodes).flatMap (fun (q : Nat × Node) => s.readyOf l q.1 q.2)))

/-- The weight of a partition in a round, which has been served. -/
def Part.roundDone (x : Part) : Bool := x.weight.toNat ≤ x.served

/-- The Hive may choose this gang now: none of lower PRIO is ready, its partition has a turn left in the
round or the round is over, and none of its partition comes before it. -/
def State.mayDispatch (s : State) (r : ReadyGang) : Bool :=
  let all := s.readyGangs
  let level := all.filter (fun q => q.prio == r.prio)
  all.contains r && all.all (fun q => r.prio ≤ q.prio)
  && (!(s.partOf r.part).roundDone || level.all (fun q => (s.partOf q.part).roundDone))
  && level.all (fun q => q.part != r.part || r.ticket.toNat < q.ticket.toNat
      || (r.ticket == q.ticket && r.node ≤ q.node))

/-- Serve a gang: when the round is over, a new one begins. -/
def State.serveRound (s : State) (r : ReadyGang) : State :=
  let s := if (s.partOf r.part).roundDone then
      { s with parts := s.parts.map (fun (p : Nat × Part) => (p.1, { p.2 with served := 0 })) }
    else s
  let x := s.partOf r.part
  s.setPart r.part { x with served := x.served + 1 }

/-! ### Buffer handles (R360) -/

/-- The keys of a handle's range, with the partition's rights (R443). -/
def State.handleKeys (s : State) (part : Nat) (b : BufHandle) : List Nat × State :=
  match s.translateRange (hiveWho part) .read .probe (piecesOf (BitVec.signExtend 64 (BitVec.ofNat 57 b.w1.toNat)) b.w2.toNat) with
  | (.ok hs, s1) => (segKeys (hitSegs hs), s1)
  | (.error _, s1) => ([], s1)

def BufHandle.kind (b : BufHandle) : Nat := field b.w0 2 1

/-- Write back the dirty blocks of a region, where their pages translate for writing (R150, DEDUCED, log entry 27). -/
def State.writeBack (s : State) (u : UnitNo) (r : Nat) : List Nat → State
  | [] => s
  | b :: rest =>
    let c := s.core u
    match s.translateRange (hiveWho (s.unitPart u)) .write .demand [(c.blockVa r b, 4096)] with
    | (.error _, s1) => s1.writeBack u r rest
    | (.ok hs, s1) =>
      let segs := hitSegs hs
      let cells := s1.blockCells u (rgnBase (c.rgnLo r) + b) segs
      let bad := (List.range 4096).filter (fun i => s1.poisoned (spadKey u.toNat ((rgnBase (c.rgnLo r) + b) * 4096 + i)))
      let home := (segs.map Prod.fst).headD 0
      let cmp := hitSegs (hs.filter (fun h => leafCmp h.1.entry.leaf))
      let s2 := s1.farStores ⟨u, 0, 0, s1.unitPart u, c.blockVa r b⟩ (runsOf (cells.filter (fun c => isFar c.1)))
      let s2 := s2.makeVisible 1023 cells cmp
      (s2.poisonKeys ((bad.map (home + ·)).filter (fun a => !isFar a))).writeBack u r rest

/-- The dirty blocks of a region that is written back. -/
def Core.evictBlocks (c : Core) (r : Nat) : List Nat :=
  if rgnWB (c.rgnLo r) then (List.range 512).filter (fun b => c.isFilled r b && c.isDirty r b) else []

/-- Write a region back and leave its blocks unfilled. -/
def State.cleanRegion (s : State) (u : UnitNo) (r : Nat) : State :=
  let s := s.writeBack u r ((s.core u).evictBlocks r)
  let c := s.core u
  s.setCore u { c with filled := Table.erase r c.filled, dirty := Table.erase r c.dirty }

/-- A write-back of region r waits at the home of one of its blocks (R279). -/
def State.regionHeld (s : State) (u : UnitNo) (r : Nat) : Bool :=
  ((s.core u).evictBlocks r).any (fun b => s.rangeHeld (hiveWho (s.unitPart u)) ((s.core u).blockVa r b) 4096)

/-- A region that a node's handles would write back cannot be yet. -/
def State.handlesHeld (s : State) (part : Nat) (us : List Nat) (bufs : List (Nat × Nat)) : Bool :=
  bufs.any (fun d =>
    let b := (s.partOf part).handle d.1
    b.kind == 2 && us.any (fun u => u != b.w3.toNat) && s.regionHeld (BitVec.ofNat 10 b.w3.toNat) (field b.w0 7 3))

/-- The operation that a declared handle inserts before a node whose units are `us` is dispatched. -/
def State.beforeNode (s : State) (part : Nat) (ticket : W64) (node : Nat) (us : List Nat) (d : Nat × Nat) : State :=
  let b := (s.partOf part).handle d.1
  let reads := d.2 % 2 = 1
  let writes := 2 ≤ d.2
  let s := match b.kind with
    | 1 => if reads && b.hostWrote then
        let (keys, s1) := s.handleKeys part b
        s1.freshen keys
      else s
    | 2 =>
      if us.any (fun u => u != b.w3.toNat) then s.cleanRegion (BitVec.ofNat 10 b.w3.toNat) (field b.w0 7 3) else s
    | _ => s
  let x := s.partOf part
  let b := x.handle d.1
  s.setPart part (x.setHandle d.1 { b with
    hostWrote := b.hostWrote && !reads
    writer := if writes then some (ticket, node) else b.writer
    readers := if writes then [] else if reads then b.readers ++ [(ticket, node)] else b.readers })

def State.beforeNodes (s : State) (part : Nat) (ticket : W64) (node : Nat) (us : List Nat) : List (Nat × Nat) → State
  | [] => s
  | d :: rest => (s.beforeNode part ticket node us d).beforeNodes part ticket node us rest

/-! ### GANG_DISPATCH (R352) -/

/-- The circuit program of a gang: context, step, origin. -/
abbrev GangCirc := Option (Nat × Nat × Nat)

/-- A tensor entry as a launch writes it: reserved bits of its first word are discarded (R152, R4). -/
def tensorWord (ws : List W64) : BitVec 256 :=
  BitVec.ofNat 256 (((ws.headD 0 &&& tidMask) :: ws.drop 1).foldr (fun (w : W64) a => w.toNat + 2 ^ 64 * a) 0)

/-- The tensor and region entries of a node, written to a core, and its fetch path made new (R32). The blocks of a region
entry so written are unfilled and clean, what was dirty in them is dropped, and entries may overlap: the lowest-numbered
region maps a block (DESIGN CHOICE, log entry 103). -/
def Core.takeTables (c : Core) (n : Node) (mark : Nat) : Core :=
  let c := n.tids.foldl (fun (c : Core) (e : Nat × List W64) =>
    { c with tids := Table.set c.tids e.1 (tensorWord e.2)
             badTids := c.badTids.filter (· != e.1) }) c
  let c := n.rgns.foldl (fun (c : Core) (e : Nat × List W64) =>
    { c with rgnlo := Table.set c.rgnlo e.1 ((e.2[0]?).getD 0 &&& rgnloMask)
             rgnhi := Table.set c.rgnhi e.1 ((e.2[1]?).getD 0 &&& rgnhiMask)
             filled := Table.erase e.1 c.filled, dirty := Table.erase e.1 c.dirty
             badRgns := c.badRgns.filter (· != e.1) }) c
  { c with codeMark := mark }

/-- The state of strand r of an instance at its launch, before it becomes READY. -/
def launchedStrand (l : Launch) (nodeNo : Nat) (n : Node) (num rank : Nat) (circ : GangCirc) : Strand :=
  { Strand.reset with
    pc := n.entry &&& ~~~3
    wid := n.wid num
    widfmt := n.widfmt
    larg := l.argv
    linfo := BitVec.ofNat 64 (rank + nodeNo * 2 ^ 3 + l.prioOf n * 2 ^ 9 + l.ticket.toNat % 2 ^ 52 * 2 ^ 12)
    circctx := match circ with
      | some (x, _, _) => BitVec.ofNat 64 x
      | none => 8
    cstep := match circ with
      | some (_, st, _) => BitVec.ofNat 64 st
      | none => 0
    corig := match circ with
      | some (_, _, o) => BitVec.ofNat 64 o
      | none => 0
    inst := some { part := l.part, ticket := l.ticket, node := nodeNo, num := num } }

/-- Start instance num on unit u: what its fetch path had brought from other modules is dropped (R32). -/
def State.startInstance (s : State) (l : Launch) (nodeNo : Nat) (n : Node) (circ : GangCirc) (p : Nat × Nat) : State :=
  let u : UnitNo := BitVec.ofNat 10 p.2
  let s := s.setCore u ((s.core u).takeTables n s.codeLog.length)
  let s := s.dropReqs (fun r => r.owner == some (p.2, fetchMark))
  let first := n.nstr * n.combo (· == 0) p.1
  (List.range n.nstr).foldl (fun (s : State) r =>
    let k : StrandNo := BitVec.ofNat 3 (first + r)
    (s.setStrand u k (launchedStrand l nodeNo n p.1 r circ)).makeReady u k) s

/-- The die that slot k of a node resolves to (R351). -/
def Node.slotDie (n : Node) (ps : List (Nat × Nat)) (k : Nat) : Nat :=
  let c := field n.slots (4 * k + 3) (4 * k)
  let die (p : Option (Nat × Nat)) : Nat := match p with
    | some p => dirDie (BitVec.ofNat 10 p.2)
    | none => 0xF
  if 8 ≤ c then c
  else match (if n.hasLevel 3 then ps.find? (fun p => n.combo (· == 3) p.1 == c) else none) with
    | some p => die (some p)
    | none => die ps.head?

/-- Load a context with a gang's circuit program; none where the program cannot be read. -/
def State.loadCircuit (s : State) (l : Launch) (nodeNo : Nat) (n : Node) (x : Nat) (ps : List (Nat × Nat)) :
    Option (GangCirc × State) :=
  match s.hiveRead l.who n.cprog (8 * n.clen) with
  | (none, _) => none
  | (some b, s1) =>
    let o := (s1.ptime.toNat + 2000 + n.step - 1) / n.step * n.step
    let q : Seq := { Seq.reset with
      loaded := true, part := l.part, owner := some (l.ticket, nodeNo, (ps.map Prod.fst).headD 0)
      prog := (List.range n.clen).map (fun k => BitVec.ofNat 64 (numAt b (8 * k) 8))
      step := n.step, origin := BitVec.ofNat 64 o
      slots := BitVec.ofNat 64 ((List.range 16).map (fun k => n.slotDie ps k * 2 ^ (4 * k))).sum
      next := some 0 }
    some (some (x, n.step, o), s1.setSeq x q)

def Launch.setNode (l : Launch) (i : Nat) (n : Node) : Launch := { l with nodes := l.nodes.set i n }

/-- GANG_DISPATCH: the gang's instances, in ascending order, are placed on the units of `place`. -/
def evGangDispatch (p : PartNo) (ticket : BitVec 64) (node : BitVec 6) (gang : Nat) (place : List UnitNo) (x : SeqCtx)
    (s : State) : State :=
  match (s.partOf p.toNat).findLaunch ticket with
  | none => s
  | some l => match l.nodes[node.toNat]? with
    | none => s
    | some n =>
      let ms := n.gang gang
      let ps := List.zip ms (place.map (fun (u : UnitNo) => u.toNat))
      let r : ReadyGang := ⟨p.toNat, ticket, node.toNat, gang, l.prioOf n⟩
      if place.length != ms.length || !s.placeOk p.toNat n ps || !s.mayDispatch r
          || (n.circ && !s.ctxFree p.toNat x.toNat) || s.handlesHeld p.toNat (ps.map Prod.snd) n.bufs then s
      else
        let loaded := if n.circ then s.loadCircuit l node.toNat n x.toNat ps else some (none, s)
        match loaded with
        | none => s
        | some (circ, s1) =>
          let s2 := (s1.serveRound r).beforeNodes p.toNat ticket node.toNat (ps.map Prod.snd) n.bufs
          let s3 := ps.foldl (fun (s : State) q => s.startInstance l node.toNat n circ q) s2
          s3.setLaunch (l.setNode node.toNat { n with gangs := n.gangs ++ [gang] })

/-! ### Completion of instances and nodes (R173, R359) -/

/-- The strands of a unit that belong to an instance. -/
def State.instStrands (s : State) (u : UnitNo) (i : InstRef) : List StrandNo :=
  ((List.range 8).map (BitVec.ofNat 3)).filter (fun k => (s.strand u k).inst == some i)

/-- A strand of a complete instance: HALTED, its queues empty, and its commands complete. -/
def State.strandDone (s : State) (u : UnitNo) (k : StrandNo) : Bool :=
  let t := s.strand u k
  t.run == .halted && t.lq.isEmpty && t.sq.isEmpty && !s.farOutstanding u.toNat k.toNat
  && t.used.all (fun (q : Nat × W64) => q.2.toNat ≤ ((s.core u).queue q.1).tl.toNat)

/-- In a partition that its policy has frozen, a strand of a failed node that a fault has STOPPED counts as ended too, once
nothing of it is under way (R359, R362; DEDUCED, log entry 105). -/
def State.strandOver (s : State) (u : UnitNo) (k : StrandNo) : Bool :=
  let t := s.strand u k
  s.strandDone u k || (match t.inst with
    | some i => t.run == .stopped && (s.partOf i.part).frozen
        && (((s.partOf i.part).findLaunch i.ticket).bind (fun l => l.nodes[i.node]?)).any (·.failed)
        && t.lq.isEmpty && t.sq.isEmpty && !s.farOutstanding u.toNat k.toNat
        && t.used.all (fun (q : Nat × W64) => q.2.toNat ≤ ((s.core u).queue q.1).tl.toNat)
    | none => false)

/-- The region is the one of a valid KEPT handle held by this core (R360). -/
def State.keptRegion (s : State) (u : UnitNo) (r : Nat) : Bool :=
  (s.partOf (s.unitPart u)).handles.any (fun (h : Nat × BufHandle) =>
    h.2.w0.getLsbD 0 && h.2.kind == 2 && h.2.w3.toNat == u.toNat && field h.2.w0 7 3 == r)

/-- Evict every valid region of a core (R150). -/
def State.evictRegions (s : State) (u : UnitNo) : List Nat → State
  | [] => s
  | r :: rest =>
    if rgnValid ((s.core u).rgnLo r) && !s.keptRegion u r then
      let s := s.cleanRegion u r
      let c := s.core u
      (s.setCore u { c with rgnlo := Table.set c.rgnlo r (c.rgnLo r &&& ~~~1) }).evictRegions u rest
    else s.evictRegions u rest

/-- The first exit status that is not 0. -/
def State.badExit (s : State) (u : UnitNo) (ks : List StrandNo) : W32 :=
  (ks.findSome? (fun k => match (s.strand u k).exitStatus with
    | some v => if v = 0 then none else some v
    | none => none)).getD 0

/-- The queues into which the strands of an instance have enqueued. -/
def State.usedQueues (s : State) (u : UnitNo) (ks : List StrandNo) : List Nat :=
  ks.flatMap (fun k => (s.strand u k).used.map Prod.fst)

/-- Append the fence entry of a node that completed OK (R362, DESIGN CHOICE, log entry 28). -/
def State.fence (s : State) (part : Nat) (ticket : W64) (node : Nat) : State :=
  let x := s.partOf part
  let i := x.fences.length
  let s := s.setPart part { x with fences := x.fences ++ [(ticket, node)] }
  if i ≤ field x.flog 11 0 then
    let va := BitVec.signExtend 64 (BitVec.ofNat 57 (field x.flog 56 12 * 4096 + i * 64))
    s.writeRecord part va (toBytes 8 ticket.toNat ++ toBytes 8 node ++ List.replicate 48 0)
  else s

/-- Count instance `i` of its node as complete, with its failure. -/
def State.countInstance (s : State) (i : InstRef) (exit : W32) (fault : W64) (noNotify : Bool) : State :=
  match (s.partOf i.part).findLaunch i.ticket with
  | none => s
  | some l => match l.nodes[i.node]? with
    | none => s
    | some n =>
      let fails := exit != 0 || fault != 0 || noNotify
      let n : Node := { n with finished := n.finished ++ [i.num] }
      let n : Node := if fails && !n.failed then
          { n with failed := true, blamed := some i.num, exitStatus := exit, fault := fault, noNotify := noNotify && exit = 0 && fault = 0 }
        else if n.failed && n.blamed == some i.num then
          -- the policy has failed the node for this instance (R362)
          { n with exitStatus := exit, fault := if n.fault = 0 then fault else n.fault }
        else n
      let whole := n.finished.length == n.total
      let closes := whole && !n.complete
      let n : Node := { n with complete := n.complete || whole }
      let l := l.setNode i.node n
      let l := if closes && n.failed then l.cancelAfter [i.node] else l
      let s := s.setLaunch l
      if closes && !n.failed then s.fence i.part i.ticket i.node else s

/-- Release a context whose gang's instances are all complete: its circuits are torn down (R313). -/
def State.releaseContexts (s : State) (part : Nat) (ticket : W64) (node : Nat) : State :=
  match (s.partOf part).findLaunch ticket with
  | none => s
  | some l => match l.nodes[node]? with
    | none => s
    | some n =>
      let ended (q : Seq) : Bool := match q.owner with
        | some (t, m, i) => q.loaded && q.part == part && t == ticket && m == node
            && (n.gang (n.combo (· == 5) i)).all n.finished.contains
        | none => false
      { s with seqs := s.seqs.filter (fun (q : Nat × Seq) => !ended q.2) }

/-- INSTANCE_COMPLETE: the completion combiner finds the instance of strand k complete. -/
def evInstanceComplete (u : UnitNo) (k : StrandNo) (s : State) : State :=
  match (s.strand u k).inst with
  | none => s
  | some i =>
    let ks := s.instStrands u i
    if !ks.all (s.strandOver u) || (List.range 32).any (fun r =>
        rgnValid ((s.core u).rgnLo r) && !s.keptRegion u r && s.regionHeld u r) then s
    else
      let qs := s.usedQueues u ks
      let s := s.evictRegions u (List.range 32)
      let exit := s.badExit u ks
      let fault := (qs.findSome? (fun q => let f := ((s.core u).queue q).doneFault; if f = 0 then none else some f)).getD 0
      let noNotify := qs.any (fun q => ((s.core u).queue q).lastOp != 0x3F)
      let s := ks.foldl (fun (s : State) k => s.setStrand u k { s.strand u k with inst := none, used := [] }) s
      (s.countInstance i exit fault noNotify).releaseContexts i.part i.ticket i.node

/-! ### The launch table (R357) -/

def State.slotEntry (s : State) (e : Nat) : SlotEntry := Table.get SlotEntry.reset s.slotTable e
def State.setSlot (s : State) (e : Nat) (x : SlotEntry) : State := { s with slotTable := Table.set s.slotTable e x }

def SlotEntry.valid (x : SlotEntry) : Bool := x.w0.getLsbD 0
def SlotEntry.pol (x : SlotEntry) : Nat := field x.w0 2 1
def SlotEntry.part (x : SlotEntry) : Nat := field x.w0 10 6
def SlotEntry.period (x : SlotEntry) : Nat := field x.w3 31 0

/-- The time of the next slot; none when the one slot has passed. -/
def SlotEntry.due (x : SlotEntry) : Option Nat :=
  if x.valid && (x.next = 0 || x.period != 0) then some (x.w2.toNat + x.next * x.period) else none

/-- OVR and MISS saturate. -/
def SlotEntry.overrun (x : SlotEntry) : SlotEntry :=
  { x with w3 := x.w3 + (if field x.w3 47 32 = 0xFFFF then 0 else 0x100000000) }
def SlotEntry.missed (x : SlotEntry) : SlotEntry :=
  { x with w3 := x.w3 + (if field x.w3 63 48 = 0xFFFF then 0 else 0x1000000000000) }

/-- The last launch of an entry, if it has not completed. -/
def State.lastOpen (s : State) (x : SlotEntry) : Option Launch :=
  match x.last with
  | none => none
  | some t => match (s.partOf x.part).findLaunch t with
    | some l => if l.complete then none else some l
    | none => none

/-- Launch a slot of entry e, an overrun one or not; while 256 launches are open it waits (R355). -/
def State.launchEntry (s : State) (e : Nat) (late : Bool) : State :=
  let x := s.slotEntry e
  let p := x.part
  if 256 ≤ (s.partOf p).openLaunches then s.setSlot e { x with waiting := true, full := if late then none else some s.ptime }
  else
    let desc := BitVec.signExtend 64 (BitVec.ofNat 57 x.w1.toNat)
    let s := s.addLaunch p (fun n => { newLaunch p n desc none true 0 none (some (BitVec.ofNat 3 (field x.w0 5 3)))
      (if late then none else some e) (x.full.getD s.ptime) true with preempts := late && x.pol == 2 })
    s.setSlot e { x with last := some (s.partOf p).ltick, waiting := false, full := none }

/-- The strands that belong to a launch. -/
def State.launchStrands (s : State) (p : Nat) (ticket : W64) : Table Strand :=
  s.strands.filter (fun (e : Nat × Strand) => match e.2.inst with
    | some i => i.part == p && i.ticket == ticket
    | none => false)

/-- A rule strand of a partition that has not ended (R422). -/
def State.ruleStrands (s : State) (p : Nat) : Table Strand :=
  s.strands.filter (fun (e : Nat × Strand) => e.2.rule.isSome && s.unitPart (BitVec.ofNat 10 (e.1 / 8)) == p)

/-- Begin the pre-emption of the instances of a launch on some of its units (R361): each strand of a node with
NOTICE receives the notice. -/
def State.preemptUnits (s : State) (l : Launch) (us : List Nat) : State :=
  let mine := (s.launchStrands l.part l.ticket).filter (fun (e : Nat × Strand) =>
    us.contains (e.1 / 8) && !l.stopUnits.contains (e.1 / 8))
  let us := (mine.map (fun (e : Nat × Strand) => e.1 / 8)).eraseDups
  if !l.inFlight || us.isEmpty then s
  else
    let s := s.setLaunch { l with stopping := true
                                  stopUnits := l.stopUnits ++ us
                                  noticeAt := l.noticeAt ++ us.map (fun u => (u, (s.core (BitVec.ofNat 10 u)).cycle)) }
    mine.foldl (fun (s : State) (e : Nat × Strand) =>
      let notice := match e.2.inst with
        | some i => match l.nodes[i.node]? with
          | some n => n.notice
          | none => false
        | none => false
      if notice && e.2.run != .halted && e.2.run != .stopped then
        s.holdTrap (BitVec.ofNat 10 (e.1 / 8)) (BitVec.ofNat 3 e.1) ⟨causePreemptNotice, 0, 0, 0, false⟩
      else s) s

/-- Begin the pre-emption of a launch whole, or, under a ticket of no launch, of the partition's rule strands
(R429; DESIGN CHOICE, log entry 86). -/
def State.beginPreempt (s : State) (part : Nat) (ticket : W64) : State :=
  match (s.partOf part).findLaunch ticket with
  | none => if (s.ruleStrands part).isEmpty || (s.partOf part).stopRules.isSome then s
      else s.setPart part { s.partOf part with stopRules := some ticket }
  | some l => s.preemptUnits l (List.range 560)

/-- Every strand with work on unit u is of an instance of PRIO prio or greater in value, in this partition. -/
def State.victim (s : State) (part prio u : Nat) : Bool :=
  let ts := (List.range 8).map (fun k => s.strand (BitVec.ofNat 10 u) (BitVec.ofNat 3 k))
  ts.any (fun t => t.inst.isSome) && ts.all (fun t => t.rule.isNone && (match t.inst with
    | none => s.strandIdle t
    | some i => i.part == part && (match (s.partOf part).findLaunch i.ticket with
      | some l => l.inFlight && (match l.nodes[i.node]? with
        | some n => prio ≤ l.prioOf n
        | none => false)
      | none => false)))

/-- A placement of instances on units that are idle or hold victims only. -/
def State.findPlace (s : State) (part prio : Nat) (n : Node) : List Nat → List (Nat × Nat) → Option (List (Nat × Nat))
  | [], ps => some ps
  | i :: rest, ps => (List.range 560).findSome? (fun u =>
      if s.unitMatches part n i u && (s.unitIdle u || s.victim part prio u)
          && ps.all (fun b => placedTogether n i u b.1 b.2) then
        s.findPlace part prio n rest ((i, u) :: ps)
      else none)

/-- The first gang of a launch that can start but for units: node and gang. -/
def Launch.firstGang (l : Launch) : Option (Node × Nat) :=
  l.nodes.findSome? (fun n => if n.complete || !l.predsOk n then none
    else ((List.range n.gangCount).find? (fun g => !n.gangs.contains g)).map (fun g => (n, g)))

/-- Pre-empt the instances that hold the units which the next gang of a launch needs (R357; DEDUCED, log entry 29). -/
def State.preemptNeeded (s : State) (l : Launch) : State :=
  match l.firstGang with
  | none => s
  | some (n, g) =>
    if s.canPlace l.part n (n.gang g) [] then s
    else match s.findPlace l.part (l.prioOf n) n (n.gang g) [] with
      | none => s
      | some ps =>
        let us := (ps.map Prod.snd).filter (fun u => !s.unitIdle u)
        (s.partOf l.part).launches.foldl (fun (s : State) y => match (s.partOf l.part).findLaunch y.ticket with
          | some y => s.preemptUnits y us
          | none => s) s

/-- LAUNCH_ACCEPT: a strand's launch has come to the head of its store queue, or the launch came from a
doorbell or the launch table. -/
def evLaunchAccept (p : PartNo) (ticket : BitVec 64) (s : State) : State :=
  match (s.partOf p.toNat).findLaunch ticket with
  | none => s
  | some l =>
    if l.accepted || l.complete then s
    else if l.effective then
      let s := s.acceptLaunch l
      match (s.partOf p.toNat).findLaunch ticket with
      | some l => if l.preempts && l.status == 0 then s.preemptNeeded l else s
      | none => s
    else match s.launchHead p.toNat ticket with
      | some (u, k, seq) => (s.pop u k seq).acceptLaunch { l with effective := true }
      | none => s

/-- The entry's previous launch is pre-empted, if it still runs (R357). -/
def State.preemptLast (s : State) (x : SlotEntry) : State :=
  match s.lastOpen x with
  | some l => s.beginPreempt x.part l.ticket
  | none => s

/-- A slot of the entry waits: one deferred, or a launch of it of which nothing has been dispatched. -/
def State.slotWaits (s : State) (x : SlotEntry) : Bool :=
  x.waiting || (match s.lastOpen x with
    | some l => l.slot.isNone && l.nodes.all (fun n => n.gangs.isEmpty)
    | none => false)

/-- An overrun slot of entry e. -/
def State.slotOverrun (s : State) (e : Nat) : State :=
  let x := (s.slotEntry e).overrun
  match x.pol with
  | 0 =>
    if s.slotWaits x then s.setSlot e x.missed
    else if (s.lastOpen x).isNone then (s.setSlot e x).launchEntry e true
    else s.setSlot e { x with waiting := true }
  | 2 => ((s.setSlot e x).preemptLast x).launchEntry e true
  | _ => s.setSlot e x.missed

/-- What happens at a slot's time. -/
def State.slotComes (s : State) (e : Nat) (passed : Bool) : State :=
  let x := s.slotEntry e
  let x := { x with next := x.next + 1 }
  let s := s.setSlot e x
  if (s.partOf x.part).frozen then s.setSlot e x.overrun.missed
  else if passed || (s.lastOpen x).isSome || x.waiting then s.slotOverrun e
  else s.launchEntry e false

/-- A slot that waits can launch now: the entry's previous launch has completed (but a PREEMPT slot does not wait for
it), its partition is not frozen, and a launch is free. -/
def State.waitingFree (s : State) (x : SlotEntry) : Bool :=
  x.waiting && x.valid && !(s.partOf x.part).frozen && ((s.lastOpen x).isNone || x.pol == 2) && (s.partOf x.part).openLaunches < 256

/-- The time at which something of entry e falls due: its next slot, or at once a slot that waits and can launch. -/
def State.slotDue (s : State) (x : SlotEntry) : Option Nat := if s.waitingFree x then some s.ptime.toNat else x.due

/-- LAUNCH_SLOT: a slot that has waited, or the next one. -/
def evLaunchSlot (e : BitVec 10) (s : State) : State :=
  if s.waitingFree (s.slotEntry e.toNat) then s.launchEntry e.toNat (s.slotEntry e.toNat).full.isNone
  else match (s.slotEntry e.toNat).due with
    | some t => if t ≤ s.ptime.toNat then s.slotComes e.toNat false else s
    | none => s

/-- The launch of a slot of which no gang has been dispatched, within its 250 ns. -/
def Launch.undispatched (l : Launch) : Bool :=
  l.slot.isSome && !l.nodes.any (fun n => !n.gangs.isEmpty) && !(l.accepted && l.status != 0)

/-- The package time after which the dispatch of an entry's slot is an overrun, if one is awaited. -/
def State.slotLimit (s : State) (x : SlotEntry) : Option Nat :=
  match x.full, s.lastOpen x with
  | some t, _ => some (t.toNat + 250)
  | none, some l => if l.undispatched then some (l.at_.toNat + 250) else none
  | none, none => none

/-- LAUNCH_SLOT_DISPATCH_TIMEOUT: no gang of the slot's launch has been dispatched 250 ns after it. -/
def evLaunchSlotDispatchTimeout (e : BitVec 10) (s : State) : State :=
  let x := s.slotEntry e.toNat
  match x.full, s.lastOpen x with
  | some t, _ => if s.ptime.toNat ≤ t.toNat + 250 then s else (s.setSlot e.toNat { x with waiting := false, full := none }).slotOverrun e.toNat
  | none, none => s
  | none, some l =>
    if !l.undispatched || s.ptime.toNat ≤ l.at_.toNat + 250 then s
    else
      let s := s.setLaunch { l with slot := none }
      match x.pol with
      | 0 => s.setSlot e.toNat x.overrun
      | 2 =>
        let s := s.setSlot e.toNat x.overrun
        if l.accepted then s.preemptNeeded { l with slot := none } else s.setLaunch { l with slot := none, preempts := true }
      | _ => ((s.setLaunch { l with slot := none, complete := true, cancelled := true, status := 0x22 }).setSlot e.toNat
          x.overrun.missed).admitBells x.part 256

/-- What has run out in the launch table by now takes effect. -/
def State.slotsOut (s : State) : State :=
  s.slotTable.foldl (fun (s : State) (p : Nat × SlotEntry) => evLaunchSlotDispatchTimeout (BitVec.ofNat 10 p.1) s) s

/-- A deferred slot launches as soon as the entry's previous launch has completed. -/
def State.launchWaiting (s : State) (part : Nat) (ticket : W64) : State :=
  s.slotTable.foldl (fun (s : State) (p : Nat × SlotEntry) =>
    if p.2.part == part && p.2.last == some ticket && s.waitingFree p.2 then s.launchEntry p.1 p.2.full.isNone else s) s

/-! ### LAUNCH_COMPLETE (R359, R444) -/

/-- The first failed node. -/
def Launch.firstFailed (l : Launch) : Option (Nat × Node) :=
  (List.zip (List.range l.nodes.length) l.nodes).find? (fun (p : Nat × Node) => p.2.failed)

/-- The status of a launch all of whose nodes are complete. -/
def Launch.finalStatus (l : Launch) : Byte :=
  if l.status != 0 then l.status
  else match l.firstFailed with
    | some (_, n) => if n.noNotify then 0x23 else 0x21
    | none => if l.cancelled then 0x22 else 0

/-- The completion record (Table 16-7). -/
def Launch.record (l : Launch) (now : W64) : List Byte :=
  let (node, exit, fault) := match l.firstFailed with
    | some (i, n) => (i, n.exitStatus.toNat, n.fault.toNat)
    | none => (0xFF, 0, 0)
  let stat := l.finalStatus.toNat + node * 2 ^ 8 + l.replays.toNat * 2 ^ 16 + exit * 2 ^ 32
  toBytes 8 l.ticket.toNat ++ toBytes 8 stat ++ toBytes 8 fault ++ toBytes 8 now.toNat

/-- Before the record of a launch, every slice writes back its dirty lines of the HOSTIO ranges that the
launch declared written (R360). -/
def State.cleanHostio (s : State) (part : Nat) (l : Launch) : State :=
  (l.nodes.flatMap (fun n => n.bufs)).foldl (fun (s : State) d =>
    let b := (s.partOf part).handle d.1
    if b.kind ≠ 1 || d.2 < 2 then s
    else match s.translateRange (hiveWho part) .read .probe (piecesOf (BitVec.signExtend 64 (BitVec.ofNat 57 b.w1.toNat)) b.w2.toNat) with
      | (.ok hs, s1) =>
        { s1 with homes := { s1.homes with cleaned := (hitSegs hs).map (fun g => (g.1, g.2, s1.codeLog.length)) ++ s1.homes.cleaned } }
      | (.error _, s1) => s1) s

/-- A write of a launch's record waits at its home (R279). -/
def State.recordHeld (s : State) (l : Launch) : Bool := !l.noRecord && s.rangeHeld l.who l.crec 32

/-- LAUNCH_COMPLETE: the record, then the arrival at REPORT's barrier, then the message to the host. -/
def evLaunchComplete (p : PartNo) (ticket : BitVec 64) (s : State) : State :=
  match (s.partOf p.toNat).findLaunch ticket with
  | none => s
  | some l =>
    if !l.accepted || l.complete || l.stopping || !l.nodes.all (fun n => n.complete) || s.recordHeld l then s
    else
      let l' : Launch := { l with complete := true, status := l.finalStatus }
      let s := s.cleanHostio p.toNat l
      let s := if l.noRecord then s.setLaunch l'
        else match s.hiveWrite l.who l.crec (l.record s.ptime) with
          | (true, s1) => s1.setLaunch l'
          | (false, s1) => (s1.setLaunch { l' with noRecord := true }).hiveFault l 0x04 l.crec
      let s := match l.origin with
        | some u => if l.report.getLsbD 9 then s.arrive (BitVec.ofNat 10 u) (field l.report 8 0) 1 else s
        | none => s.toHost (.launchDone p.toNat ticket)
      (s.launchWaiting p.toNat ticket).admitBells p.toNat 256

end Sys2Proof.Machine
end

