-- ==== Sys2Proof/Machine/Preempt.lean ====
section
/-! DEFINITION. Pre-emption (R361) with what it saves and restores: strands and cores (R174, R228, R235),
open pairs (R266), groups (R262), the pairs of foragers (R417), rule strands (R429) and sequencer contexts (R341).
A saved context stands in State; what its record in the SAVE area holds the spec does not say (DESIGN CHOICE,
log entry 30). -/

namespace Sys2Proof.Machine

/-- PREEMPT. -/
def evPreempt (p : PartNo) (ticket : BitVec 64) (s : State) : State := s.beginPreempt p.toNat ticket

/-! ### Stopping -/

/-- The notice is over: PNWIN cc have passed on every unit, or every notified strand has returned. -/
def State.noticeOver (s : State) (p : Nat) (l : Launch) (mine : Table Strand) : Bool :=
  mine.all (fun (e : Nat × Strand) => !e.2.noticed && !e.2.held.any (fun a => a.code == causePreemptNotice))
  || l.noticeAt.all (fun (a : Nat × W64) =>
    (s.partOf p).pnwin.toNat ≤ ((s.core (BitVec.ofNat 10 a.1)).cycle - a.2).toNat)

/-- A TLBINV of the strand has not completed (R298). -/
def Strand.invalidating (t : Strand) : Bool :=
  !t.invs.isEmpty || t.sq.any (fun q => match q.kind with
    | .tlbinv _ _ _ _ => true
    | _ => false)

/-- A TLBINV, an eviction or a moved page's home waits for an entry of the strand of this key. -/
def State.awaitedEntry (s : State) (key : Nat) : Bool :=
  let mine (accs : List (Nat × Nat)) : Bool := accs.any (fun a => a.1 == key && s.entryThere a.1 a.2)
  s.strands.any (fun (p : Nat × Strand) => p.2.invs.any (fun x => mine x.accs))
    || s.homes.evicting.any (fun e => mine e.accs) || s.homes.moves.any (fun m => mine m.heldAccs)

/-- The pairs of a forager. -/
def pairsOfUnit (u : Nat) : List Nat := if 512 ≤ u && u < 528 then (List.range 64).map (64 * (u - 512) + ·) else []

/-- A unit has nothing under way that must end before its state is saved: started commands, TLBINVs (R298), far
accesses, earlier loads and a trap about to be entered (R122). What else stands in the queues is saved with them (R68,
R376). -/
def State.unitQuiet (s : State) (u : Nat) : Bool :=
  let un : UnitNo := BitVec.ofNat 10 u
  (s.core un).eng.all (fun (e : Nat × EngRun) => e.2.op == 6 && e.2.out.isNone)
  && (List.range 8).all (fun k =>
    let t := s.strand un (BitVec.ofNat 3 k)
    !t.invalidating && !t.entryWaits && t.entering.isNone && !s.farOutstanding u k && !s.awaitedEntry (8 * u + k))

/-- The fired entries of a partition's pairs have retired (R417). -/
def State.pairsQuiet (s : State) (p : Nat) : Bool :=
  s.fabric.pairs.all (fun (x : Nat × Pair) => s.unitPart (BitVec.ofNat 10 (512 + x.1 / 64)) != p || x.2.out.isEmpty)

def setStopped (b : Bool) (s : State) (u : Nat) : State :=
  let un : UnitNo := BitVec.ofNat 10 u
  s.setCore un { s.core un with stoppedEngines := b }

/-! ### Saving -/

/-- A sequencer context as it is saved (R341): its circuits are torn down, and those that were SETTLING or
LIVE are to be established again at the next boundary. -/
def Seq.parked (q : Seq) (now : Nat) : Seq :=
  let n := if now < q.origin.toNat then 0 else (now - q.origin.toNat) / q.step + 1
  let up := q.handles.filter (fun (h : Nat × Handle) => HandleUp h.2)
  { q with
    handles := q.handles.map (fun (h : Nat × Handle) => (h.1, if HandleUp h.2 then { h.2 with state := .idle } else h.2))
    revive := some (n, up.map Prod.fst) }

/-- A context holds part of a pair, which returns to the same core. -/
def Core.pairOpen (c : Core) : Bool :=
  c.openPacc.isSome || c.pair.buf.isSome || !c.pair.inbox.isEmpty || !c.pair.heldAborts.isEmpty

/-- A core after its context has been saved: no command, no operation, no group. A pair that is open stays in place
and answers PARKED (R266). FIFO slots and sys.MXPOS stay as they were (DESIGN CHOICE, log entry 104). -/
def Core.vacated (c : Core) : Core :=
  { c with queues := [], eng := [], served := [], chainLock := false, stoppedEngines := false, group := none
           active := none, statEv := [], woken := [], tlOld := [], barOld := [], ivOld := [], reach := none
           pp := c.pp.map (fun (p : Nat × PpAcc) => (p.1, { p.2 with ops := [] }))
           pair := { c.pair with saved := c.pairOpen } }

/-- Core c waits in a PACC for the partner u. -/
def Core.waitsFor (c : Core) (u : Nat) : Bool :=
  match c.openPacc with
  | some (_, cmd) => paccPartner cmd == u
  | none => false

/-- The partner of unit u's open PACC stops the timeout of its own PACC with u. -/
def State.pausePartner (s : State) (u : Nat) (c : Core) : State :=
  match c.openPacc with
  | none => s
  | some (_, cmd) =>
    let v := paccPartner cmd
    let d := s.core (BitVec.ofNat 10 v)
    if d.waitsFor u then s.setPairUnit v { d.pair with pausedAt := some d.cycle } else s

/-- The groups of the cores of `us`: cluster, slot and group. -/
def State.groupsOf (s : State) (us : List Nat) : List (Nat × Nat × Group) :=
  s.clusters.flatMap (fun (c : Nat × Cluster) => (c.2.groups.filter (fun (g : Nat × Group) =>
    us.any (fun u => u < 512 && u / 16 == c.1 && g.2.joined.getLsbD (u % 16)))).map (fun (g : Nat × Group) => (c.1, g.1, g.2)))

def spadOf (m : Memory) (u : Nat) : Memory := m.filter (fun c => placeOf c.1 == .spad u)

/-- A strand as it is saved: pre-emption ends its run (R71), but a member of a group keeps the issue unit. -/
def State.stoppedStrand (s : State) (e : Nat × Strand) : Nat × Strand :=
  let c := s.core (BitVec.ofNat 10 (e.1 / 8))
  (e.1, if e.2.run == .running && c.group.isNone then { e.2.unfresh with run := .ready, runLen := 0 } else e.2)

/-- The timeout of a core's PACC has not run since cycle t. -/
def Core.skipped (c : Core) (t : W64) : Core :=
  { c with pair := { c.pair with pausedAt := none }
           eng := c.eng.map (fun (e : Nat × EngRun) =>
             (e.1, if e.2.op == 6 then { e.2 with cc := e.2.cc + (c.cycle - t) } else e.2)) }

/-- A core as it is saved: the run of its strand has ended. -/
def Core.stopped (c : Core) : Core :=
  let c := match c.pair.pausedAt with
    | some t => c.skipped t
    | none => c
  match c.active with
  | some k => if c.group.isNone then { c with active := none, lastRun := k, woken := [] } else c
  | none => c

/-- How an entry's rights and a block name unit u's strand in the saved context of number id. -/
def savedUnit (id u : Nat) : Nat := 1024 * (id + 1) + u

/-- Entries and blocks name the strands `mine` in the saved context from now on (R401, R411, R429). -/
def State.nameSaved (s : State) (p id : Nat) (mine : Table Strand) : State :=
  let name (u k : Nat) : Nat := if Table.has mine (8 * u + k) then savedUnit id u else u
  let s : State := { s with fabric := { s.fabric with pairs := s.fabric.pairs.map (fun (x : Nat × Pair) =>
    (x.1, { x.2 with caps := x.2.caps.map (fun (c : Nat × QpCap) => (c.1, { c.2 with unit := name c.2.unit c.2.strand })) })) } }
  let x := s.partOf p
  let block (b : Nat × PnBlock) : Nat × PnBlock := (b.1, { b.2 with strand := b.2.strand.map (fun q => (name q.1 q.2, q.2)) })
  s.setPart p { x with tensors := x.tensors.map (fun (n : Nat × Tensor) => (n.1, { n.2 with blocks := n.2.blocks.map block })) }

/-- Two instances of a node of a launch are of one gang. -/
def State.sameGang (s : State) (p : Nat) (ticket : W64) (node i j : Nat) : Bool :=
  match ((s.partOf p).findLaunch ticket).bind (fun l => l.nodes[node]?) with
  | some n => n.combo (· == 5) i == n.combo (· == 5) j
  | none => i == j

/-- Save the strands `mine` with their units, under a ticket, and leave the units idle. A record goes to the SAVE
area (R361, R443). -/
def State.saveUnits (s : State) (p : Nat) (ticket : W64) (us : List Nat) (mine : Table Strand) : State :=
  let s := s.nameSaved p s.tick mine
  let cores := us.map (fun u => (u, (s.core (BitVec.ofNat 10 u)).stopped))
  let groups := s.groupsOf us
  let mineCtx (q : Seq) : Bool := q.loaded && q.part == p && (match q.owner with
    | some (t, n, i) => t == ticket && mine.any (fun (e : Nat × Strand) => match e.2.inst with
      | some x => x.node == n && s.sameGang p ticket n x.num i
      | none => false)
    | none => false)
  let ctx := s.seqs.filter (fun (q : Nat × Seq) => mineCtx q.2)
  let v : Saved := { ticket := ticket, id := s.tick, units := us, strands := mine.map s.stoppedStrand, cores := cores
                     pairs := (us.flatMap pairsOfUnit).map (fun n => (n, s.pairOf n))
                     spads := us.map (fun u => (u, spadOf s.mem u)), poisons := us.map (fun u => (u, spadOf s.poison u))
                     groups := groups, ctx := ctx.map (fun (q : Nat × Seq) => (q.1, q.2.parked s.ptime.toNat)) }
  let s := groups.foldl (fun (s : State) g => s.setGroup g.1 g.2.1 Group.reset) s
  let s := cores.foldl (fun (s : State) (c : Nat × Core) => (s.setCore (BitVec.ofNat 10 c.1) c.2.vacated).pausePartner c.1 c.2) s
  let s := mine.foldl (fun (s : State) (e : Nat × Strand) =>
    s.setStrand (BitVec.ofNat 10 (e.1 / 8)) (BitVec.ofNat 3 e.1) Strand.reset) s
  let s := { s with seqs := s.seqs.filter (fun (q : Nat × Seq) => !mineCtx q.2) }
  -- reads that no strand's queue made are asked for again
  let s := s.dropReqs (fun r => match r.owner with
    | some (u, k) => 8 ≤ k && us.contains u
    | none => false)
  let s := s.setPart p { s.partOf p with saved := (s.partOf p).saved ++ [v] }
  let t := s.writeRecord p (s.partOf p).save (Config.saveRecord s.tick)
  { t with tick := t.tick + 1 }

/-- A strand of a launch holds work on the unit. -/
def State.launchOn (s : State) (u : Nat) : Bool :=
  (List.range 8).any (fun k => let t := s.strand (BitVec.ofNat 10 u) (BitVec.ofNat 3 k); t.inst.isSome && !s.strandIdle t)

/-- Stop some units, and save them once they are quiet: the strands `mine` and the rule strands there (R429). -/
def State.stopOrSave (s : State) (p : Nat) (ticket : W64) (us : List Nat) (mine : Table Strand) : Option State :=
  let s1 := us.foldl (setStopped true) s
  if us.all s1.unitQuiet && s1.pairsQuiet p then
    some (s1.saveUnits p ticket us (mine ++ (s1.ruleStrands p).filter (fun (e : Nat × Strand) => us.contains (e.1 / 8))))
  else none

/-- PREEMPT_STOP: the units stop once the notice is over; what was under way ends (R174, R298, R417); then the
state is saved. -/
def evPreemptStop (p : PartNo) (ticket : BitVec 64) (s : State) : State :=
  let x := s.partOf p.toNat
  match x.findLaunch ticket with
  | none =>
    if x.stopRules != some ticket then s
    else
      let all := ((s.ruleStrands p.toNat).map (fun (e : Nat × Strand) => e.1 / 8)).eraseDups
      -- a unit that a launch uses too is stopped with that launch, or once it has ended
      let us := all.filter (fun u => !s.launchOn u)
      if us.length != all.length then us.foldl (setStopped true) s
      else match s.stopOrSave p.toNat ticket us [] with
        | some s1 => s1.setPart p.toNat { s1.partOf p.toNat with stopRules := none }
        | none => us.foldl (setStopped true) s
  | some l =>
    let mine := (s.launchStrands p.toNat ticket).filter (fun (e : Nat × Strand) => l.stopUnits.contains (e.1 / 8))
    if !l.stopping || !s.noticeOver p.toNat l mine then s
    else
      let us := (mine.map (fun (e : Nat × Strand) => e.1 / 8)).eraseDups
      -- an instance that has completed meanwhile leaves its unit to others
      let s := (l.stopUnits.filter (fun u => !us.contains u)).foldl (setStopped false) s
      let l' : Launch := { l with stopping := false, stopUnits := [], noticeAt := [] }
      if mine.isEmpty then s.setLaunch l'
      else match s.stopOrSave p.toNat ticket us mine with
        | some s1 => s1.setLaunch { l' with saved := true }
        | none => us.foldl (setStopped true) s

/-! ### Restoring -/

/-- The new unit of an old one. -/
def movedTo (us vs : List Nat) (u : Nat) : Nat :=
  match (List.zip us vs).find? (fun p => p.1 == u) with
  | some p => p.2
  | none => u

/-- The saved instances and their new units: node, instance, unit. -/
def Saved.instances (v : Saved) (vs : List Nat) : List (Nat × Nat × Nat) :=
  v.strands.filterMap (fun (e : Nat × Strand) => e.2.inst.map (fun i => (i.node, i.num, movedTo v.units vs (e.1 / 8))))

/-- The instances of the saved context's launch that run: node, instance, unit. -/
def State.running (s : State) (p : Nat) (ticket : W64) : List (Nat × Nat × Nat) :=
  (s.launchStrands p ticket).filterMap (fun (e : Nat × Strand) => e.2.inst.map (fun i => (i.node, i.num, e.1 / 8)))

/-- The units of `vs` can take the saved context: each is a unit of the partition of the old one's class, and a
forager is the same one (R417); an instance stands as Table 16-4 asks beside those of its gang that return with it or
run already (R361). -/
def State.restoreOk (s : State) (p : Nat) (l : Option Launch) (v : Saved) (vs : List Nat) : Bool :=
  let is := v.instances vs
  let nodes := match l with
    | some l => l.nodes
    | none => []
  vs.length == v.units.length && vs.eraseDups.length == vs.length
  && (List.zip v.units vs).all (fun q => q.2 < 560 && unitClass (BitVec.ofNat 10 q.1) == unitClass (BitVec.ofNat 10 q.2)
    && s.unitPresent q.2 && s.unitPart (BitVec.ofNat 10 q.2) == p && s.unitIdle q.2
    && (q.1 == q.2 || !(512 ≤ q.1 && q.1 < 528)))
  && is.all (fun a => match nodes[a.1]? with
    | some n => s.unitFits p n a.2.1 a.2.2 && (is ++ s.running p v.ticket).all (fun b =>
        b.1 != a.1 || n.combo (· == 5) b.2.1 != n.combo (· == 5) a.2.1 || placedTogether n a.2.1 a.2.2 b.2.1 b.2.2)
    | none => false)
  && (List.zip v.units vs).all (fun q => q.1 == q.2 ||
      (!(v.cores.any (fun (c : Nat × Core) => c.1 == q.1 && c.2.pairOpen))
       && !v.groups.any (fun g => q.1 < 512 && q.1 / 16 == g.1 && g.2.2.joined.getLsbD (q.1 % 16))))
  && v.groups.all (fun g => (s.groupOf g.1 g.2.1).mask == 0)
  && v.ctx.all (fun (q : Nat × Seq) => s.ctxFree p q.1)

/-- The unit fits but for what its own saved pair says. -/
def State.freeSaved (s : State) (us : List Nat) : State :=
  us.foldl (fun (s : State) u =>
    let c := s.core (BitVec.ofNat 10 u)
    s.setCore (BitVec.ofNat 10 u) { c with pair := { c.pair with saved := false } }) s

/-- A command's start, and an update of a tile status, keep their distance to the present cycle; every promise is
void (R169). -/
def Core.rebase (c : Core) (now : W64) : Core :=
  { c with eng := c.eng.map (fun (e : Nat × EngRun) => (e.1, { e.2 with cc := now - (c.cycle - e.2.cc) }))
           chainAt := now - (c.cycle - c.chainAt)
           statEv := c.statEv.map (fun e => { e with cc := now - (c.cycle - e.cc) })
           queues := c.queues.map (fun (q : Nat × Queue) =>
             (q.1, { q.2 with entries := q.2.entries.map (fun (e : QEntry) => { e with promise := BitVec.allOnes 64 }) })) }

/-- A saved core on a unit: the core's own counter, TLB and fetch path stay (R361), and so does its pair unit, whose open
pair has stood in place (R266). -/
def Core.restored (old live : Core) : Core :=
  { old.rebase live.cycle with
    cycle := live.cycle, gapEnd := live.cycle, woken := [], tlOld := [], barOld := [], ivOld := [], reach := none, tlb := live.tlb
    codeMark := live.codeMark, stoppedEngines := false
    corrected := live.corrected
    pair := { live.pair with saved := false } }

/-- Bytes of an old unit's scratchpad, at the new unit's places. -/
def moveSpad (m : Memory) (u v : Nat) : List Host.Cell → Memory
  | [] => m
  | (k, b) :: rest => moveSpad (m.write (k - spadKey u 0 + spadKey v 0) b) u v rest

def State.restoreSpad (s : State) (u v : Nat) (bytes bad : Memory) : State :=
  { s with mem := moveSpad (dropSpad s.mem v) u v bytes, poison := moveSpad (dropSpad s.poison v) u v bad }

/-- The partner of a restored open PACC goes on with its timeout; while the partner itself is saved, the
restored side's own stands still. -/
def State.resumePartner (s : State) (v : Nat) : State :=
  let un : UnitNo := BitVec.ofNat 10 v
  let c := s.core un
  match c.openPacc with
  | none => s
  | some (_, cmd) =>
    let w := paccPartner cmd
    let d := s.core (BitVec.ofNat 10 w)
    if d.pair.saved then s.setPairUnit v { c.pair with pausedAt := some c.cycle }
    else match d.pair.pausedAt with
      | none => s
      | some t => if d.waitsFor v then s.setCore (BitVec.ofNat 10 w) (d.skipped t) else s

/-- A restored context: its steps go on at the next boundary in the future (R341). -/
def Seq.resumed (q : Seq) (now : Nat) : Seq :=
  let n := match q.revive with
    | some (n, _) => n
    | none => 0
  let k := if now < q.boundary n then 0 else (now - q.boundary n) / q.step + 1
  { q with origin := q.origin + BitVec.ofNat 64 (k * q.step)
           sigs := q.sigs.map (fun g => { g with at_ := g.at_ + BitVec.ofNat 64 (k * q.step) }) }

/-- A key of old unit u's scratchpad, on the new unit v. -/
def movedKey (u v k : Nat) : Nat := if placeOf k == .spad u then k - spadKey u 0 + spadKey v 0 else k

/-- Queue entries of a strand that moves from unit u to v: local accesses, and arrivals at its own core. -/
def LqKind.moved (u v : Nat) : LqKind → LqKind
  | .load segs .loc dst ty ea pc sent got =>
    .load (segs.map (fun p => (movedKey u v p.1, p.2))) .loc dst ty ea pc sent (got.map (fun p => (movedKey u v p.1, p.2)))
  | k => k

def SqKind.moved (u v : Nat) : SqKind → SqKind
  | .store cells .loc ea cmp sent => .store (cells.map (fun c => (movedKey u v c.1, c.2))) .loc ea cmp sent
  | .atomic a sent => .atomic (if a.space == .loc then { a with key := movedKey u v a.key } else a) sent
  | .posted a sent => .posted (if a.space == .loc then { a with key := movedKey u v a.key } else a) sent
  | .barr w b n => .barr (if w == u then v else w) b n
  | k => k

/-- A restored strand, from unit u to v: a promise is void (R169), and sys.CORIG names the context's new origin. -/
def Strand.restored (t : Strand) (u v : Nat) (ctx : List (Nat × Seq)) : Strand :=
  { t with lq := t.lq.map (fun q => { q with kind := q.kind.moved u v })
           sq := t.sq.map (fun q => { q with kind := q.kind.moved u v })
           promise := BitVec.allOnes 64
           corig := if t.circctx.getLsbD 3 then t.corig
             else match ctx.find? (fun (q : Nat × Seq) => q.1 == field t.circctx 2 0) with
               | some q => q.2.origin
               | none => t.corig }

/-- How far the latest cycle count of a group's cores has moved since the save. -/
def State.groupShift (s : State) (v : Saved) (cluster : Nat) (g : Group) : W64 :=
  let cycles := (v.cores.filter (fun (c : Nat × Core) => c.1 < 512 && c.1 / 16 == cluster && g.joined.getLsbD (c.1 % 16))).map
    (fun (c : Nat × Core) => c.2.cycle.toNat)
  BitVec.ofNat 64 (s.latestOf cluster g.joined) - BitVec.ofNat 64 (cycles.foldl Nat.max 0)

/-- A group's next issue, and its hold, keep their distance to the latest cycle of its cores (R262). -/
def State.restoredGroup (s : State) (v : Saved) (cluster : Nat) (g : Group) : Group :=
  { g with startAt := g.startAt + s.groupShift v cluster g
           holdSince := g.holdSince.map (fun h => h + s.groupShift v cluster g) }

/-- What a TLBINV waits for in a saved context stands at its restored strands again. -/
def InvWait.follow (us vs : List Nat) (x : InvWait) : InvWait :=
  { x with accs := x.accs.map (fun a =>
      if savedBase ≤ a.1 && us.contains ((a.1 - savedBase) / 8) then (8 * movedTo us vs ((a.1 - savedBase) / 8) + a.1 % 8, a.2) else a) }

/-- A restored pair context: what arrived meanwhile stays (R417), and the names of the posters of its entries. -/
def Pair.restored (old live : Pair) : Pair :=
  { old with arrivals := live.arrivals, frozen := live.frozen, caps := if live.posted = old.posted then live.caps else old.caps }

/-- The unit on which a strand named in the saved context v stands after its return. -/
def Saved.unitNow (v : Saved) (vs : List Nat) (u : Nat) : Nat :=
  if u / 1024 == v.id + 1 then movedTo v.units vs (u % 1024) else u

/-- A block whose rule strand has returned (R429). -/
def Tensor.follow (v : Saved) (vs : List Nat) (x : Tensor) : Tensor :=
  { x with blocks := x.blocks.map (fun (b : Nat × PnBlock) => (b.1, { b.2 with
      strand := b.2.strand.map (fun q => (v.unitNow vs q.1, q.2)) })) }

/-- The rights of entries whose poster has returned (R401, R411). -/
def Pair.follow (v : Saved) (vs : List Nat) (x : Pair) : Pair :=
  { x with caps := x.caps.map (fun (c : Nat × QpCap) => (c.1, { c.2 with unit := v.unitNow vs c.2.unit })) }

/-- Put a saved context back on the units vs. -/
def State.restoreTo (s : State) (p : Nat) (v : Saved) (vs : List Nat) : State :=
  let ctx := v.ctx.map (fun (q : Nat × Seq) => (q.1, q.2.resumed s.ptime.toNat))
  let tgt := movedTo v.units vs
  let s := v.groups.foldl (fun (s : State) g => s.setGroup g.1 g.2.1 (s.restoredGroup v g.1 g.2.2)) s
  let s := v.cores.foldl (fun (s : State) (c : Nat × Core) =>
    let un : UnitNo := BitVec.ofNat 10 (tgt c.1)
    s.setCore un (c.2.restored (s.core un))) s
  let s := v.strands.foldl (fun (s : State) (e : Nat × Strand) =>
    s.setStrand (BitVec.ofNat 10 (tgt (e.1 / 8))) (BitVec.ofNat 3 e.1) (e.2.restored (e.1 / 8) (tgt (e.1 / 8)) ctx)) s
  let s := (List.zip v.spads v.poisons).foldl (fun (s : State) (q : (Nat × Memory) × (Nat × Memory)) =>
    s.restoreSpad q.1.1 (tgt q.1.1) q.1.2 q.2.2) s
  let s := ctx.foldl (fun (s : State) (q : Nat × Seq) => s.setSeq q.1 q.2) s
  let s := vs.foldl State.resumePartner s
  let s := v.pairs.foldl (fun (s : State) (q : Nat × Pair) => s.setPair q.1 (q.2.restored (s.pairOf q.1))) s
  let s : State := { s with fabric := { s.fabric with pairs := s.fabric.pairs.map (fun (x : Nat × Pair) => (x.1, x.2.follow v vs)) } }
  let s := { s with strands := s.strands.map (fun (e : Nat × Strand) => (e.1, { e.2 with invs := e.2.invs.map (InvWait.follow v.units vs) })) }
  let x := s.partOf p
  let saved := x.saved.erase v
  s.setPart p { x with saved := saved
                       tensors := x.tensors.map (fun (n : Nat × Tensor) => (n.1, n.2.follow v vs))
                       launches := x.launches.map (fun (l : Launch) =>
                         if l.ticket == v.ticket then { l with saved := saved.any (fun y => y.ticket == v.ticket) } else l) }

/-- RESTORE: the instances of a launch that were saved first, or the rule strands, whole, on the units of `place`. -/
def evRestore (p : PartNo) (ticket : BitVec 64) (place : List UnitNo) (s : State) : State :=
  let x := s.partOf p.toNat
  match x.saved.find? (fun v => v.ticket == ticket) with
  | some v =>
    let vs := place.map (fun (u : UnitNo) => u.toNat)
    if (s.freeSaved v.units).restoreOk p.toNat (x.findLaunch ticket) v vs then s.restoreTo p.toNat v vs else s
  | none => s

end Sys2Proof.Machine
end

