-- ==== Sys2Proof/Machine/Pairs.lean ====
section
/-! DEFINITION. Queue pairs by themselves (R400 to R411): entries fire, transfers arrive and take effect at
the peer, and entries retire. -/

namespace Sys2Proof.Machine

/-! ### Statuses (Tables 21-4, 22-3) -/

def qsOk : Byte := 0x00
def qsXlate : Byte := 0x02
def qsPoisoned : Byte := 0x03
def qsSkipped : Byte := 0x04
def qsBadEntry : Byte := 0x24
def qsPeerRefused : Byte := 0x25
def qsBadRecord : Byte := 0x26
def qsLinkLost : Byte := 0x27
def qsPnFull : Byte := 0x28
def qsPnBad : Byte := 0x29

/-! ### Answers -/

/-- The address of a pair of this module. -/
def State.pairAddr (s : State) (no : Nat) : PairAddr :=
  ⟨s.fabric.modnum, BitVec.ofNat 4 (no / 64), BitVec.ofNat 6 no⟩

def PairAddr.no (a : PairAddr) : Nat := 64 * a.forager.toNat + a.pair.toNat

/-- Entry n of a pair of this module has its status. -/
def State.setEntry (s : State) (no : Nat) (n : W64) (st : Byte) : State :=
  let p := s.pairOf no
  s.setPair no { p with out := p.out.map (fun (o : QpOut) =>
    if o.n == n && o.status.isNone then { o with status := some st } else o) }

/-- The peer answers for entry n of the sending pair (R410). -/
def State.ackEntry (s : State) (from_ : Nat) (src : PairAddr) (n : W64) (st : Byte) : State :=
  if src.mdl = s.fabric.modnum then s.setEntry (PairAddr.no src) n st
  else s.postTo (4 * (from_ / 256)) src.mdl.toNat typeResp (.entryAck src n st)

/-! ### Firing (R401, R404) -/

/-- The module's pairs of this partition do not fire while it is saved (R417). -/
def Part.isSaved (x : Part) : Bool := !x.saved.isEmpty || x.stopRules.isSome || x.launches.any (fun l => l.stopping)

/-- The QPOST's release has taken effect; not while the strand that posted it is saved. -/
def State.postReleased (s : State) (c : QpCap) : Bool :=
  c.unit < 1024 && !(s.strand (BitVec.ofNat 10 c.unit) (BitVec.ofNat 3 c.strand)).pendingUpTo c.seq

def Pair.cap (p : Pair) (n : Nat) : QpCap := Table.get ⟨true, 0, 0, 0, 0⟩ p.caps n

/-- The words of entry n in its ring slot. -/
def State.entryWords (s : State) (no n : Nat) : Entry := BitVec.ofNat 512 (s.readNat ((s.pairOf no).slotKey no n) 64)

/-- Every condition of R401 but ERR = 0 holds for the pair's next entry. -/
def State.canFire (s : State) (no : Nat) : Bool :=
  let p := s.pairOf no
  let n := p.fired.toNat + 1
  let e := s.entryWords no n
  s.pairValid no && !p.frozen && n ≤ p.armlim.toNat && n ≤ p.posted.toNat && p.out.length < 8
  && e.athr ≤ (s.counter e.acnt).toNat && !(s.partOf (s.pairPart no)).isSaved && s.postReleased (p.cap n)

/-- BAD-ENTRY of a firing entry (R404). -/
def Entry.bad (e : Entry) : Bool :=
  e.len % 32 != 0 || e.len == 0 || e.src.toNat % 32 != 0 || e.dst.toNat % 32 != 0
  || (e.kind == 2 && e.op == 3 && e.len % 288 != 0)

/-- The combine of an entry is ordered (R407). -/
def Entry.ordered (e : Entry) (mode : Nat) : Bool := e.kind == 2 && (e.ord || mode == 0)

/-- The pieces of a transfer of `len` bytes. -/
def pieceNos (len : Nat) : List Nat := List.range (len / 32)

/-- The pieces that had been sent when poison ended a WRITE or an unordered combine: some of those before
and after it that hold none (R404, DESIGN CHOICE, log entry 18). -/
def sentPieces (tick : Nat) (bad : List Bool) : List Nat :=
  (List.range (bad.length / 32)).filter (fun k => !(((bad.drop (32 * k)).take 32).any id) && Config.pieceDone tick k)

/-- A transfer reaches pair `dst` of this module. -/
def State.arriveWhole (s : State) (dst : Nat) (a : Arrival) : State :=
  let q := s.pairOf dst
  s.setPair dst { q with arrivals := q.arrivals ++ [a] }

/-- The messages that carry a transfer to another module, 128 bytes each (DESIGN CHOICE, log entry 22). -/
def transferMsgs (src dst : PairAddr) (n : W64) (e : Entry) (data : List Byte) : Nat → Nat → List FabMsg
  | 0, _ => []
  | fuel + 1, off =>
    if data.length ≤ off then []
    else .piece src dst n e off ((data.drop off).take 128) (data.length ≤ off + 128) ::
      transferMsgs src dst n e data fuel (off + 128)

/-- The port runs in Ethernet mode, and the module has power and is past its boot (R395, R436, R437). -/
def State.ethUp (s : State) (port : Nat) : Bool :=
  s.isUp && field (Table.get 0 s.fabric.pcfg port) 1 0 == 2 && Table.get false s.fabric.portUp port

/-- Send a whole transfer of the pair. A message for a port that runs no Ethernet is not sent, and its entry is lost
(R395, R411). -/
def State.sendTransfer (s : State) (no : Nat) (n : W64) (e : Entry) (data : List Byte) (todo : List Nat) (st : Byte) : State :=
  let p := s.pairOf no
  match p.mode with
  | 0 => s.arriveWhole p.peerNo { src := s.pairAddr no, n := n, words := e, data := data, todo := todo, checked := false
                                  status := st, partialIn := false }
  | 1 =>
    let dst : PairAddr := ⟨BitVec.ofNat 6 p.peerModule, BitVec.ofNat 4 (p.peerNo / 64), BitVec.ofNat 6 p.peerNo⟩
    let port := 4 * (no / 256) + field p.cfg 34 33
    (transferMsgs (s.pairAddr no) dst n e data (data.length / 128 + 1) 0).foldl (fun (s : State) m =>
      s.postTo port p.peerModule typeData m) s
  | _ =>
    -- one message on the pair's delivery context, through a port that runs Ethernet
    let port := 4 * (no / 256) + field p.cfg 34 33
    if !s.ethUp port then s else
    { s with fabric := { s.fabric with ethOut := s.fabric.ethOut ++ [.message port (field p.cfg 32 19) no n e.dst data] } }

/-- Room for a transfer toward the peer module (R383). -/
def State.pairFull (s : State) (no : Nat) : Bool :=
  let p := s.pairOf no
  p.mode == 1 && s.fabric.room (4 * (no / 256) + field p.cfg 34 33) p.peerModule == 0

/-- Entry n has fired, or retires with a status that is already known. -/
def State.outEntry (s : State) (no : Nat) (n : W64) (e : Entry) (st : Option Byte) : State :=
  let p := s.pairOf no
  s.setPair no { p with fired := n, out := p.out ++ [{ n := n, words := e, at_ := s.ptime, status := st }] }

/-- The source of the next entry is translated by a walk that waits for an eviction (R297). -/
def State.entryWalkWaits (s : State) (no : Nat) : Bool :=
  let p := s.pairOf no
  let n := p.fired.toNat + 1
  let e := s.entryWords no n
  let c := p.cap n
  !p.err.getLsbD 0 && (piecesOf e.src e.len).any (fun x => s.pieceWaits ⟨pairUnit no, s.pairPart no, c.sup, c.pkr⟩ x.1)

/-- The source of a firing entry, at the segments of its hits: none where it has to wait, in a state that has asked for
far bytes; else its bytes, or the status POISONED of far bytes that failed (R380; DESIGN CHOICE, log entry 11). -/
def State.entrySource (s s1 : State) (no : Nat) (va : W64) (hs : List (Hit × Nat)) : Except (Option Byte) (List Byte) × State :=
  let u := pairUnit no
  let mark := pairMark (no % 64)
  if s1.readWaits (hitSegs hs) then (.error none, s)
  else match s1.reachFar u (hitSegs hs) va with
    | (.error e, s2) =>
      if e.status = stWait then
        (.error none, s.waitStart u (BitVec.ofNat 3 (field (s.pairOf no).cfg 34 33)) mark (s2.core u).reach)
      else (.error (some qsPoisoned), s2.endReach u mark)
    | (.ok _, s2) =>
      let s3 := s2.noteDirect u hs
      (.ok ((segKeys (hitSegs hs)).map (s3.engByte u)), s3.endReach u mark)

/-- ENTRY_FIRE: the pair's next entry fires, or retires SKIPPED while ERR = 1 (R411). -/
def evEntryFire (r : PairRef) (s : State) : State :=
  let no := PairRef.no r
  let p := s.pairOf no
  let n := p.fired + 1
  let e := s.entryWords no n.toNat
  if !s.canFire no || s.pairFull no || s.entryWalkWaits no then s
  else if p.err.getLsbD 0 then s.outEntry no n e (some qsSkipped)
  else
    let c := p.cap n.toNat
    let u := pairUnit no
    let s0 := s.setCore u { s.core u with reach := some ⟨pairMark (no % 64), [], [], []⟩ }
    match s0.translateRange ⟨u, s.pairPart no, c.sup, c.pkr⟩ .read .demand (piecesOf e.src e.len) with
    | (.error _, s1) => (s1.endReach u (pairMark (no % 64))).outEntry no n e (some qsXlate)
    | (.ok hs, s1) =>
      if e.bad then (s1.endReach u (pairMark (no % 64))).outEntry no n e (some qsBadEntry) else
      match s.entrySource s1 no e.src hs with
      | (.error none, s1) => s1
      | (.error (some st), s1) => s1.outEntry no n e (some st)
      | (.ok data, s1) =>
      let keys := segKeys (hitSegs hs)
      let bad := keys.map (fun k => s1.engPoison [k])
      if bad.any id then
        let plain := e.kind == 1 || (e.kind == 2 && !e.ordered p.mode)
        let todo := if plain then sentPieces s1.tick bad else []
        let s2 := { s1 with tick := s1.tick + 1 }
        if plain && p.mode == 0 then (s2.outEntry no n e none).sendTransfer no n e data todo qsPoisoned
        else
          -- of a pod transfer, the pieces that were sent come without an end: nothing more happens there
          s2.outEntry no n e (some qsPoisoned)
      else (s1.outEntry no n e none).sendTransfer no n e data (pieceNos e.len) qsOk

/-! ### At the peer (R404) -/

/-- The rights of the peer pair's partition. -/
def State.pairWho (s : State) (no : Nat) : Who := ⟨pairUnit no, s.pairPart no, true, 0⟩

/-- The bytes at the peer that an entry checks: DST on, or the whole stage area. -/
def Entry.footprint (e : Entry) (ordered : Bool) : Nat := if ordered then e.len * (e.ncon + 2) + 4 * e.ncon else e.len

/-- The sending pair is the peer of pair no. -/
def State.peerIs (s : State) (no : Nat) (src : PairAddr) : Bool :=
  let p := s.pairOf no
  s.pairValid no && p.peerNo == PairAddr.no src
  && (match p.mode with
    | 0 => src.mdl == s.fabric.modnum
    | 1 => p.peerModule == src.mdl.toNat && src.mdl != s.fabric.modnum
    | _ => false)

/-- The peer's checks: none where it refuses, else the segments of the footprint. -/
def State.peerCheck (s : State) (no : Nat) (a : Arrival) : Option (List (Nat × Nat)) × State :=
  let e : Entry := a.words
  let part := s.pairPart no
  let ordered := e.ordered (s.pairOf no).mode
  if !s.peerIs no a.src || (e.dcen && s.counterPart e.dcnt != part) || (ordered && s.counterPart e.scnt != part) then (none, s)
  else match s.translateRange (s.pairWho no) .write .demand (piecesOf e.dst (e.footprint ordered)) with
    | (.error _, s1) => (none, s1)
    | (.ok hs, s1) =>
      let segs := hitSegs hs
      if segs.any (fun g => placeOf g.1 == .host || placeOf g.1 == .aperture) then (none, s1) else (some segs, s1)

/-- The first arrival of a pair that is whole and is of the kind asked for. -/
def Pair.nextArrival (p : Pair) (kind : Entry → Bool) : Option Arrival :=
  p.arrivals.find? (fun a => !a.partialIn && kind a.words)

def State.setArrival (s : State) (no : Nat) (a : Arrival) : State :=
  let p := s.pairOf no
  s.setPair no { p with arrivals := p.arrivals.map (fun b => if b.src == a.src && b.n == a.n then a else b) }

def State.dropArrival (s : State) (no : Nat) (a : Arrival) : State :=
  let p := s.pairOf no
  s.setPair no { p with arrivals := p.arrivals.filter (fun b => !(b.src == a.src && b.n == a.n)) }

/-- A transfer ends at the peer: it is answered with its status. -/
def State.endArrival (s : State) (no : Nat) (a : Arrival) (st : Byte) : State := (s.dropArrival no a).ackEntry no a.src a.n st

/-- A transfer has all its effects: DCNT is raised unless its source was poisoned (R405, R406). -/
def State.finishArrival (s : State) (no : Nat) (a : Arrival) : State :=
  let e : Entry := a.words
  let s := if e.dcen && a.status != qsPoisoned then s.raise e.dcnt 1 else s
  s.endArrival no a a.status

/-- Check an arrival before its first effect. -/
def State.checkArrival (s : State) (no : Nat) (a : Arrival) : Option Arrival × State :=
  if a.checked then (some a, s)
  else match s.peerCheck no a with
    | (none, s1) => (none, s1.endArrival no a qsPeerRefused)
    | (some _, s1) => (some { a with checked := true }, s1.setArrival no { a with checked := true })

/-- The keys of n bytes at a virtual address of the peer's tree. -/
def State.peerKeys (s : State) (no : Nat) (va : W64) (n : Nat) : Option (List Nat) × State :=
  match s.translateRange (s.pairWho no) .write .demand (piecesOf va n) with
  | (.ok hs, s1) => (some (segKeys (hitSegs hs)), s1)
  | (.error _, s1) => (none, s1)

/-- Bytes of partition p's tree at va become visible at package scope, written by unit u. -/
def State.placeAs (s : State) (u : UnitNo) (p : Nat) (va : W64) (cells : List (Nat × Byte)) : State :=
  let far := cells.filter (fun c => isFar c.1)
  (s.farStores ⟨u, 0, 0, p, va⟩ (runsOf far)).makeVisible u cells []

/-- Bytes of the peer's memory become visible. -/
def State.placeBytes (s : State) (no : Nat) (va : W64) (cells : List (Nat × Byte)) : State :=
  s.placeAs (pairUnit no) (s.pairPart no) va cells

/-- Take piece k off an arrival; the last one ends it. -/
def State.tookPiece (s : State) (no : Nat) (a : Arrival) (k : Nat) : State :=
  let a : Arrival := { a with todo := a.todo.filter (· != k) }
  if a.todo.isEmpty then s.finishArrival no a else s.setArrival no a

/-- WRITE: one 32-byte piece is placed at the peer (R405). -/
def evWrite (r : PairRef) (piece : Nat) (s : State) : State :=
  let no := PairRef.no r
  match (s.pairOf no).nextArrival (fun e => e.kind == 1) with
  | none => s
  | some a => match s.checkArrival no a with
    | (none, s1) => s1
    | (some a, s1) =>
      if a.todo.isEmpty then s1.finishArrival no a
      else if !a.todo.contains piece then s1
      else
        let va := Entry.dst a.words + BitVec.ofNat 64 (32 * piece)
        match s1.peerKeys no va 32 with
        | (none, s2) => s2.endArrival no a qsPeerRefused
        | (some ks, s2) =>
          if ks.any s2.writeHeld || s2.farFull (pairUnit no) 0 (flitStarts ks) then s2
          else if ks.any s2.homeLost then s2.endArrival no a qsPoisoned
          else (s2.placeBytes no va (cellsOf ks ((a.data.drop (32 * piece)).take 32))).tookPiece no a piece

/-! ### Operators (R408, R409) -/

/-- What a combine rounds and flushes under. -/
structure CombineBy where
  op : Nat
  ty : Nat
  mode : Mode
  ftz : Bool
  deriving DecidableEq, Repr

def combineBy (op ty rm : Nat) (ftz : Bool) : CombineBy := ⟨op, ty, mkMode (BitVec.ofNat 3 rm) 0 0 0, ftz⟩
def Entry.by (e : Entry) : CombineBy := combineBy e.op e.ty e.rm e.ftz

/-- The bytes of an element: a record for PMRG. -/
def CombineBy.bytes (b : CombineBy) : Nat := if b.op = 3 then 288 else if b.ty = 2 then 2 else 4

/-- A polynomial record as an accumulator (R239). -/
def accOfRecord (d : List Byte) : PpAcc :=
  let coefs := packRow 32 ((List.range 64).map (fun k => numAt d (4 * k) 4))
  PpAcc.reset.load coefs (BitVec.ofNat 32 (numAt d 256 4)) (BitVec.ofNat 32 (numAt d 260 4))

def recordOfAcc (a : PpAcc) : List Byte :=
  (List.range 64).flatMap (fun k => toBytes 4 (a.coef k).toNat) ++ toBytes 4 a.scl.toNat ++ toBytes 4 a.status.toNat
    ++ List.replicate 24 0

/-- A bad record (R409), aside from its alignment. -/
def recordBad (d : List Byte) : Bool :=
  let st := numAt d 260 4
  (d.drop 264).any (· != 0) || st / 64 % 4 != 0 || 2 ^ 12 ≤ st

/-- The record that stands in for a bad one: NaN coefficients and the degree of the other. -/
def standIn (deg : BitVec 6) : PpAcc :=
  { PpAcc.reset with c := (List.range (deg.toNat + 1)).map (fun k => (k, 0x7FC00000)), deg := deg, nan := true }

/-- Op of two records. -/
def mergeRecords (b : CombineBy) (l r : List Byte) : List Byte :=
  let lb := recordBad l
  let rb := recordBad r
  let deg (d : List Byte) : BitVec 6 := BitVec.ofNat 6 (numAt d 260 4)
  let x := if lb then standIn (if rb then 63 else deg r) else accOfRecord l
  let y := if rb then standIn (if lb then 63 else deg l) else accOfRecord r
  recordOfAcc (x.merge y (fun _ => b.mode) b.ftz)

/-- Op of two elements as numbers. -/
def combineElem (b : CombineBy) (l r : Nat) : Nat :=
  let f := fmtOf b.ty
  if b.ty = 8 || b.ty = 9 then
    let t : ITy := ⟨32, b.ty == 8⟩
    match b.op with
    | 0 => (l + r) % 2 ^ 32
    | 1 => t.bits (max (t.read l) (t.read r))
    | _ => t.bits (min (t.read l) (t.read r))
  else match b.op with
    | 0 => faddElem f b.mode b.ftz false l r
    | 1 => f.select true b.ftz l r
    | _ => f.select false b.ftz l r

/-- Op of two byte strings of one length. -/
def combineBytes (b : CombineBy) : Nat → List Byte → List Byte → List Byte
  | 0, _, _ => []
  | n + 1, l, r =>
    if l.isEmpty then []
    else
      let w := b.bytes
      (if b.op = 3 then mergeRecords b (l.take w) (r.take w)
       else toBytes w (combineElem b (leNat (l.take w)) (leNat (r.take w))))
      ++ combineBytes b n (l.drop w) (r.drop w)

/-- The records of a contribution that are bad, as numbers. -/
def badRecords (d : List Byte) : Bool := (List.range (d.length / 288)).any (fun k => recordBad ((d.drop (288 * k)).take 288))

/-- WRED: one piece (a record for PMRG) of an unordered combine (R406). -/
def evWred (r : PairRef) (piece : Nat) (s : State) : State :=
  let no := PairRef.no r
  let mode := (s.pairOf no).mode
  match (s.pairOf no).nextArrival (fun e => e.kind == 2 && !e.ordered mode) with
  | none => s
  | some a => match s.checkArrival no a with
    | (none, s1) => s1
    | (some a, s1) =>
      let e : Entry := a.words
      let w := if e.op = 3 then 288 else 32
      let todo := if e.op = 3 then a.todo.filter (· < e.len / 288) else a.todo
      let a : Arrival := { a with todo := todo }
      if todo.isEmpty then s1.finishArrival no a
      else if !todo.contains piece then s1
      else
        let va := e.dst + BitVec.ofNat 64 (w * piece)
        match s1.peerKeys no va w with
        | (none, s2) => s2.endArrival no a qsPeerRefused
        | (some ks, s2) =>
          if ks.any s2.writeHeld || s2.farFull (pairUnit no) 0 (flitStarts ks) then s2
          else if ks.any s2.homeLost then s2.endArrival no a qsPoisoned
          else if s2.engPoison ks then
            -- poison at the home stays (as for a posted atomic, R132)
            (s2.routeFault (s2.pairPart no) clsMemory 0 0 va (pairUnit no) 0).tookPiece no a piece
          else
            let old := ks.map (s2.engByte (pairUnit no))
            let x := (a.data.drop (w * piece)).take w
            let bad := e.op == 3 && (recordBad old || recordBad x)
            let a : Arrival := { a with status := if bad then qsBadRecord else a.status }
            (s2.placeBytes no va (cellsOf ks (combineBytes e.by 72 old x))).tookPiece no a piece

/-! ### Ordered combines (R407) -/

/-- A rank word. -/
def rankWord (e : Entry) : Nat :=
  e.rank + e.rm * 2 ^ 16 + e.ftz.toNat * 2 ^ 19 + e.op * 2 ^ 20 + e.ty * 2 ^ 24

/-- One level of the fixed tree. -/
def pairUp (b : CombineBy) : List (List Byte) → List (List Byte)
  | x :: y :: rest => combineBytes b (x.length + 1) x y :: pairUp b rest
  | l => l

/-- The fixed tree over a round's contributions. -/
def treeUp (b : CombineBy) : Nat → List (List Byte) → List Byte
  | 0, l => l.headD []
  | n + 1, l => match l with
    | [x] => x
    | l => treeUp b n (pairUp b l)

/-- Put (rank, slot) pairs in ascending order. -/
def insertRank (x : Nat × Nat) : List (Nat × Nat) → List (Nat × Nat)
  | [] => [x]
  | y :: rest => if x.1 < y.1 || (x.1 == y.1 && x.2 ≤ y.2) then x :: y :: rest else y :: insertRank x rest

/-- The bytes of the stage area, from DST on. -/
def State.stageBytes (s : State) (no : Nat) (keys : List Nat) (off n : Nat) : List Byte :=
  ((keys.drop off).take n).map (s.engByte (pairUnit no))

/-- Combine a full round and write its result. -/
def State.combineRound (s : State) (no : Nat) (e : Entry) (keys : List Nat) : State :=
  let word (k : Nat) : Nat := leNat (s.stageBytes no keys (e.len * (e.ncon + 2) + 4 * k) 4)
  let order := (List.range e.ncon).foldl (fun l k => insertRank (word k % 2 ^ 16, k) l) []
  let w := word ((order.map Prod.snd).headD 0)
  let b := combineBy (w / 2 ^ 20 % 16) (w / 2 ^ 24 % 16) (w / 2 ^ 16 % 8) (w.testBit 19)
  let xs := order.map (fun p => s.stageBytes no keys (e.len * (1 + p.2)) e.len)
  s.placeBytes no e.dst (cellsOf keys (treeUp b 10 xs))

/-- A contribution is staged: it is acknowledged when its round has been combined (DEDUCED, log entry 76). -/
def State.stage (s : State) (no scnt : Nat) (a : Arrival) (st : Byte) : State :=
  let s := s.dropArrival no a
  { s with fabric := { s.fabric with staged := s.fabric.staged ++ [⟨scnt, no, a.src, a.n, st⟩] } }

/-- The round of a stage counter has been combined: its contributions are acknowledged. -/
def State.ackRound (s : State) (scnt : Nat) : State :=
  let mine := s.fabric.staged.filter (fun x => x.scnt == scnt)
  let s : State := { s with fabric := { s.fabric with staged := s.fabric.staged.filter (fun x => x.scnt != scnt) } }
  mine.foldl (fun (s : State) x => s.ackEntry x.pair x.src x.n x.status) s

/-- ORDERED_COMBINE: a contribution is staged, and the last of a round combines it. -/
def evOrderedCombine (r : PairRef) (s : State) : State :=
  let no := PairRef.no r
  let mode := (s.pairOf no).mode
  match (s.pairOf no).nextArrival (fun e => e.ordered mode) with
  | none => s
  | some a => match s.checkArrival no a with
    | (none, s1) => s1
    | (some a, s1) =>
      let e : Entry := a.words
      match s1.peerKeys no e.dst (e.footprint true) with
      | (none, s2) => s2.endArrival no a qsPeerRefused
      | (some keys, s2) =>
        if keys.any s2.writeHeld || s2.farWaits (pairUnit no) 0 (flitStarts keys) then s2
        else if keys.any s2.homeLost then s2.endArrival no a qsPoisoned
        else
          let k := (s2.counter e.scnt).toNat % e.ncon
          let data := cellsOf ((keys.drop (e.len * (1 + k))).take e.len) a.data
          let word := cellsOf ((keys.drop (e.len * (e.ncon + 2) + 4 * k)).take 4) (toBytes 4 (rankWord e))
          let s3 := (s2.placeBytes no e.dst (data ++ word)).raise e.scnt 1
          let full := (s3.counter e.scnt).toNat % e.ncon = 0
          let s4 := s3.stage no e.scnt a (if e.op = 3 && badRecords a.data then qsBadRecord else qsOk)
          if !full then s4
          else
            let s5 := s4.combineRound no e keys
            (if e.dcen then s5.raise e.dcnt 1 else s5).ackRound e.scnt

/-! ### Retirement (R401, R411) -/

/-- The QP fault of an entry. -/
def State.entryFault (s : State) (no : Nat) (c : QpCap) (n : W64) (st : Byte) : State :=
  s.routeFault (s.pairPart no) clsQp st.toNat (no / 64 + no % 64 * 2 ^ 4 + n.toNat % 2 ^ 38 * 2 ^ 10) 0
    (BitVec.ofNat 10 c.unit) (BitVec.ofNat 3 c.strand)

/-- ENTRY_RETIRE: the oldest fired entry, once its status is known. -/
def evEntryRetire (r : PairRef) (s : State) : State :=
  let no := PairRef.no r
  let p := s.pairOf no
  match p.out with
  | [] => s
  | o :: rest => match o.status with
    | none => s
    | some st =>
      let e : Entry := o.words
      let c := p.cap o.n.toNat
      let fails := st != qsOk && st != qsSkipped
      let err := if fails && !p.err.getLsbD 0 then BitVec.ofNat 64 (1 + st.toNat * 2 ^ 8 + o.n.toNat % 2 ^ 48 * 2 ^ 16) else p.err
      let s := s.writeNat (p.slotKey no o.n.toNat + 63) 1 st.toNat
      let s := s.setPair no { p with out := rest, retired := o.n, err := err, caps := Table.erase o.n.toNat p.caps }
      let s := if e.lcen then s.raise e.lcnt 1 else s
      if fails then s.entryFault no c o.n st else s

/-- ENTRY_ACK_TIMEOUT: no acknowledgement 100 us after the entry fired, on a pair of any mode. -/
def evEntryAckTimeout (r : PairRef) (n : BitVec 64) (s : State) : State :=
  let no := PairRef.no r
  let p := s.pairOf no
  if p.out.any (fun (o : QpOut) => o.n == n && o.status.isNone && o.at_.toNat + 100000 < s.ptime.toNat) then
    s.setEntry no n qsLinkLost
  else s

/-- A link went down: the entries fired over it and not acknowledged are lost (R411). -/
def State.loseEntries (s : State) (e hop : Nat) : State :=
  (List.range 256).foldl (fun (s : State) i =>
    let no := 256 * e + i
    let p := s.pairOf no
    if p.mode == 1 && s.hopOf e p.peerModule == hop then
      s.setPair no { p with out := p.out.map (fun (o : QpOut) => if o.status.isNone then { o with status := some qsLinkLost } else o) }
    else s) s

/-- A piece of a transfer from another module has come (R405 to R407, R420). -/
def State.pieceCame (s : State) (src dst : PairAddr) (n : W64) (e : Entry) (off : Nat) (data : List Byte) (last : Bool) : State :=
  let no := PairAddr.no dst
  let p := s.pairOf no
  let old := p.arrivals.filter (fun a => !(a.src == src && a.partialIn && a.n != n))
  let p : Pair := { p with arrivals := old }
  match p.arrivals.find? (fun a => a.src == src && a.n == n) with
  | none =>
    if off ≠ 0 then s.setPair no p
    else
      let a : Arrival := { src := src, n := n, words := e, data := data, todo := pieceNos e.len, checked := false
                           status := qsOk, partialIn := !last }
      s.setPair no { p with arrivals := old ++ [a] }
  | some a =>
    s.setPair no { p with arrivals := old.map (fun b =>
      if b.src == src && b.n == n then { a with data := a.data ++ data, partialIn := !last } else b) }

end Sys2Proof.Machine
end

