-- ==== Sys2Proof/Machine/ParamEvents.lean ====
section
/-! DEFINITION. Parameter nodes by themselves (R418 to R431): intake, classification, the update rule,
commits, returns, reports, deadlines and mirroring. -/

namespace Sys2Proof.Machine

/-! ### The descriptor (Table 22-1) -/

def sext57 (v : Nat) : W64 := BitVec.signExtend 64 (BitVec.ofNat 57 v)

def Tensor.rf (t : Tensor) : Bool := bit (t.word 0) 3
def Tensor.holdmax (t : Tensor) : Nat := field (t.word 0) 24 21
def Tensor.expect (t : Tensor) : Nat := field (t.word 0) 40 25
/-- The address in word k. -/
def Tensor.va (t : Tensor) (k : Nat) : W64 := sext57 (t.word k).toNat
def Tensor.start (t : Tensor) : BitVec 48 := (t.word 7).setWidth 48
def Tensor.dln (t : Tensor) : Nat := field (t.word 8) 31 0
def Tensor.tfail (t : Tensor) : Nat := field (t.word 8) 63 32
def Tensor.pmod (t : Tensor) : Nat := field (t.word 9) 5 0
def Tensor.ppart (t : Tensor) : Nat := field (t.word 9) 10 6
def Tensor.pten (t : Tensor) : Nat := field (t.word 9) 18 11
/-- The intake pair. -/
def Tensor.intake (t : Tensor) : Nat := 64 * field (t.word 9) 22 19 + field (t.word 9) 28 23
def Tensor.nwork (t : Tensor) : Nat := field (t.word 9) 34 29 + 1
def Tensor.rcnt (t : Tensor) : BitVec 14 := BitVec.ofNat 14 (field (t.word 9) 48 35)
def Tensor.wten (t : Tensor) : Nat := field (t.word 9) 56 49

/-- The bytes of an intake slot, and its address. -/
def Tensor.slotBytes (t : Tensor) : Nat := 32 * ((32 + 4 * t.eblk + 31) / 32)
def Tensor.slotVa (t : Tensor) (k : Nat) : W64 := t.va 2 + BitVec.ofNat 64 (k * t.slotBytes)

/-- Part k of block b in bank j (R418). -/
def Tensor.partVa (t : Tensor) (j : Bool) (k b : Nat) : W64 :=
  t.va 1 + BitVec.ofNat 64 (j.toNat * 12 * t.nblk * t.eblk + (k * t.nblk + b) * 4 * t.eblk)

/-- The node has a mirror (Table 22-1). -/
def State.mirrored (s : State) (t : Tensor) : Bool := t.pmod != s.fabric.modnum.toNat

/-- The engine and port of the node's messages: those of its intake forager, port 0 (DESIGN CHOICE, log entry 22). -/
def Tensor.outPort (t : Tensor) : Nat := 4 * (t.intake / 256)

/-! ### Gradient blocks (Table 22-2) -/

abbrev PnHeader := BitVec 256

def PnHeader.tensor (h : PnHeader) : Nat := field h 7 0
def PnHeader.block (h : PnHeader) : Nat := field h 25 16
def PnHeader.ncontrib (h : PnHeader) : Nat := field h 47 32
def PnHeader.otag (h : PnHeader) : BitVec 16 := BitVec.ofNat 16 (field h 63 48)
def PnHeader.step (h : PnHeader) : BitVec 48 := BitVec.ofNat 48 (field h 111 64)
def PnHeader.gf (h : PnHeader) : Bool := bit h 112
def PnHeader.reservedOk (h : PnHeader) : Bool := field h 15 8 == 0 && field h 31 26 == 0 && field h 255 113 == 0

/-! ### Writing at a worker (R424, R426) -/

/-- Bytes off to off + n of `total` bytes at va of partition p's tree are written, with supervisor rights;
counter c rises with the last. Answers a failing status. -/
def State.placeAt (s : State) (p : Nat) (va : W64) (total off : Nat) (data : List Byte) (c : Nat) : Byte × State :=
  if s.counterPart c != p then (qsPeerRefused, s)
  else match s.translateRange (hiveWho p) .write .demand (piecesOf va total) with
    | (.error _, s1) => (qsPeerRefused, s1)
    | (.ok hs, s1) =>
      let keys := segKeys (hitSegs hs)
      if keys.any (fun k => placeOf k == .host || placeOf k == .aperture) then (qsPeerRefused, s1)
      else if keys.any s1.homeLost then (qsPoisoned, s1)
      else
        let last := decide (total ≤ off + data.length)
        let cells := cellsOf (keys.drop off) data
        -- at a page on the move it waits, and its counter with it (R279)
        if keys.any s1.writeHeld then (qsOk, s1.holdWrite 512 cells (if last then some c else none))
        else
          let s2 := s1.placeAs 512 p va cells
          (qsOk, if last then s2.raise c 1 else s2)

/-- A return or report that could not be placed routes class QP at the node (R425). -/
def State.placeFault (s : State) (p : Nat) (t : Tensor) (st : Byte) : State :=
  s.routeFault p clsQp st.toNat (t.intake / 64 + t.intake % 64 * 2 ^ 4) 0 0 0

/-- The messages that carry written bytes to another module, 128 bytes each. -/
def placeMsgs (p n id : Nat) (tgt : Nat) (va : W64) (data : List Byte) (c : Nat) : Nat → Nat → List FabMsg
  | 0, _ => []
  | fuel + 1, off =>
    if data.length ≤ off then []
    else .place (BitVec.ofNat 5 p) (BitVec.ofNat 8 n) id (BitVec.ofNat 5 tgt) va data.length off ((data.drop off).take 128)
        (BitVec.ofNat 14 c) :: placeMsgs p n id tgt va data c fuel (off + 128)

/-- One WRITE of tensor n of partition p to a worker (R405, R424). -/
def State.writeWorker (s : State) (p n mdl tgt : Nat) (va : W64) (data : List Byte) (c : Nat) : State :=
  let t := s.tensor p n
  if mdl = s.fabric.modnum.toNat then
    match s.placeAt tgt va data.length 0 data c with
    | (st, s1) => if st = qsOk then s1 else s1.placeFault p t st
  else
    -- it is outstanding until the worker's module acknowledges it
    let id := s.fabric.nextReq
    let s := s.setTensor p n { t with sends := t.sends ++ [⟨id, t.outPort / 4, mdl, s.ptime⟩] }
    let s : State := { s with fabric := { s.fabric with nextReq := id + 1 } }
    (placeMsgs p n id tgt va data c (data.length / 128 + 1) 0).foldl (fun (s : State) m =>
      s.postTo t.outPort mdl typeData m) s

/-- A WRITE under way to a worker of another module ends with a status: one fault where it failed (R425). -/
def State.sendDone (s : State) (p n id : Nat) (st : Byte) : State :=
  let t := s.tensor p n
  if !t.sends.any (fun x => x.id == id) then s
  else
    let s := s.setTensor p n { t with sends := t.sends.filter (fun x => x.id != id) }
    if st = qsOk then s else s.placeFault p t st

/-- The WRITEs of every tensor of which `f` holds are lost (R425, Table 21-4). -/
def State.loseSends (s : State) (f : PnSend → Bool) : State :=
  (s.parts.flatMap (fun (x : Nat × Part) => x.2.tensors.flatMap (fun (t : Nat × Tensor) =>
    (t.2.sends.filter f).map (fun y => (x.1, t.1, y.id))))).foldl (fun (s : State) q => s.sendDone q.1 q.2.1 q.2.2 qsLinkLost) s

/-- Entry i of the worker list: module, partition, counter and RVA (R425). -/
def State.worker (s : State) (p : Nat) (t : Tensor) (i : Nat) : Option (Nat × Nat × Nat × W64) × State :=
  match s.hiveRead (hiveWho p) (t.va 5 + BitVec.ofNat 64 (16 * i)) 16 with
  | (none, s1) => (none, s1)
  | (some b, s1) =>
    let w := numAt b 0 8
    (some (w % 64, w / 64 % 32, w / 2048 % 2 ^ 14, sext57 (numAt b 8 8)), s1)

/-! ### Returns (R424) -/

/-- A group of 32 weights as E4M3 with its scale byte. -/
def e4m3Group (vs : List FV) : List Byte × Byte :=
  if vs.any FV.isNan then (vs.map (fun _ => 0x7F), 0xFF)
  else
    let m := vs.foldl magMax (.fin false 0 0)
    let e0 : Int := if m.isZero then 0 else m.log2 - 8
    let e := max (-127) (min 127 e0)
    (vs.map (fun v => BitVec.ofNat 8 (e4m3.roundTo .rne true false (v.scale (-e)))), BitVec.ofInt 8 (e + 127))

/-- The payload of a return, from the FP32 weights. -/
def payloadOf (rf : Bool) (ws : List Nat) : List Byte :=
  if !rf then ws.flatMap (fun w => toBytes 2 (bf16.roundTo .rne false false (f32.decode w)))
  else
    let groups := (List.range (ws.length / 32)).map (fun k => e4m3Group (((ws.drop (32 * k)).take 32).map f32.decode))
    groups.flatMap Prod.fst ++ groups.map Prod.snd

/-- SRC of a return or report: 1 for a secondary that acts, and for a primary that was secondary (R428, R431). -/
def Tensor.srcBit (t : Tensor) : Bool := t.src || t.role == 2

/-- Why n bytes at a virtual address cannot be read as the source of an entry (R404): the page does not translate, or
they are poisoned. -/
def State.sourceStatus (s : State) (w : Who) (va : W64) (n : Nat) : Byte :=
  match (s.translateRange w .read .quiet (piecesOf va n)).1 with
  | .ok hs => if s.engPoison (segKeys (hitSegs hs)) then qsPoisoned else qsOk
  | .error _ => qsXlate

/-- The return of block b: STATUS and the committed weights, with the status of their reading. -/
def State.returnOf (s : State) (p n b : Nat) (status : Byte) : (Byte × List Byte) × State :=
  let t := s.tensor p n
  let x := t.block b
  let st := s.sourceStatus (hiveWho p) (t.partVa x.bank 0 b) (4 * t.eblk)
  let (w, s1) := s.hiveRead (hiveWho p) (t.partVa x.bank 0 b) (4 * t.eblk)
  let d := w.getD []
  let ws := (List.range t.eblk).map (fun i => numAt d (4 * i) 4)
  let word0 := t.wten + b % 1024 * 2 ^ 8 + status.toNat * 2 ^ 24 + t.srcBit.toNat * 2 ^ 32 + t.rf.toNat * 2 ^ 33
    + x.otag.toNat * 2 ^ 48
  ((st, toBytes 8 word0 ++ toBytes 8 x.last.toNat ++ List.replicate 16 0 ++ payloadOf t.rf ws), s1)

/-- Write a return to every worker. Where the weights could not be read nothing is sent, and each WRITE retires with that
status (R404, R425). -/
def State.sendReturn (s : State) (p n b : Nat) (st : Byte) (data : List Byte) : State :=
  let t := s.tensor p n
  let stride := 32 * ((data.length + 31) / 32)
  (List.range t.nwork).foldl (fun (s : State) i =>
    if st != qsOk then s.placeFault p t st
    else match s.worker p t i with
    | (none, s1) => s1.placeFault p t qsXlate
    | (some (m, tgt, c, rva), s1) => s1.writeWorker p n m tgt (rva + BitVec.ofNat 64 (b * stride)) data c) s

/-- The last commit of block b that waits for its ACK. -/
def Tensor.lastWaiting (t : Tensor) (b : Nat) : Option PnCommit := (t.waiting.filter (fun c => c.block == b)).getLast?

/-- The DUP return of block b, by the acting node; one that would carry weights whose commit waits for its ACK
waits with it (R428). -/
def State.dupReturn (s : State) (p n b : Nat) : State :=
  let t := s.tensor p n
  if !t.acting then s
  else match t.lastWaiting b with
    | some c => s.setTensor p n { t with waiting := t.waiting.map (fun x => if x == c then { x with dups := x.dups + 1 } else x) }
    | none =>
      let (d, s1) := s.returnOf p n b 0x01
      s1.sendReturn p n b d.1 d.2

/-- The returns that a commit owes: its own, and the DUP returns that waited with it. -/
def State.sendCommit (s : State) (p n : Nat) (c : PnCommit) : State :=
  (List.range c.dups).foldl (fun (s : State) _ => s.sendReturn p n c.block c.status (c.data.set 3 0x01)) (s.sendReturn p n c.block c.status c.data)

/-! ### Reports (R426) -/

def repAhead : Nat := 1
def repMissing : Nat := 2
def repTakeover : Nat := 3
def repMirrorLost : Nat := 4
def repBad : Nat := 5
def repRuleFailed : Nat := 6

/-- Write a report; only the acting node does, but for MIRROR-LOST. -/
def State.report (s : State) (p n kind : Nat) (drop : Bool) (b : Nat) (step : BitVec 48) (bitmap : Nat) : State :=
  let t := s.tensor p n
  if !t.acting && kind ≠ repMirrorLost then s
  else
    let word0 := kind + drop.toNat * 2 ^ 8 + t.srcBit.toNat * 2 ^ 9 + t.wten * 2 ^ 10 + b % 1024 * 2 ^ 18
    let data := toBytes 8 word0 ++ toBytes 8 step.toNat ++ toBytes 8 s.ptime.toNat ++ List.replicate 8 0 ++ toBytes 128 bitmap
    let va := t.va 6 + BitVec.ofNat 64 (160 * (8 * t.half.toNat + t.reports % 8))
    let s := s.setTensor p n { t with reports := t.reports + 1 }
    match s.worker p t 0 with
    | (none, s1) => s1.placeFault p t qsXlate
    | (some (m, tgt, _, _), s1) => s1.writeWorker p n m tgt va data t.rcnt.toNat

/-- The highest LAST_b. -/
def Tensor.top (t : Tensor) : BitVec 48 := BitVec.ofNat 48 (t.lasts.foldl Nat.max 0)

/-! ### Intake (R420, R421) -/

/-- Block b of tensor n waits for a tier strand, to apply step st. -/
def State.addApply (s : State) (p n b : Nat) (st : BitVec 48) : State :=
  let x := s.partOf p
  s.setPart p { x with applies := x.applies ++ [(n, b, st)] }

/-- The first free intake slot. -/
def Tensor.freeSlot (t : Tensor) : Option Nat := (List.range 64).find? (fun k => !Table.has t.slots k)
def Tensor.freed (t : Tensor) (k : Nat) : Tensor := { t with slots := Table.erase k t.slots }

/-- The block of a header is accepted by a valid tensor from pair no. -/
def Tensor.accepts (t : Tensor) (no : Nat) (h : PnHeader) (len : Nat) : Bool :=
  h.reservedOk && t.intake == no && h.block < t.nblk && len == 32 + (if h.gf then 2 else 4) * t.eblk
  && h.ncontrib == t.expect

/-- Step s of block b is applying or held. -/
def PnBlock.has (x : PnBlock) (s : BitVec 48) : Bool :=
  (match x.applying with
    | some a => a.1 == s
    | none => false) || x.held.any (fun (p : BitVec 48 × Nat) => p.1 == s)

/-- Classify the block in slot k (R421). -/
def State.classify (s : State) (p n k : Nat) (h : PnHeader) : State :=
  let t := s.tensor p n
  let b := h.block
  let st := h.step
  let x := t.block b
  let gap := st.toNat - x.last.toNat
  if st.toNat ≤ x.last.toNat || x.has st then
    let t : Tensor := (t.freed k)
    let t : Tensor := { t with dup := satInc t.dup }
    if st.toNat ≤ x.last.toNat then (s.setTensor p n t).dupReturn p n b
    else s.setTensor p n (t.setBlock b { x with dups := x.dups ++ [st] })
  else if gap = 1 then
    (s.setTensor p n (t.setBlock b { x with applying := some (st, k) })).addApply p n b st
  else if gap ≤ 1 + t.holdmax && x.held.length < t.holdmax then
    let t : Tensor := t.setBlock b { x with held := x.held ++ [(st, k)] }
    (s.setTensor p n { t with ahead := satInc t.ahead }).report p n repAhead false b st 0
  else
    let t : Tensor := t.freed k
    (s.setTensor p n { t with ahead := satInc t.ahead }).report p n repAhead true b st 0

/-- PNB: a gradient block that has arrived whole at an intake pair (R420). -/
def evPnb (r : PairRef) (s : State) : State :=
  let no := PairRef.no r
  let p := s.pairPart no
  match (s.pairOf no).nextArrival (fun e => e.kind == 3) with
  | none => s
  | some a =>
    if !s.peerIs no a.src then s.endArrival no a qsPeerRefused
    else
      let h : PnHeader := BitVec.ofNat 256 (numAt a.data 0 32)
      let n := h.tensor
      let t := s.tensor p n
      if !t.valid then s.endArrival no a qsPnBad
      else match t.freeSlot with
        | none => s.endArrival no a qsPnFull
        | some k =>
          if !t.accepts no h a.data.length then (s.report p n repBad false h.block h.step 0).endArrival no a qsPnBad
          else if t.fenced then s.endArrival no a qsOk
          else if s.rangeHeld (hiveWho p) (t.slotVa k) a.data.length then s
          else if s.rangeLost (hiveWho p) (t.slotVa k) a.data.length then s.endArrival no a qsPoisoned
          else match s.hiveWrite (hiveWho p) (t.slotVa k) a.data with
            | (false, s1) => s1.endArrival no a qsPeerRefused
            | (true, s1) =>
              let s2 := s1.setTensor p n { t with slots := Table.set t.slots k h }
              (s2.classify p n k h).endArrival no a qsOk

/-! ### The update rule (R422) -/

/-- Table 22-4, for block b of step st in slot k. -/
def ruleStrand (t : Tensor) (n b k : Nat) (st : BitVec 48) : Strand :=
  let x := t.block b
  let h : PnHeader := Table.get 0 t.slots k
  let a : List W64 := [t.slotVa k + 32, t.partVa x.bank 0 b, t.partVa x.bank 1 b, t.partVa x.bank 2 b,
    t.partVa (!x.bank) 0 b, t.partVa (!x.bank) 1 b, t.partVa (!x.bank) 2 b, t.va 4]
  let w : List Nat := [t.eblk, st.toNat % 2 ^ 32, st.toNat / 2 ^ 32, h.gf.toNat, b, h.ncontrib, h.otag.toNat]
  let t0 : Strand := { Strand.reset with
    run := .ready
    pc := t.va 3 &&& ~~~3
    srkey := BitVec.ofNat 64 (st.toNat % 2 ^ 40 * 2 ^ 24 + n * 2 ^ 10 + b) }
  let t1 := ((List.range 8).zip a).foldl (fun (t : Strand) q => t.setA (BitVec.ofNat 6 (q.1 + 1)) q.2) t0
  ((List.range 7).zip w).foldl (fun (t : Strand) q => t.setW (BitVec.ofNat 6 (q.1 + 1)) (BitVec.ofNat 32 q.2)) t1

/-- A tier core's strand is free for a rule. -/
def State.ruleFree (s : State) (p : Nat) (u : UnitNo) (k : StrandNo) : Bool :=
  unitClass u == 2 && u.toNat < 560 && s.unitPresent u.toNat && s.unitPart u == p
  && s.strandIdle (s.strand u k) && (s.strand u k).rule.isNone && !(s.core u).stoppedEngines

/-- The waiting applies of a partition from the first on whose block still applies that step. -/
def State.livingApplies (s : State) (p : Nat) : List (Nat × Nat × BitVec 48) :=
  (s.partOf p).applies.dropWhile (fun (q : Nat × Nat × BitVec 48) =>
    !(((s.tensor p q.1).block q.2.1).applying.any (fun a => a.1 == q.2.2)))

/-- RULE_START: the first waiting apply of the partition starts on a free strand. -/
def evRuleStart (p : PartNo) (t : Byte) (b : BitVec 10) (u : UnitNo) (k : StrandNo) (s : State) : State :=
  let x := s.tensor p.toNat t.toNat
  match s.livingApplies p.toNat with
  | [] => s
  | (n, c, st) :: rest =>
    let y := x.block c
    match y.applying with
    | none => s
    | some (_, slot) =>
      if n != t.toNat || c != b.toNat || !s.ruleFree p.toNat u k then s
      else
        let r := { ruleStrand x t.toNat c slot st with rule := some (t.toNat, c) }
        let x : Tensor := (x.setBlock c { y with strand := some (u.toNat, k.toNat) })
        let s := s.setTensor p.toNat t.toNat x
        ((s.setPart p.toNat { s.partOf p.toNat with applies := rest }).setStrand u k r).makeReady u k

/-! ### Commits and failures -/

/-- A message to the peer node (R428). -/
def State.toPeer (s : State) (t : Tensor) (m : FabMsg) : State := s.postTo t.outPort t.pmod typeData m

/-- The deadline of a step is set at the node's first commit of it (R427). -/
def Tensor.setDeadline (t : Tensor) (st : BitVec 48) (now : W64) : Tensor :=
  if t.dln = 0 || t.deadlines.any (fun d => d.1 == st) then t
  else { t with deadlines := t.deadlines ++ [(st, now + BitVec.ofNat 64 t.dln, false)] }

/-- A held block of the step after the last is applied next; a FENCED primary drops it (R421, R428). -/
def State.nextHeld (s : State) (p n b : Nat) : State :=
  let t := s.tensor p n
  let x := t.block b
  match x.held.find? (fun (h : BitVec 48 × Nat) => h.1 == x.last + 1) with
  | none => s
  | some h =>
    let held := x.held.filter (fun (g : BitVec 48 × Nat) => g.1 != h.1)
    if t.fenced then s.setTensor p n ((t.setBlock b { x with held := held }).freed h.2)
    else (s.setTensor p n (t.setBlock b { x with held := held, applying := some h })).addApply p n b h.1

/-- Answer the duplicates that waited for step st of block b. -/
def State.answerDups (s : State) (p n b : Nat) (st : BitVec 48) : State :=
  let t := s.tensor p n
  let x := t.block b
  let k := (x.dups.filter (· == st)).length
  let s := s.setTensor p n (t.setBlock b { x with dups := x.dups.filter (· != st) })
  (List.range k).foldl (fun (s : State) _ => s.dupReturn p n b) s

/-- What a commit sends: the primary's NOTICE, or the return of the acting node; a commit whose NOTICE it holds is
the primary's to return (R428). -/
def State.announce (s : State) (p n b : Nat) (st : BitVec 48) : State :=
  let t := s.tensor p n
  let (d, s1) := s.returnOf p n b 0x00
  let c : PnCommit := { block := b, step := st, at_ := s.ptime, status := d.1, data := d.2, dups := 0 }
  if t.fenced then s
  else if t.acting && t.role == 1 && s.mirrored t then
    (s1.setTensor p n { t with waiting := t.waiting ++ [c] }).toPeer t
      (.notice (BitVec.ofNat 5 t.ppart) (BitVec.ofNat 8 t.pten) (BitVec.ofNat 10 b) st)
  else if t.noticed.contains (b, st) then s.setTensor p n { t with noticed := t.noticed.filter (· != (b, st)) }
  else if t.acting then s1.sendReturn p n b d.1 d.2
  else s1.setTensor p n { t with unnoticed := t.unnoticed ++ [c] }

/-- The rule strand leaves its block. -/
def State.freeRule (s : State) (u : UnitNo) (k : StrandNo) : State := s.setStrand u k { s.strand u k with rule := none }

/-- Block b commits step st from slot k, as one step. -/
def State.commitBlock (s : State) (p n b : Nat) (st : BitVec 48) (k : Nat) : State :=
  let t := s.tensor p n
  let x := t.block b
  let h : PnHeader := Table.get 0 t.slots k
  let t : Tensor := t.setBlock b { x with last := st, bank := !x.bank, applying := none, strand := none, otag := h.otag }
  let s := (s.setTensor p n ((t.freed k).setDeadline st s.ptime)).nextHeld p n b
  (s.announce p n b st).answerDups p n b st

/-- The rule of block b failed: the block counts as absent. -/
def State.failBlock (s : State) (p n b : Nat) (st : BitVec 48) (k : Nat) : State :=
  let t := s.tensor p n
  let x := t.block b
  let t : Tensor := (t.setBlock b { x with applying := none, strand := none }).freed k
  ((s.setTensor p n { t with failed := satInc t.failed }).report p n repRuleFailed false b st 0).answerDups p n b st

/-- The rule strand of block b is saved, and goes on after the restore (R429). -/
def State.ruleSaved (s : State) (p n b : Nat) : Bool :=
  (s.partOf p).saved.any (fun v => v.strands.any (fun (e : Nat × Strand) => e.2.rule == some (n, b)))

/-- BLOCK_COMMIT: the rule strand of the block has ended (R422). One that was reset, or that met an uncorrectable
error, fails its block. -/
def evBlockCommit (p : PartNo) (t : Byte) (b : BitVec 10) (s : State) : State :=
  let y := (s.tensor p.toNat t.toNat).block b.toNat
  match y.applying, y.strand with
  | some (st, k), some (u, j) =>
    let un : UnitNo := BitVec.ofNat 10 u
    let kn : StrandNo := BitVec.ofNat 3 j
    let r := s.strand un kn
    if s.ruleSaved p.toNat t.toNat b.toNat then s
    else if 1024 ≤ u || r.rule != some (t.toNat, b.toNat) then s.failBlock p.toNat t.toNat b.toNat st k
    else if r.run == .stopped then (s.freeRule un kn).failBlock p.toNat t.toNat b.toNat st k
    else if r.run != .halted || !r.sq.isEmpty || !r.lq.isEmpty || s.farOutstanding u j then s
    else if !r.ruleErr && !r.bad.any (fun x => x.code == causePoison) && r.exitStatus.getD 0 = 0 then (s.freeRule un kn).commitBlock p.toNat t.toNat b.toNat st k
    else (s.freeRule un kn).failBlock p.toNat t.toNat b.toNat st k
  | _, _ => s

/-! ### Mirroring (R428) -/

/-- The next message of a kind at the head of a tensor's inbox. -/
def Tensor.takeMsg (t : Tensor) : Option (PnMsg × Tensor) := match t.inbox with
  | [] => none
  | m :: rest => some (m, { t with inbox := rest })

/-- PN_NOTICE: ACK while secondary, DEMOTE once acting. -/
def evPnNotice (p : PartNo) (t : Byte) (s : State) : State :=
  match (s.tensor p.toNat t.toNat).takeMsg with
  | some (.notice b st, x) =>
    let x : Tensor := { x with mirror := true }
    if !x.valid || (!x.acting && x.role != 2) then s.setTensor p.toNat t.toNat x
    else if x.acting then
      (s.setTensor p.toNat t.toNat x).toPeer x (.demote (BitVec.ofNat 5 x.ppart) (BitVec.ofNat 8 x.pten))
    else
      let hit := x.unnoticed.any (fun c => c.block == b && c.step == st)
      let x : Tensor := if hit then { x with unnoticed := x.unnoticed.filter (fun c => !(c.block == b && c.step == st)) }
        else { x with noticed := x.noticed ++ [(b, st)] }
      (s.setTensor p.toNat t.toNat x).toPeer x
        (.ack (BitVec.ofNat 5 x.ppart) (BitVec.ofNat 8 x.pten) (BitVec.ofNat 10 b) st)
  | _ => s

/-- The primary fences itself; what is applying already goes on (DEDUCED, log entry 77). -/
def State.fenceNode (s : State) (p n : Nat) : State :=
  let t := s.tensor p n
  let t : Tensor := { t with fenced := true, acting := false, mirror := false, waiting := [] }
  (s.setTensor p n t).report p n repMirrorLost false 0 t.top 0

/-- A commit has waited for its ACK longer than 2 TFAIL. -/
def Tensor.ackLate (t : Tensor) (now : W64) : Bool := t.waiting.any (fun c => c.at_.toNat + 2 * t.tfail < now.toNat)

/-- PN_ACK: the returns of the commit are sent; one that comes too late fences the node. -/
def evPnAck (p : PartNo) (t : Byte) (s : State) : State :=
  match (s.tensor p.toNat t.toNat).takeMsg with
  | some (.ack b st, x) =>
    let x : Tensor := { x with mirror := true }
    if x.valid && x.role == 1 && !x.fenced && x.ackLate s.ptime then (s.setTensor p.toNat t.toNat x).fenceNode p.toNat t.toNat
    else match x.waiting.find? (fun c => c.block == b && c.step == st) with
    | none => s.setTensor p.toNat t.toNat x
    | some c =>
      let x : Tensor := { x with waiting := x.waiting.filter (fun c => !(c.block == b && c.step == st)) }
      (s.setTensor p.toNat t.toNat x).sendCommit p.toNat t.toNat c
  | _ => s

/-- PN_DEMOTE. -/
def evPnDemote (p : PartNo) (t : Byte) (s : State) : State :=
  match (s.tensor p.toNat t.toNat).takeMsg with
  | some (.demote, x) =>
    let s := s.setTensor p.toNat t.toNat x
    if x.valid && x.role == 1 && s.mirrored x && !x.fenced then s.fenceNode p.toNat t.toNat else s
  | _ => s

/-- The link that a node's messages to its peer take. -/
def State.peerLink (s : State) (t : Tensor) : Nat := 64 * (t.outPort / 4) + s.hopOf (t.outPort / 4) t.pmod

/-- A secondary that does not act yet, of a mirrored tensor. -/
def State.standsBy (s : State) (t : Tensor) : Bool := t.valid && t.role == 2 && !t.acting && s.mirrored t

/-- Every commit without a NOTICE is returned. -/
def State.returnOwed (s : State) (p n : Nat) (l : List PnCommit) : State := l.foldl (fun (s : State) c => s.sendCommit p n c) s

/-- The secondary becomes acting. -/
def State.takeOver (s : State) (p n : Nat) : State :=
  let x := s.tensor p n
  let s := s.setTensor p n { x with acting := true, mirror := false, unnoticed := [] }
  let s := s.toPeer x (.demote (BitVec.ofNat 5 x.ppart) (BitVec.ofNat 8 x.pten))
  let s := s.report p n repTakeover false 0 x.top 0
  s.returnOwed p n x.unnoticed

/-- PN_TAKEOVER: the link to the peer is down, or TFAIL has passed since a commit without its NOTICE. -/
def evPnTakeover (p : PartNo) (t : Byte) (s : State) : State :=
  let x := s.tensor p.toNat t.toNat
  let down := !(s.link (s.peerLink x)).up
  let late := x.unnoticed.any (fun c => c.at_.toNat + x.tfail ≤ s.ptime.toNat)
  if !s.standsBy x || !(down || late) then s else s.takeOver p.toNat t.toNat

/-- The link l goes down: every secondary whose peer it reaches becomes acting. -/
def State.linkTakeovers (s : State) (l : Nat) : State :=
  (s.parts.flatMap (fun (x : Nat × Part) => (x.2.tensors.filter (fun (t : Nat × Tensor) =>
    s.standsBy t.2 && s.peerLink t.2 == l)).map (fun t => (x.1, t.1)))).foldl (fun (s : State) q => s.takeOver q.1 q.2) s

/-- PN_FENCED: no ACK within 2 TFAIL. -/
def evPnFenced (p : PartNo) (t : Byte) (s : State) : State :=
  let x := s.tensor p.toNat t.toNat
  if x.valid && x.role == 1 && !x.fenced && x.waiting.any (fun c => c.at_.toNat + 2 * x.tfail ≤ s.ptime.toNat) then
    s.fenceNode p.toNat t.toNat
  else s

/-- STEP_DEADLINE (R427). -/
def evStepDeadline (p : PartNo) (t : Byte) (step : BitVec 48) (s : State) : State :=
  let x := s.tensor p.toNat t.toNat
  if !x.deadlines.any (fun d => d.1 == step && !d.2.2 && d.2.1.toNat ≤ s.ptime.toNat) then s
  else
    let x : Tensor := { x with deadlines := x.deadlines.map (fun d => if d.1 == step then (d.1, d.2.1, true) else d) }
    let absent := (List.range x.nblk).filter (fun b => (x.block b).last.toNat < step.toNat)
    if !x.acting || absent.isEmpty then s.setTensor p.toNat t.toNat x
    else (s.setTensor p.toNat t.toNat { x with missing := satInc x.missing }).report p.toNat t.toNat repMissing false 0 step
      (absent.map (fun b => 2 ^ b)).sum

/-! ### PNCFG (R431) -/

/-- A descriptor's reserved bits and ranges. -/
def Tensor.descOk (t : Tensor) : Bool :=
  field (t.word 0) 63 41 == 0 && (List.range 6).all (fun k => field (t.word (k + 1)) 63 57 == 0)
  && field (t.word 7) 63 48 == 0 && field (t.word 9) 63 57 == 0 && (List.range 6).all (fun k => t.word (k + 10) == 0)
  && !(bit (t.word 0) 0 && t.role == 3) && t.holdmax != 0 && t.expect != 0
  && 1000 ≤ t.tfail && t.tfail ≤ 10000000 && field (t.word 1) 11 0 == 0

/-- The pages of R418 translate for reading and writing and have their home on FD0 or FD1. -/
def State.pagesOk (s : State) (w : Who) : List (W64 × Nat) → Bool × State
  | [] => (true, s)
  | (va, n) :: rest =>
    match s.translateRange w .read .probe (piecesOf va n) with
    | (.error _, s1) => (false, s1)
    | (.ok _, s1) => match s1.translateRange w .write .probe (piecesOf va n) with
      | (.error _, s2) => (false, s2)
      | (.ok hs, s2) =>
        if hs.all (fun h => placeOf h.1.key == .far 0 || placeOf h.1.key == .far 1) then s2.pagesOk w rest else (false, s2)

def Tensor.pages (t : Tensor) : List (W64 × Nat) :=
  [(t.va 1, 24 * t.nblk * t.eblk), (t.va 2, 64 * t.slotBytes), (t.va 4, 256), (t.va 5, 16 * t.nwork)]

def State.hasTier (s : State) (p : Nat) : Bool := (s.partUnits p).any (fun u => 528 ≤ u)

/-- Two descriptors differ in nothing but ROLE and PMOD. -/
def sameBut (a b : Tensor) : Bool :=
  (List.range 16).all (fun k =>
    let m : W64 := if k = 0 then ~~~6 else if k = 9 then ~~~63 else BitVec.allOnes 64
    a.word k &&& m == b.word k &&& m)

/-- The tensor has a block applying, held or in an intake slot. -/
def Tensor.busy (t : Tensor) : Bool :=
  !t.slots.isEmpty || t.blocks.any (fun (b : Nat × PnBlock) => b.2.applying.isSome || !b.2.held.isEmpty)

/-- Every block at START in bank 0. -/
def Tensor.restarted (t : Tensor) : Tensor :=
  { t with blocks := (List.range t.nblk).map (fun b => (b, { PnBlock.reset with last := t.start })) }

/-- A tensor after PNCFG: `t` before, `d` the descriptor's words. Commits that wait for their ACK wait on (R428). -/
def Tensor.configured (t : Tensor) (d : List W64) : Tensor :=
  let new : Tensor := { Tensor.reset with desc := d, valid := match d with
    | w :: _ => bit w 0
    | [] => false }
  if !t.valid then ({ new with acting := new.role == 1, half := new.role == 2 } : Tensor).restarted
  else
    let moved := t.nblk != new.nblk || t.eblk != new.eblk || t.word 1 != new.word 1
    let changed := t.role != new.role || t.pmod != new.pmod
    let t' : Tensor := { t with desc := d, valid := new.valid
                                fenced := t.fenced && !changed
                                src := if new.role == 1 then t.src || t.role == 2 else t.src && t.role == new.role
                                acting := if new.role == 1 then t.acting || changed else t.acting && t.role == new.role }
    let t' := if moved then t'.restarted else t'
    if new.valid then t'
    else { t' with slots := [], blocks := t'.blocks.map (fun (b : Nat × PnBlock) => (b.1, { b.2 with held := [] })) }

/-- The status of a PNCFG, and the state its checks leave. -/
def State.pncfgStatus (s : State) (u : UnitNo) (n : Nat) (d : List W64) (sup : Bool) (pkr : W64) : Nat × State :=
  let p := s.unitPart u
  let old := s.tensor p n
  let new : Tensor := { Tensor.reset with desc := d }
  let v := bit (new.word 0) 0
  if !new.descOk then (2, s)
  else
    let (ok, s1) := if v then s.pagesOk ⟨u, p, sup, pkr⟩ new.pages else (true, s)
    if !ok then (3, s1)
    else if v && !s1.hasTier p then (4, s1)
    else if old.valid && old.busy && !sameBut old new then (1, s1)
    else (0, s1)

/-- PNCFG_EFFECT: in store-queue order; Dst takes the status. -/
def evPncfgEffect (u : UnitNo) (k : StrandNo) (s : State) : State :=
  match (s.strand u k).sq with
  | ⟨seq, .pncfg n bytes dst sup pkr⟩ :: _ =>
    let d := (List.range 16).map (fun i => BitVec.ofNat 64 (numAt bytes (8 * i) 8))
    let (st, s1) := s.pncfgStatus u n d sup pkr
    let p := s.unitPart u
    let old := s1.tensor p n
    let new := old.configured d
    -- a secondary made PRIMARY is acting, and returns what no NOTICE covers (R428, R431)
    let acts := new.valid && new.acting && old.valid && !old.acting && old.role == 2
    -- a primary without a mirror returns without waiting for an ACK
    let solo := new.valid && new.role == 1 && old.valid && !new.fenced && !s1.mirrored new
    let new := { new with unnoticed := if acts then [] else new.unnoticed, waiting := if solo then [] else new.waiting }
    let owed := (if acts then old.unnoticed else []) ++ (if solo then old.waiting else [])
    let s2 := if st ≠ 0 then s1 else (s1.setTensor p n new).returnOwed p n owed
    (s2.deliver u k seq dst 0 st).pop u k seq
  | _ => s

end Sys2Proof.Machine
end

