-- ==== Sys2Proof/Machine/Links.lean ====
section
/-! DEFINITION. The fabric by itself (R381 to R395): lanes are lent and serve the egress queues, flits are
sealed, answered, resent and delivered, links go down, and codes and keys change. -/

namespace Sys2Proof.Machine

/-! ### Links and their faults (R389, R394) -/

def linkAuth : Nat := 0x01
def linkKeyLow : Nat := 0x02
def linkKeyExhausted : Nat := 0x03
def linkSignal : Nat := 0x04
def linkPathLost : Nat := 0x05
def linkFecTimeout : Nat := 0x07
def linkNoAck : Nat := 0x08

/-- A LINK fault of port i of link l's engine that concerns no strand's access goes to the host. -/
def State.linkFault (s : State) (l i detail : Nat) : State :=
  s.routeFault 32 clsLink detail (linkSubject (4 * (l / 64) + i % 4) (l % 64)) 0 0 0

/-- A message that cannot go on: what it belongs to is lost (R391 to R393, R411, R425). -/
def State.loseMsg (s : State) (p : Nat) (m : OutMsg) : State :=
  let own := m.src == s.fabric.modnum
  let e := p / 4
  let onward (s : State) : State := s.linkFault (64 * e + m.dst.toNat) p linkPathLost
  match m.msg with
  | .load id _ _ | .atomic id _ _ _ _ _ _ _ _ | .store id _ _ | .posted id _ _ _ _ _ _ _ =>
    if own then
      s.loseReqs (some s.fabric.modnum.toNat) (s.fabric.reqs.filter (fun r => r.id == id && r.got.isNone && r.fail.isNone))
    else onward (s.answer e m.src.toNat (.lost id))
  | .piece src _ n _ _ _ _ =>
    if own then s.setEntry (PairAddr.no src) n qsLinkLost else onward s
  | .place p t id _ _ _ _ _ _ => if own then s.sendDone p.toNat t.toNat id qsLinkLost else onward s
  | _ => if own then s else onward s

def State.loseMsgs (s : State) : List (Nat × OutMsg) → State
  | [] => s
  | (p, m) :: rest => (s.loseMsg p m).loseMsgs rest

/-- The module that engine e sends a message to next: a forwarded one goes direct (R391). -/
def State.nextHop (s : State) (e : Nat) (m : OutMsg) : Nat :=
  if m.src == s.fabric.modnum then s.hopOf e m.dst.toNat else m.dst.toNat

/-- Take the messages that would go over a link out of the engine's egress queues, with the port of each, and those
that wait for room there. -/
def State.dequeueLink (s : State) (l : Nat) : List (Nat × OutMsg) × State :=
  let e := l / 64
  let mine (p : Nat × List OutMsg) : Bool := p.1 / 256 == e
  let goes (m : OutMsg) : Bool := s.nextHop e m == l % 64
  let take (t : Table (List OutMsg)) : List (Nat × OutMsg) :=
    (t.filter mine).flatMap (fun p => (p.2.filter goes).map (fun m => (p.1 / 64, m)))
  let keep (t : Table (List OutMsg)) : Table (List OutMsg) :=
    t.map (fun (p : Nat × List OutMsg) => if mine p then (p.1, p.2.filter (fun m => !goes m)) else p)
  let f := s.fabric
  (take f.egress ++ take f.backlog, { s with fabric := { f with egress := keep f.egress, backlog := keep f.backlog } })

/-- The message of a flit. -/
def flitOut (f : Flit) : OutMsg := { type := f.type, src := f.src, dst := f.dst, msg := f.msg, spill := none }

/-- A logical link goes down (R389), by a fault of port i of its engine: its unacknowledged flits are gone, what waits
for it is lost, and a secondary whose peer it reaches takes over (R428). -/
def State.downLink (s : State) (l i detail : Nat) : State :=
  let x := s.link l
  if !x.up then s
  else
    let e := l / 64
    let s := s.setLink l { x with up := false, flights := [], discarding := false, fecProp := none, fecAcc := none }
    let (queued, s) := s.dequeueLink l
    let s := s.loseMsgs (x.flights.map (fun f => (4 * e + f.flit.fibre.toNat, flitOut f.flit)) ++ queued)
    let s := s.loseEntries e (l % 64)
    let s := s.loseReqs (some s.fabric.modnum.toNat)
      (s.fabric.reqs.filter (fun r => r.engine == e && r.hop == l % 64 && r.got.isNone && r.fail.isNone))
    let s := s.loseSends (fun x => x.engine == e && s.hopOf e x.mdl == l % 64)
    (s.linkFault l i detail).linkTakeovers l

/-- LINK_DOWN, for a reason of R389 that the module learns of. -/
def evLinkDown (l : LinkRef) (detail : Byte) (s : State) : State :=
  if [linkAuth, linkKeyExhausted, linkSignal, linkNoAck].contains detail.toNat then
    let t := s.downLink (LinkRef.key l) (Config.linkPort s.tick).toNat detail.toNat
    { t with tick := t.tick + 1 }
  else s

/-! ### Sealing (R385, R386) -/

/-- The payload bytes in use (DESIGN CHOICE, log entry 22). -/
def msgLen (m : FabMsg) : Nat := match m with
  | .none => 0
  | .load _ _ _ => 24
  | .atomic _ _ _ _ _ _ _ _ _ => 48
  | .store _ _ d => 24 + d.length
  | .posted _ _ _ _ _ _ _ _ => 40
  | .done _ | .lost _ => 8
  | .value _ d _ _ => 16 + d.length
  | .piece _ _ _ _ _ d _ => 88 + d.length
  | .entryAck _ _ _ => 16
  | .notice _ _ _ _ | .ack _ _ _ _ => 16
  | .demote _ _ => 8
  | .place _ _ _ _ _ _ _ d _ => 32 + d.length
  | .placeAck _ _ _ _ => 8
  | .fec _ => 1

/-- The number of a link's key slot. -/
def slotKey (l : Nat) (slot : Bool) : Nat := 2 * l + slot.toNat
def State.txKey (s : State) (l : Nat) (slot : Bool) : KeySlot := Table.get KeySlot.reset s.fabric.keyTx (slotKey l slot)
def State.rxKey (s : State) (l : Nat) (slot : Bool) : KeySlot := Table.get KeySlot.reset s.fabric.keyRx (slotKey l slot)

/-- FLIT_TRANSMIT: one transmission takes the next counter value of the flit's key slot and leaves. -/
def State.transmit (s : State) (l : Nat) (f : Flit) : Flit × State :=
  let k := s.txKey l f.ks
  if !(s.link l).up then (f, s)
  else if 2 ^ 32 ≤ k.counter.toNat then (f, s.downLink l f.fibre.toNat linkKeyExhausted)
  else
    let f : Flit := { f with key := k.key, salt := k.salt, counter := k.counter, intact := true, reserved := 0 }
    let fab := s.fabric
    let s : State := { s with fabric := { fab with
      keyTx := Table.set fab.keyTx (slotKey l f.ks) { k with counter := k.counter + 1 }
      wire := (l, f) :: fab.wire } }
    (f, if k.counter.toNat + 1 = 2 ^ 31 then s.linkFault l f.fibre.toNat linkKeyLow else s)

/-- A new flit of a link, unsealed. -/
def State.newFlit (s : State) (l fibre : Nat) (type : Byte) (src dst : BitVec 6) (seq : W32) (m : FabMsg) : Flit :=
  { fibre := BitVec.ofNat 2 fibre, type := type, src := src, dst := dst, hop := BitVec.ofNat 6 l, ks := (s.link l).txSlot
    reserved := 0, seq := seq, len := BitVec.ofNat 8 (msgLen m), msg := m, key := 0, salt := 0, counter := 0, intact := true }

/-- Send a flit that the peer answers: it takes the next SEQ and stays until its ACK (R387). -/
def State.sendFlit (s : State) (l fibre : Nat) (type : Byte) (src dst : BitVec 6) (m : FabMsg) : State :=
  let x := s.link l
  let (f, s) := s.transmit l (s.newFlit l fibre type src dst x.txSeq m)
  let y := s.link l
  if !y.up then s
  else s.setLink l { y with txSeq := x.txSeq + 1, flights := y.flights ++ [{ flit := f, first := s.ptime, sent := s.ptime, fails := 0 }] }

/-- An ACK or NAK of a received flit. -/
def State.sendAnswer (s : State) (l : Nat) (type : Byte) (seq : W32) : State :=
  (s.transmit l (s.newFlit l 0 type s.fabric.modnum (BitVec.ofNat 6 l) seq .none)).2

/-- A marker or message of the link itself (R388, R390). -/
def State.sendOwn (s : State) (l : Nat) (type : Byte) (m : FabMsg) : State :=
  s.sendFlit l 0 type s.fabric.modnum (BitVec.ofNat 6 l) m

/-! ### Answers and resending (R387) -/

/-- Send the flights from number n on again, in SEQ order. -/
def State.resend (s : State) (l n : Nat) : State :=
  (List.range (s.link l).flights.length).foldl (fun (s : State) i =>
    match (s.link l).flights[i]? with
    | some g =>
      if i < n then s else
      let (f, s) := s.transmit l g.flit
      let y := s.link l
      s.setLink l { y with flights := y.flights.set i { g with flit := f, sent := s.ptime } }
    | none => s) s

/-- The transmission of flight n has failed, and those after it with it. -/
def State.failFlight (s : State) (l n detail : Nat) : State :=
  let x := s.link l
  let fl := x.flights.take n ++ (x.flights.drop n).map (fun f => { f with fails := f.fails + 1 })
  match (fl.drop n).find? (fun f => 4 ≤ f.fails) with
  | some f => s.downLink l f.flit.fibre.toNat (if (fl[n]?).any (fun g => g.flit.seq == f.flit.seq) then detail else linkNoAck)
  | none => (s.setLink l { x with flights := fl }).resend l n

/-- The number of the flight with a SEQ. -/
def Link.flightOf (x : Link) (seq : W32) : Option Nat := x.flights.findIdx? (fun f => f.flit.seq == seq)

/-- The TYPEs of Table 20-2. -/
def typeKnown (t : Byte) : Bool :=
  [typeData, typeReq, typeResp, typeAck, typeNak, typeKeysw, typePropose, typeAccept, typeCommit, typeDecline].contains t

/-- A flit of a link passes authentication under a key slot, and its header is as R385 asks. -/
def State.flitOk (s : State) (l : Nat) (slot : Bool) (f : Flit) : Bool :=
  let k := s.rxKey l slot
  (k.key != 0 || k.salt != 0) && f.key == k.key && f.salt == k.salt && f.ks == slot && f.intact && typeKnown f.type
  && f.reserved == 0 && f.len.toNat ≤ 224 && f.hop == s.fabric.modnum

/-- FLIT_ACK: the flit of that SEQ has been passed; an answer that comes later than 1,000 ns finds the transmission
failed, and one later than 4,000 ns after the first the link (R387). -/
def evFlitAck (r : LinkRef) (f : Flit) (s : State) : State :=
  let l := LinkRef.key r
  let x := s.link l
  if !x.up || f.type != typeAck || !s.flitOk l f.ks f then s
  else match x.flightOf f.seq with
    | none => s
    | some n =>
      let late (t : Flight) : Bool := t.first.toNat + 4000 < s.ptime.toNat
      let slow (t : Flight) : Bool := t.sent.toNat + 1000 < s.ptime.toNat
      match x.flights[n]? with
      | none => s
      | some g =>
        if late g then s.downLink l g.flit.fibre.toNat linkNoAck
        else if slow g then s.failFlight l n linkNoAck
        else s.setLink l { x with flights := x.flights.filter (fun g => g.flit.seq != f.seq) }

/-- NAK: the flit of that SEQ failed authentication; it and the later ones are sent again. -/
def evNak (r : LinkRef) (f : Flit) (s : State) : State :=
  let l := LinkRef.key r
  let x := s.link l
  if !x.up || f.type != typeNak || !s.flitOk l f.ks f then s
  else match x.flightOf f.seq with
    | some n => s.failFlight l n linkAuth
    | none => s

/-- FLIT_ACK_TIMEOUT: no answer 1,000 ns after the last transmission. -/
def State.ackTimeout (s : State) (l : Nat) : State :=
  match (s.link l).flights.findIdx? (fun f => f.sent.toNat + 1000 ≤ s.ptime.toNat) with
  | some n => s.failFlight l n linkNoAck
  | none => s

def evFlitAckTimeout (r : LinkRef) (s : State) : State := s.ackTimeout (LinkRef.key r)

/-- FLIT_PASS_DEADLINE: a flit not passed 4,000 ns after its first transmission. -/
def State.passTimeout (s : State) (l : Nat) : State :=
  match (s.link l).flights.find? (fun f => f.first.toNat + 4000 < s.ptime.toNat) with
  | some f => s.downLink l f.flit.fibre.toNat linkNoAck
  | none => s

def evFlitPassDeadline (r : LinkRef) (s : State) : State := s.passTimeout (LinkRef.key r)

/-! ### Receiving (R387) -/

/-- The receiver's check of one flit, in SEQ order; `take` passes it on. -/
def State.receive (s : State) (r : LinkRef) (type : Byte) (f : Flit) (take : State → State) : State :=
  let l := LinkRef.key r
  let x := s.link l
  let older := f.seq != x.rxSeq && (x.rxSeq - f.seq).toNat < 2 ^ 31
  if !x.up || (f.type != type && (typeKnown f.type || type != typeData)) then s
  else if !s.flitOk l (if older then f.ks else x.rxSlot) f then
    if x.discarding && f.seq != x.rxSeq then s
    else (s.setLink l { x with discarding := true }).sendAnswer l typeNak x.rxSeq
  else if older then s.sendAnswer l typeAck f.seq
  else if f.seq != x.rxSeq then s
  else take ((s.setLink l { x with rxSeq := x.rxSeq + 1, discarding := false }).sendAnswer l typeAck f.seq)

/-- A flit for another module goes on, on the port of the same index (R391). -/
def State.forwardFlit (s : State) (e : Nat) (f : Flit) : State := s.post (4 * e + f.fibre.toNat) (flitOut f)

/-- A message of the peer node comes to a tensor of this module (R428). -/
def State.tensorMsg (s : State) (p n : Nat) (m : PnMsg) : State :=
  let t := s.tensor p n
  s.setTensor p n { t with inbox := t.inbox ++ [m] }

/-- A DATA flit at its destination. -/
def State.takeData (s : State) (e : Nat) (f : Flit) : State :=
  match f.msg with
  | .store _ _ _ | .posted _ _ _ _ _ _ _ _ =>
    { s with fabric := { s.fabric with inbox := s.fabric.inbox ++ [{ src := f.src, engine := e, msg := f.msg }] } }
  | .piece src dst n w off data last => s.pieceCame src dst n w off data last
  | .notice p t b st => s.tensorMsg p.toNat t.toNat (.notice b.toNat st)
  | .ack p t b st => s.tensorMsg p.toNat t.toNat (.ack b.toNat st)
  | .demote p t => s.tensorMsg p.toNat t.toNat .demote
  | .place p t id tgt va total off data c =>
    match s.placeAt tgt.toNat va total off data c.toNat with
    | (st, s1) => if off + data.length < total then s1 else s1.answer e f.src.toNat (.placeAck p t id st)
  | _ => s

/-- FLIT_DATA. -/
def evFlitData (l : LinkRef) (f : Flit) (s : State) : State :=
  s.receive l typeData f (fun s => if f.dst == s.fabric.modnum then s.takeData l.engine.toNat f else s.forwardFlit l.engine.toNat f)

/-- The far stores of module m that wait, in their order. -/
def State.performInbox (s : State) (m : BitVec 6) : State :=
  (s.fabric.inbox.filter (fun x => x.src == m)).foldl (fun (s : State) x => (s.dropIn x).performFar x.engine m.toNat x.msg) s

/-- A far load or atomic is performed at its home, behind the stores of its module (R368, R129). -/
def State.takeReq (s : State) (e : Nat) (f : Flit) : State :=
  match f.msg with
  | .load .. | .atomic .. => (s.performInbox f.src).performFar e f.src.toNat f.msg
  | _ => s.performInbox f.src

/-- A page on the move holds what a request needs (R279). -/
def State.reqHeld (s : State) (f : Flit) : Bool :=
  (s.fabric.inbox.filter (fun x => x.src == f.src)).any (fun x => s.farHeld x.msg) || s.farHeld f.msg

/-- A request at its destination: it is performed, or waits with what its home holds (R279, R387). -/
def State.reqCame (s : State) (e : Nat) (f : Flit) : State :=
  if s.reqHeld f then { s with fabric := { s.fabric with inbox := s.fabric.inbox ++ [⟨f.src, e, f.msg⟩] } }
  else s.takeReq e f

/-- REQ. -/
def evReq (l : LinkRef) (f : Flit) (s : State) : State :=
  s.receive l typeReq f (fun s => if f.dst == s.fabric.modnum then s.reqCame l.engine.toNat f else s.forwardFlit l.engine.toNat f)

/-- A request of this module that module m may answer. -/
def State.openReq (s : State) (id : Nat) : Option FarReq :=
  s.fabric.reqs.find? (fun r => r.id == id && r.got.isNone && r.fail.isNone)

def State.putReq (s : State) (r : FarReq) : State :=
  { s with fabric := { s.fabric with reqs := s.fabric.reqs.map (fun x => if x.id == r.id then r else x) } }

/-- A request has waited longer than 100 us for its response (R392). -/
def State.reqLate (s : State) (r : FarReq) : Bool := r.at_.toNat + 100000 < s.ptime.toNat

/-- A response at the module that asked; one that comes too late finds the access lost. -/
def State.takeResp (s : State) (f : Flit) : State :=
  match f.msg with
  | .done id => match s.openReq id with
    | some r =>
      let (u, k) := r.owner.getD (0, 0)
      if s.reqLate r then s.loseReq none r
      else if r.store then (s.dropReqs (fun x => x.id == id)).settle (BitVec.ofNat 10 u) (BitVec.ofNat 3 k) else s
    | none => s
  | .value id data poison fwd => match s.openReq id with
    | some r => if s.reqLate r then s.loseReq none r else if r.store then s else s.putReq (if poison then { r with fail := some causePoison } else { r with got := some data, fwd := fwd })
    | none => s
  | .lost id => match s.openReq id with
    | some r => s.loseReq (some f.src.toNat) r
    | none => s
  | .entryAck a n st => s.setEntry (PairAddr.no a) n st
  | .placeAck p t id st => s.sendDone p.toNat t.toNat id st
  | _ => s

/-- RESP. -/
def evResp (l : LinkRef) (f : Flit) (s : State) : State :=
  s.receive l typeResp f (fun s => if f.dst == s.fabric.modnum then s.takeResp f else s.forwardFlit l.engine.toNat f)

/-- FAR_ACCESS_TIMEOUT: no response within 100 us (R392). -/
def evFarAccessTimeout (id : Nat) (s : State) : State :=
  match s.openReq id with
  | some r => if s.reqLate r then s.loseReq none r else s
  | none => s

/-! ### Keys and codes (R388, R390) -/

/-- KEYSW: flits after the marker are checked under the other slot. -/
def evKeysw (r : LinkRef) (f : Flit) (s : State) : State :=
  s.receive r typeKeysw f (fun s =>
    let x := s.link (LinkRef.key r)
    s.setLink (LinkRef.key r) { x with rxSlot := !x.rxSlot })

/-- The code a message names. -/
def msgCode (m : FabMsg) : Option (BitVec 2) := match m with
  | .fec c => some c
  | _ => none

/-- PROPOSE, at the acceptor. -/
def evPropose (r : LinkRef) (f : Flit) (s : State) : State :=
  s.receive r typePropose f (fun s =>
    let l := LinkRef.key r
    let x := s.link l
    match msgCode f.msg with
    | some c =>
      if 2 ≤ c.toNat || x.fecAcc.isSome then s.sendOwn l typeDecline (.fec c)
      else (s.setLink l { x with fecAcc := some (c, s.ptime) }).sendOwn l typeAccept (.fec c)
    | none => s)

/-- The proposer's change ends with an outcome. -/
def State.fecEnds (s : State) (l : Nat) (out : BitVec 2) : State :=
  s.setLink l { s.link l with fecProp := none, fecOut := out }

/-- ACCEPT, at the proposer. -/
def evAccept (r : LinkRef) (f : Flit) (s : State) : State :=
  s.receive r typeAccept f (fun s =>
    let l := LinkRef.key r
    match (s.link l).fecProp, msgCode f.msg with
    | some (c, t), some d =>
      if d != c then s
      else if t.toNat + 4000 < s.ptime.toNat then (s.fecEnds l 2).linkFault l 0 linkFecTimeout
      else
        let s := s.sendOwn l typeCommit (.fec c)
        if (s.link l).up then (s.setLink l { s.link l with fecTx := c }).fecEnds l 1 else s
    | _, _ => s)

/-- COMMIT, at the acceptor: the flits after it come in the new code. -/
def evFecCommit (r : LinkRef) (f : Flit) (s : State) : State :=
  s.receive r typeCommit f (fun s =>
    let l := LinkRef.key r
    let x := s.link l
    match x.fecAcc with
    | some (c, _) => if msgCode f.msg == some c then s.setLink l { x with fecRx := c, fecAcc := none } else s
    | none => s)

/-- DECLINE, at the proposer. -/
def evDecline (r : LinkRef) (f : Flit) (s : State) : State :=
  s.receive r typeDecline f (fun s => s.fecEnds (LinkRef.key r) 3)

/-- FEC_ACCEPT_TIMEOUT: no ACCEPT within 4,000 ns. -/
def State.acceptTimeout (s : State) (l : Nat) : State :=
  match (s.link l).fecProp with
  | some (_, t) => if t.toNat + 4000 < s.ptime.toNat then (s.fecEnds l 2).linkFault l 0 linkFecTimeout else s
  | none => s

def evFecAcceptTimeout (r : LinkRef) (s : State) : State := s.acceptTimeout (LinkRef.key r)

/-- FEC_WAIT_EXPIRY: the acceptor's 16,000 ns end without COMMIT. -/
def State.commitTimeout (s : State) (l : Nat) : State :=
  let x := s.link l
  match x.fecAcc with
  | some (_, t) => if t.toNat + 16000 < s.ptime.toNat then s.setLink l { x with fecAcc := none } else s
  | none => s

def evFecWaitExpiry (r : LinkRef) (s : State) : State := s.commitTimeout (LinkRef.key r)

/-! ### Lanes (R381, R382) -/

/-- The flits that wait at a port, and the destinations they are for. -/
def Fabric.waiting (f : Fabric) (p : Nat) : Nat × Nat :=
  let qs := (f.egress.filter (fun q => q.1 / 64 == p)).map (fun q => q.2.length)
  (qs.foldl (· + ·) 0, (qs.filter (· != 0)).length)

/-- A port is idle: nothing waits and no flit of its fibre is unanswered (R379). -/
def Fabric.portIdle (f : Fabric) (p : Nat) : Bool :=
  (f.waiting p).1 == 0 && !f.links.any (fun l => l.1 / 64 == p / 4 && l.2.flights.any (fun g => g.flit.fibre.toNat == p % 4))

/-- Pod mode brings the engine's links up that are down (R389). -/
def State.bringUp (s : State) (e : Nat) : State :=
  (List.range s.fabric.podSize).foldl (fun (s : State) n =>
    if n == s.fabric.modnum.toNat || (s.link (64 * e + n)).up then s
    else s.setLink (64 * e + n) { Link.reset with up := true }) s

/-- A mode written for an idle port takes effect. -/
def State.applyMode (s : State) (p : Nat) : State :=
  let f := s.fabric
  match f.pcfgNext.find? (fun x => x.1 == p) with
  | none => s
  | some (_, v) =>
    if !f.portIdle p then s
    else
      let m := field v 1 0
      let s : State := { s with fabric := { f with pcfg := Table.set f.pcfg p v, pcfgNext := Table.erase p f.pcfgNext
                                                   portUp := Table.set f.portUp p (m != 0) } }
      if m = 1 then s.bringUp (p / 4) else s

/-- One port in a lane allocation: number, bytes, destinations, lanes. -/
structure Share where
  port : Nat
  d : Nat
  c : Nat
  n : Nat
  deriving DecidableEq, Repr

/-- Put a port in the order of R381: descending bytes, ties to the lower port. -/
def insertShare (x : Share) : List Share → List Share
  | [] => [x]
  | y :: rest => if y.d < x.d then x :: y :: rest else y :: insertShare x rest

/-- Give k lanes, one at a time, in order, cycling, to ports that may take one. -/
def giveLanes (may : Share → Bool) : Nat → Nat → List Share → List Share
  | 0, _, l => l
  | fuel + 1, k, l =>
    if k = 0 || !l.any may then l
    else
      let (k', l') := l.foldl (fun (a : Nat × List Share) x =>
        if 0 < a.1 && may x then (a.1 - 1, a.2 ++ [{ x with n := x.n + 1 }]) else (a.1, a.2 ++ [x])) (k, [])
      giveLanes may fuel k' l'

/-- The allocation of w lanes (R381), over ports in descending order of their bytes. -/
def allocate (w : Nat) (l : List Share) : List Share :=
  let total := (l.map (·.d)).foldl (· + ·) 0
  if total = 0 then l.map (fun x => { x with n := 0 })
  else
    let rest := w - (l.filter (fun x => 0 < x.d)).length
    let l := l.map (fun x => { x with n := (if 0 < x.d then 1 else 0) + rest * x.d / total })
    let l := giveLanes (fun _ => true) 65 (w - (l.map (·.n)).foldl (· + ·) 0) l
    let surplus := (l.map (fun x => x.n - x.c)).foldl (· + ·) 0
    let l := l.map (fun x => { x with n := Nat.min x.n x.c })
    giveLanes (fun x => x.n < x.c) 65 surplus l

/-- Hand lanes to ports: a lane stays with its port while the port has room for it. -/
def assignLanes (f : Fabric) (e : Nat) (need : List (Nat × Nat)) (ready : W64) : Fabric :=
  let room (l : List (Nat × Nat)) (p : Nat) : Bool := l.any (fun x => x.1 == p && 0 < x.2)
  let take (l : List (Nat × Nat)) (p : Nat) : List (Nat × Nat) := l.map (fun x => if x.1 == p then (x.1, x.2 - 1) else x)
  let keep := (List.range 64).foldl (fun (a : List (Nat × Nat) × List Nat) i =>
    match (f.lane e i).port with
    | some p => if room a.1 p then (take a.1 p, a.2) else (a.1, a.2 ++ [i])
    | none => (a.1, a.2 ++ [i])) (need, [])
  (keep.2.foldl (fun (a : List (Nat × Nat) × Fabric) i =>
    match a.1.find? (fun x => 0 < x.2) with
    | some x => (take a.1 x.1, a.2.setLane e i { Lane.reset with port := some x.1, ready := ready })
    | none => (a.1, a.2.setLane e i Lane.reset)) (keep.1, f)).2

/-- LENDING_BOUNDARY, once at each multiple of 2,000 ns for each engine. -/
def evLendingBoundary (e : BitVec 2) (s : State) : State :=
  if s.ptime.toNat % 2000 ≠ 0 || Table.has s.fabric.lent e.toNat && Table.get 0 s.fabric.lent e.toNat == s.ptime then s
  else
    let s : State := { s with fabric := { s.fabric with lent := Table.set s.fabric.lent e.toNat s.ptime } }
    let ports := (List.range 4).map (4 * e.toNat + ·)
    let s := ports.foldl (fun (s : State) p => s.applyMode p) s
    let f := s.fabric
    let mode (p : Nat) : Nat := field (Table.get 0 f.pcfg p) 1 0
    let eth := (ports.filter (fun p => mode p == 2)).map (fun p => (p, if bit (Table.get 0 f.pcfg p) 2 then 8 else 4))
    let pods := (ports.filter (fun p => mode p == 1 && Table.get false f.portUp p)).foldl (fun l p =>
      insertShare ⟨p, Nat.min (256 * (f.waiting p).1) (2 ^ 32 - 1), (f.waiting p).2, 0⟩ l) []
    let w := 64 - (eth.map Prod.snd).foldl (· + ·) 0
    let need := eth ++ (allocate w pods).map (fun x => (x.port, x.n))
    let f := assignLanes f e.toNat need (s.ptime + 32)
    let depth := ports.foldl (fun (t : Table W32) p =>
      Table.set t p (BitVec.ofNat 32 (match pods.find? (fun x => x.port == p) with
        | some x => x.d / 256
        | none => 0))) f.depth
    { s with fabric := { f with depth := depth } }

/-- The next destination of a lane of port p: in ascending number from its last, wrapping; none that
another lane of the port serves. -/
def Fabric.nextQueue (f : Fabric) (e lane p last : Nat) : Option Nat :=
  ((List.range 64).map (fun i => (last + 1 + i) % 64)).find? (fun n =>
    !(f.queue p n).isEmpty && !(List.range 64).any (fun i =>
      i != lane && (f.lane e i).port == some p && (f.lane e i).dest == n && (f.lane e i).count < 16))

/-- Note the way a request goes. -/
def State.noteHop (s : State) (m : FabMsg) (hop : Nat) : State :=
  match m with
  | .load id _ _ | .atomic id _ _ _ _ _ _ _ _ | .store id _ _ | .posted id _ _ _ _ _ _ _ =>
    { s with fabric := { s.fabric with reqs := s.fabric.reqs.map (fun r => if r.id == id then { r with hop := hop } else r) } }
  | _ => s

/-- The head of a queue leaves the port. -/
def State.serve (s : State) (e p n : Nat) : State :=
  match s.fabric.queue p n with
  | [] => s
  | m :: rest =>
    let hop := s.nextHop e m
    let s := s.dequeued p n rest
    if !(s.link (64 * e + hop)).up then s.loseMsg p m
    else
      let s := if m.src == s.fabric.modnum then s.noteHop m.msg hop else s
      s.sendFlit (64 * e + hop) (p % 4) m.type m.src m.dst m.msg

/-- LANE_SERVE: one flit of the queue a lane serves leaves, or the lane turns to the next queue. -/
def evLaneServe (e : BitVec 2) (lane : BitVec 6) (s : State) : State :=
  let x := s.fabric.lane e.toNat lane.toNat
  match x.port with
  | none => s
  | some p =>
    if field (Table.get 0 s.fabric.pcfg p) 1 0 ≠ 1 || s.ptime.toNat < x.ready.toNat then s
    else if x.count < 16 && !(s.fabric.queue p x.dest).isEmpty then
      let left := (s.fabric.queue p x.dest).length
      let y : Lane := { x with count := if left = 1 then 16 else x.count + 1 }
      let s : State := { s with fabric := s.fabric.setLane e.toNat lane.toNat y }
      s.serve e.toNat p x.dest
    else match s.fabric.nextQueue e.toNat lane.toNat p x.dest with
      | none => { s with fabric := s.fabric.setLane e.toNat lane.toNat { x with count := 16 } }
      | some n =>
        let y : Lane := { x with dest := n, count := 0, ready := if n = x.dest then x.ready else s.ptime + 16 }
        { s with fabric := s.fabric.setLane e.toNat lane.toNat y }

/-! ### Ethernet (R395) -/

/-- What leaves through a port in Ethernet mode. -/
def State.ethSend (s : State) (m : UetOut) : State := { s with fabric := { s.fabric with ethOut := s.fabric.ethOut ++ [m] } }

/-- The number of delivery context pdc of a port's engine. -/
def pdcKey (port : BitVec 4) (pdc : BitVec 14) : Nat := port.toNat / 4 * 2 ^ 14 + pdc.toNat

/-- A packet of a message of a receive context: its bytes are written where they belong, with the supervisor rights of
the context's partition; once all of the message is visible its arrival is made, once. Bytes whose home is lost bring the
error answer too (R284; DESIGN CHOICE, log entry 89). -/
def State.uetData (s : State) (ctx message : Nat) (reliable : Bool) (va : W64) (off total : Nat) (bytes : List Byte) : State :=
  let x := Table.get RxCtx.reset s.fabric.rxs ctx
  let got := Table.get [] x.got message
  if !x.valid || 4096 < bytes.length || total < off + bytes.length then s
  else if reliable && (List.range bytes.length).all (fun i => got.contains (off + i)) then s.ethSend (.ack ctx message)
  else match s.translateRange (hiveWho x.part) .write .demand (piecesOf (va + BitVec.ofNat 64 off) bytes.length) with
    | (.error _, s1) => s1.ethSend (.error ctx message)
    | (.ok hs, s1) =>
      let keys := segKeys (hitSegs hs)
      if keys.any s1.writeHeld || s1.farFull (BitVec.ofNat 10 x.unit) 0 (flitStarts keys) then s1
      else if keys.any s1.homeLost then s1.ethSend (.error ctx message)
      else
        let s2 := s1.placeAs (BitVec.ofNat 10 x.unit) x.part va (cellsOf keys bytes)
        let got := got ++ ((List.range bytes.length).map (off + ·)).filter (fun i => !got.contains i)
        let whole := total ≤ got.length && !x.arrived.contains message
        let y : RxCtx := { x with got := Table.set x.got message got
                                  arrived := if whole then message :: x.arrived else x.arrived }
        let s3 : State := { s2 with fabric := { s2.fabric with rxs := Table.set s2.fabric.rxs ctx y } }
        let s4 := s3.ethSend (.ack ctx message)
        if whole && s4.unitPart (BitVec.ofNat 10 x.unit) == x.part then s4.arrive (BitVec.ofNat 10 x.unit) x.bar 1 else s4

/-- A delivery context of a port, as the standard's sender-based congestion control leaves it (Table 20-3; DESIGN
CHOICE, log entry 89). -/
def State.uetContext (s : State) (key part : Nat) (wnd inflight rtt base : W32) (ecn : BitVec 16) : State :=
  let x := Table.get Pdc.reset s.fabric.pdcs key
  let y : Pdc := { x with valid := true, part := part, wnd := wnd, inflight := inflight, rtt := rtt, base := base, ecn := ecn }
  { s with fabric := { s.fabric with pdcs := Table.set s.fabric.pdcs key y } }

/-- A packet of a delivery context was trimmed on its way: it is counted, and sent again. -/
def State.uetNack (s : State) (port : BitVec 4) (pdc : BitVec 14) : State :=
  let key := pdcKey port pdc
  let x := Table.get Pdc.reset s.fabric.pdcs key
  if !x.valid then s
  else
    let y : Pdc := { x with trimmed := satInc x.trimmed, retrans := satInc x.retrans }
    ({ s with fabric := { s.fabric with pdcs := Table.set s.fabric.pdcs key y } }).ethSend (.again port.toNat pdc.toNat)

/-- System software binds a receive context, one of 1,024 of a partition, to a core and a barrier (DESIGN CHOICE, log
entry 89). -/
def State.uetReceive (s : State) (ctx : Nat) (unit : UnitNo) (bar : Nat) : State :=
  if s.unitPart unit != ctx / 1024 then s
  else
    let x : RxCtx := { RxCtx.reset with valid := true, part := ctx / 1024, unit := unit.toNat, bar := bar }
    { s with fabric := { s.fabric with rxs := Table.set s.fabric.rxs ctx x } }

/-- A packet can be there: the port it names, that of its pair, or else some port of the module runs Ethernet. Binding a
receive context takes no port, but a module that is up (R437). -/
def State.uetComes (s : State) (k : UetPacket) : Bool :=
  let ofPair (p : PairRef) : Bool := s.ethUp (4 * (PairRef.no p / 256) + field (s.pairOf (PairRef.no p)).cfg 34 33)
  match k with
  | .data .. | .ordered .. | .trimmed .. => (List.range 16).any s.ethUp
  | .ack p _ | .error p _ => ofPair p
  | .nack port _ | .context port .. => s.ethUp port.toNat
  | .receive .. => s.isUp

/-- UET_PACKET: what Ultra Ethernet brings, and the standing of its contexts. -/
def evUetPacket (k : UetPacket) (s : State) : State :=
  if !s.uetComes k then s
  else match k with
  | .data ctx message reliable va off total bytes => s.uetData ctx.toNat message reliable va off total bytes
  | .ordered ctx message => s.ethSend (.refused ctx.toNat message)
  | .trimmed ctx message => s.ethSend (.trimmed ctx.toNat message)
  | .ack p n => if (s.pairOf (PairRef.no p)).mode == 2 then s.setEntry (PairRef.no p) n qsOk else s
  | .error p n => if (s.pairOf (PairRef.no p)).mode == 2 then s.setEntry (PairRef.no p) n qsPeerRefused else s
  | .nack port pdc => s.uetNack port pdc
  | .context port pdc part wnd inflight rtt base ecn => s.uetContext (pdcKey port pdc) part.toNat wnd inflight rtt base ecn
  | .receive ctx unit bar => s.uetReceive ctx.toNat unit bar.toNat

/-! ### Time limits -/

/-- The package times at which a limit of the fabric runs out: 1,000 ns and 4,000 ns of a flit (R387), the waits of a
change of code (R390), and 100 us of a far access, of an entry of a pair and of a return (R392, R411, R425). -/
def State.fabricLimits (s : State) : List Nat :=
  s.fabric.links.flatMap (fun (l : Nat × Link) =>
    l.2.flights.flatMap (fun f => [f.sent.toNat + 1000, f.first.toNat + 4001])
    ++ l.2.fecProp.toList.map (fun p => p.2.toNat + 4001) ++ l.2.fecAcc.toList.map (fun p => p.2.toNat + 16001))
  ++ (s.fabric.reqs.filter (fun r => r.got.isNone && r.fail.isNone)).map (fun r => r.at_.toNat + 100001)
  ++ s.fabric.pairs.flatMap (fun (p : Nat × Pair) => (p.2.out.filter (fun o => o.status.isNone)).map (fun o => o.at_.toNat + 100001))
  ++ s.parts.flatMap (fun (x : Nat × Part) => x.2.tensors.flatMap (fun (t : Nat × Tensor) => t.2.sends.map (fun y => y.at_.toNat + 100001)))

/-- The package times at which a limit of a parameter node runs out: a step's deadline (R427), TFAIL without a NOTICE,
and 2 TFAIL without an ACK (R428). -/
def State.nodeLimits (s : State) : List Nat :=
  s.parts.flatMap (fun (x : Nat × Part) => x.2.tensors.flatMap (fun (t : Nat × Tensor) =>
    (t.2.deadlines.filter (fun d => !d.2.2)).map (fun d => d.2.1.toNat)
    ++ (if s.standsBy t.2 then t.2.unnoticed.map (fun c => c.at_.toNat + t.2.tfail) else [])
    ++ (if t.2.valid && t.2.role == 1 && !t.2.fenced then t.2.waiting.map (fun c => c.at_.toNat + 2 * t.2.tfail) else [])))

/-- What has run out in the fabric by now takes effect. -/
def State.fabricOut (s : State) : State :=
  let links := s.fabric.links.map Prod.fst
  let s := links.foldl (fun (s : State) l => (((s.passTimeout l).ackTimeout l).acceptTimeout l).commitTimeout l) s
  let s := s.loseReqs none (s.fabric.reqs.filter (fun r => r.got.isNone && r.fail.isNone && s.reqLate r))
  let lost := s.fabric.pairs.flatMap (fun (p : Nat × Pair) =>
    (p.2.out.filter (fun o => o.status.isNone && o.at_.toNat + 100000 < s.ptime.toNat)).map (fun o => (p.1, o.n)))
  let s := lost.foldl (fun (s : State) q => s.setEntry q.1 q.2 qsLinkLost) s
  s.loseSends (fun x => x.at_.toNat + 100000 < s.ptime.toNat)

/-- What has run out at the parameter nodes by now takes effect: deadlines in the order in which they were set. -/
def State.nodesOut (s : State) : State :=
  (s.parts.flatMap (fun (x : Nat × Part) => x.2.tensors.map (fun (t : Nat × Tensor) => (x.1, t.1)))).foldl
    (fun (s : State) q =>
      let p : PartNo := BitVec.ofNat 6 q.1
      let n : Byte := BitVec.ofNat 8 q.2
      let s := (s.tensor q.1 q.2).deadlines.foldl (fun (s : State) d => evStepDeadline p n d.1 s) s
      let x := s.tensor q.1 q.2
      let s := if s.standsBy x && x.unnoticed.any (fun c => c.at_.toNat + x.tfail ≤ s.ptime.toNat) then s.takeOver q.1 q.2 else s
      evPnFenced p n s) s

/-- Lending boundaries that package time stands at take effect (R381). -/
def State.lendOut (s : State) : State := (List.range 4).foldl (fun (s : State) e => evLendingBoundary (BitVec.ofNat 2 e) s) s

/-- Every limit that has run out, and a lending boundary, takes effect before package time moves on. -/
def State.limitsOut (s : State) : State := s.fabricOut.nodesOut.slotsOut.lendOut

end Sys2Proof.Machine
end

