-- ==== Sys2Proof/Machine/ModuleBlock.lean ====
section
/-! DEFINITION. The module block of the register aperture (R344 to R347, R357, R379, R390, R441): what it
reads, and the host's writes of it and of the partition blocks. -/

namespace Sys2Proof.Machine

/-- The offset of the module block in the aperture (R345). -/
def moduleBase : Nat := 0x8000000000

/-! ### Assignment (R343, R344) -/

/-- The partition or the V bit in bits [5:0] differs. -/
def reassigns (old new : W64) : Bool := field old 5 0 != field new 5 0

/-- UNITPART of unit u. -/
def State.writeUnitpart (s : State) (u : Nat) (v : W64) : State :=
  let old := Table.get 0 s.assign.unit u
  let w := v &&& 0x13F
  let supTaken := s.assign.unit.any (fun e => e.1 != u && e.2.getLsbD 8 && e.2.getLsbD 5 && field e.2 4 0 == field w 4 0)
  if 560 ≤ u || (reassigns old w && (!s.unitIdle u || s.unitSaved u)) then s
  else if w.getLsbD 8 && (!w.getLsbD 5 || supTaken) then s
  else { s with assign := { s.assign with unit := Table.set s.assign.unit u w } }

/-- OPORTPART of optical port k. -/
def State.writeOportpart (s : State) (k : Nat) (v : W64) : State :=
  let old := Table.get 0 s.assign.oport k
  let w := v &&& 0x3F3F
  if 80 ≤ k || (reassigns old w && s.portUsed k false) || (reassigns (old >>> 8) (w >>> 8) && s.portUsed k true) then s
  else { s with assign := { s.assign with oport := Table.set s.assign.oport k w } }

/-- The saved state of sequencer context x. -/
def State.seqSaved (s : State) (x : Nat) : Bool :=
  s.parts.any (fun (p : Nat × Part) => p.2.saved.any (fun v => v.ctx.any (fun c => c.1 == x)))

/-- SEQPART of sequencer context x. -/
def State.writeSeqpart (s : State) (x : Nat) (v : W64) : State :=
  let old := Table.get 0 s.assign.seq x
  let w := v &&& 0x3F
  if 8 ≤ x || (reassigns old w && ((s.seqOf x).loaded || s.seqSaved x)) then s
  else { s with assign := { s.assign with seq := Table.set s.assign.seq x w } }

/-- VFPART of virtual function n. -/
def State.writeVfpart (s : State) (n : Nat) (v : W64) : State :=
  let w := v &&& 0x1FF3F
  let taken := s.assign.vf.any (fun e => e.1 != n && e.2.getLsbD 5 && field e.2 4 0 == field w 4 0 && field e.2 16 8 == field w 16 8)
  if 384 ≤ n || 384 ≤ field w 16 8 || (w.getLsbD 5 && taken) then s
  else { s with assign := { s.assign with vf := Table.set s.assign.vf n w } }

/-! ### Package time (R346, R347) -/

/-- The slots of entry e that fall before time t come, as overruns. -/
def State.passSlots (s : State) (t : Nat) (e : Nat) : State :=
  let x := s.slotEntry e
  let passed := if x.period = 0 then (match x.due with
      | some d => if d < t then 1 else 0
      | none => 0)
    else (t + x.period - 1 - x.w2.toNat) / x.period - x.next
  if !x.valid || passed = 0 then s
  else
    -- OVR and MISS saturate long before the last of so many
    let s := (List.range (Nat.min passed 65540)).foldl (fun (s : State) _ => s.slotComes e true) s
    s.setSlot e { s.slotEntry e with next := x.next + passed }

/-- The boundaries of context x that fall before time t, from that of its next segment on, are late (R327). -/
def State.passBoundary (s : State) (t : Nat) (x : Nat) : State :=
  let q := s.seqOf x
  match q.next with
  | some c =>
    if !q.loaded || q.status != 0 || t ≤ q.boundary c then s
    else
      let n := (t + q.step - 1 - q.origin.toNat) / q.step
      -- the count and MISS saturate long before the last of so many
      (List.range (Nat.min (n - c) 65540)).foldl (fun (s : State) _ =>
        ({ s with optics := { s.optics with late := satInc s.optics.late } }).seqFault x clsSeqLate 0 (circSubject x 0 0 0))
        (s.setSeq x { q with next := some n })
  | none => s

/-- One forward step of package time; what falls due in the sequencer by the new time takes effect (R318). -/
def State.forwardStep (s : State) (d : W64) : State :=
  let s : State := { s with ptime := s.ptime + d, clock := { s.clock with slew := 0, frac := 0 } }
  let s := (List.range 8).foldl (fun (s : State) x => s.passBoundary s.ptime.toNat x) s
  ((s.slotTable.map Prod.fst).foldl (fun (s : State) e => s.passSlots s.ptime.toNat e) s).fabricDue

/-- PTCTL: a reserved source or port leaves it unchanged. -/
def State.writePtctl (s : State) (v : W64) : State :=
  if field v 1 0 = 3 || 15 < field v 7 2 then s
  else
    let s : State := { s with clock := { s.clock with ptctl := v &&& 0x1FF } }
    if v.getLsbD 8 && 0 < s.clock.ptoff.toInt then s.forwardStep s.clock.ptoff else s

/-- PTOFF: the offset is made up by the rate where the host is the source. -/
def State.writePtoff (s : State) (v : W64) : State :=
  let c := { s.clock with ptoff := v }
  { s with clock := if field c.ptctl 1 0 = 2 then { c with slew := v.toInt } else c }

/-- PTP_MESSAGE: the offset from the master, measured on the port that PTCTL names, is made up by the rate (DEDUCED, log
entry 32). -/
def evPtpMessage (off : BitVec 32) (port : BitVec 4) (s : State) : State :=
  let c := s.clock
  if field c.ptctl 1 0 ≠ 1 || field c.ptctl 7 2 ≠ port.toNat then s
  else { s with clock := { c with
    ptstat := off.setWidth 64
    slew := -off.toInt
    within := if off.toInt.natAbs ≤ 100 then some (c.within.getD s.ptime) else none } }

/-- PTSTAT: LOCK once the measured offset has stayed within 100 ns for 1 s. -/
def Clock.status (c : Clock) (now : W64) : W64 :=
  let locked := match c.within with
    | some t => decide (t.toNat + 10 ^ 9 ≤ now.toNat)
    | none => false
  BitVec.ofNat 64 (c.ptstat.toNat % 2 ^ 32 + locked.toNat * 2 ^ 32)

/-! ### The launch table (R357) -/

/-- The number of the first slot of an entry that does not lie before now. -/
def SlotEntry.firstFrom (x : SlotEntry) (now : Nat) : Nat :=
  if now ≤ x.w2.toNat then 0
  else if x.period = 0 then 1
  else (now - x.w2.toNat + x.period - 1) / x.period

/-- A write of word k of entry e; POL = 3 is reserved and leaves word 0 unchanged. -/
def State.writeSlot (s : State) (e k : Nat) (v : W64) : State :=
  let x := s.slotEntry e
  let now := s.ptime.toNat
  match k with
  | 0 =>
    if field v 2 1 = 3 then s
    else
      let y : SlotEntry := { x with w0 := v &&& 0x7FF }
      let y : SlotEntry := if y.valid && !x.valid then { y with next := y.firstFrom now, waiting := false, full := none, last := none } else y
      s.setSlot e (if y.valid then y else { y with waiting := false })
  | 1 => s.setSlot e { x with w1 := v &&& 0x01FFFFFFFFFFFFFF }
  | 2 =>
    let y : SlotEntry := { x with w2 := v }
    s.setSlot e { y with next := y.firstFrom now }
  | _ =>
    let y : SlotEntry := { x with w3 := v }
    s.setSlot e { y with next := y.firstFrom now }

/-! ### Fabric registers (R379, R388, R390) -/

/-- PCFG of port p: the mode waits for a lending boundary; a reserved MODE changes nothing. -/
def State.writePcfg (s : State) (p : Nat) (v : W64) : State :=
  if 16 ≤ p || field v 1 0 = 3 then s
  else { s with fabric := { s.fabric with pcfgNext := Table.set s.fabric.pcfgNext p (v &&& 7) } }

/-- KSW of link l: a KEYSW marker under the old slot, and every later flit under the other (R388). -/
def State.writeKsw (s : State) (l : Nat) (v : W64) : State :=
  if !v.getLsbD 0 || !(s.link l).up then s
  else
    let s := s.sendOwn l typeKeysw .none
    let x := s.link l
    if x.up then s.setLink l { x with txSlot := !x.txSlot } else s

/-- FECCTL of link l: PROPOSE (R390). A reserved code is ignored. -/
def State.writeFecctl (s : State) (l : Nat) (v : W64) : State :=
  let c : BitVec 2 := v.setWidth 2
  if 2 ≤ c.toNat || !(s.link l).up then s
  else
    let s := s.sendOwn l typePropose (.fec c)
    let x := s.link l
    if x.up && x.fecProp.isNone then s.setLink l { x with fecProp := some (c, s.ptime) } else s

/-- Word k of a key slot: four words of key, one with the salt. A write clears its counter. -/
def KeySlot.put (x : KeySlot) (k : Nat) (v : W64) : KeySlot :=
  if k < 4 then
    let old := x.key.toNat / 2 ^ (64 * k) % 2 ^ 64
    { x with key := BitVec.ofNat 256 (x.key.toNat - old * 2 ^ (64 * k) + v.toNat * 2 ^ (64 * k)), counter := 0 }
  else if k = 4 then { x with salt := v.setWidth 32, counter := 0 }
  else x

def State.writeKey (s : State) (rx : Bool) (n k : Nat) (v : W64) : State :=
  let f := s.fabric
  { s with fabric := if rx then { f with keyRx := Table.set f.keyRx n ((Table.get KeySlot.reset f.keyRx n).put k v) }
    else { f with keyTx := Table.set f.keyTx n ((Table.get KeySlot.reset f.keyTx n).put k v) } }

/-! ### Service registers (R439, R441) -/

/-- PCAP: 800 W to 3,200 W. -/
def State.writePcap (s : State) (v : W64) : State :=
  let w := field v 11 0
  if w < 800 || 3200 < w then s else { s with service := { s.service with pcap := BitVec.ofNat 12 w } }

def Service.measurement (x : Service) (i : Nat) : BitVec 384 := Table.get 0 x.meas i

/-- Register i is extended. -/
def Service.extend (x : Service) (i : Nat) (digest : BitVec 384) : Service :=
  { x with meas := Table.set x.meas i (extendMeasure (x.measurement i) digest) }

/-- The staged digest: its bytes in order, the first the most significant of the number. -/
def Service.stagedDigest (x : Service) : BitVec 384 :=
  BitVec.ofNat 384 (((List.range 6).flatMap (fun i => toBytes 8 (Table.get 0 x.staged i).toNat)).foldl
    (fun n b => n * 256 + b.toNat) 0)

/-- MEXT: register 4 + j is extended with the staged digest, and the staging words are cleared. -/
def State.writeMext (s : State) (v : W64) : State :=
  { s with service := { (s.service.extend (4 + field v 1 0) s.service.stagedDigest) with staged := [] } }

/-! ### The block as a whole -/

/-- The host clears marks of faulty ports: those of the bits that are 1 (R338; DESIGN CHOICE, log entry 88). -/
def State.clearMarks (s : State) (o : Nat) (v : W64) : State :=
  let x := s.optics
  if o = Config.markOffset 0 then { s with optics := { x with bad0 := x.bad0 &&& ~~~v } }
  else if o = Config.markOffset 1 then { s with optics := { x with bad1 := x.bad1 &&& ~~~(v.setWidth 16) } }
  else s

/-- The word at offset o of the module block. -/
def State.moduleRead (s : State) (o : Nat) : W64 :=
  let f := s.fabric
  let x := s.service
  if o = 0 then s.clock.ptctl
  else if o = 8 then s.clock.ptoff
  else if o = 0x10 then s.clock.status s.ptime
  else if 0x1000 ≤ o && o < 0x1000 + 8 * 560 then Table.get 0 s.assign.unit ((o - 0x1000) / 8)
  else if 0x3000 ≤ o && o < 0x3000 + 8 * 80 then Table.get 0 s.assign.oport ((o - 0x3000) / 8)
  else if 0x3400 ≤ o && o < 0x3400 + 8 * 8 then Table.get 0 s.assign.seq ((o - 0x3400) / 8)
  else if 0x4000 ≤ o && o < 0x4000 + 8 * 384 then Table.get 0 s.assign.vf ((o - 0x4000) / 8)
  else if 0x10000 ≤ o && o < 0x18000 then
    let y := s.slotEntry ((o - 0x10000) / 32)
    match o / 8 % 4 with
    | 0 => y.w0
    | 1 => y.w1
    | 2 => y.w2
    | _ => y.w3
  else if o = 0x20000 then BitVec.ofNat 64 (f.modnum.toNat + f.pod.toNat * 64)
  else if 0x20100 ≤ o && o < 0x20180 then Table.get 0 f.pcfg ((o - 0x20100) / 8)
  else if 0x20200 ≤ o && o < 0x20220 then Table.get 0 f.veqcfg ((o - 0x20200) / 8)
  else if 0x21000 ≤ o && o < 0x21800 then Table.get 0 f.path ((o - 0x21000) / 8)
  else if 0x22000 ≤ o && o < 0x22800 then
    let l := s.link ((o - 0x22000) / 8)
    BitVec.ofNat 64 (l.txSlot.toNat + l.rxSlot.toNat * 2)
  else if 0x23000 ≤ o && o < 0x23800 then
    let l := s.link ((o - 0x23000) / 8)
    BitVec.ofNat 64 (l.fecTx.toNat + l.fecRx.toNat * 4 + l.fecOut.toNat * 16)
  else if o = 0x40000 then
    let p := match x.power with
      | .p0 => 0
      | .p1 => 1
      | .p2 => 2
      | .trip => 3
    BitVec.ofNat 64 (p + x.mhz.toNat * 4 + x.watts.toNat * 2 ^ 32)
  else if o = 0x40008 then x.temps.setWidth 64
  else if o = 0x40010 then BitVec.ofNat 64 (x.flow.toNat + x.drop.toNat * 2 ^ 16)
  else if o = 0x40018 then x.pcap.setWidth 64
  else 0

/-- A host write of the word at offset o of the module block. -/
def State.moduleWrite (s : State) (o : Nat) (v : W64) : State :=
  let f := s.fabric
  if o = 0 then s.writePtctl v
  else if o = 8 then s.writePtoff v
  else if 0x1000 ≤ o && o < 0x1000 + 8 * 560 then s.writeUnitpart ((o - 0x1000) / 8) v
  else if 0x3000 ≤ o && o < 0x3000 + 8 * 80 then s.writeOportpart ((o - 0x3000) / 8) v
  else if 0x3400 ≤ o && o < 0x3400 + 8 * 8 then s.writeSeqpart ((o - 0x3400) / 8) v
  else if 0x4000 ≤ o && o < 0x4000 + 8 * 384 then s.writeVfpart ((o - 0x4000) / 8) v
  else if 0x10000 ≤ o && o < 0x18000 then s.writeSlot ((o - 0x10000) / 32) (o / 8 % 4) v
  else if o = 0x20000 then { s with fabric := { f with modnum := v.setWidth 6, pod := v.getLsbD 6 } }
  else if 0x20100 ≤ o && o < 0x20180 then s.writePcfg ((o - 0x20100) / 8) v
  else if 0x20200 ≤ o && o < 0x20220 then
    { s with fabric := { f with veqcfg := Table.set f.veqcfg ((o - 0x20200) / 8) (v &&& 0x7FFFFFFFFFE00000) } }
  else if 0x21000 ≤ o && o < 0x21800 then
    { s with fabric := { f with path := Table.set f.path ((o - 0x21000) / 8) (v &&& 0x7F) } }
  else if 0x22000 ≤ o && o < 0x22800 then s.writeKsw ((o - 0x22000) / 8) v
  else if 0x23000 ≤ o && o < 0x23800 then s.writeFecctl ((o - 0x23000) / 8) v
  else if 0x24000 ≤ o && o < 0x2C000 then s.writeKey false ((o - 0x24000) / 64) (o / 8 % 8) v
  else if 0x2C000 ≤ o && o < 0x34000 then s.writeKey true ((o - 0x2C000) / 64) (o / 8 % 8) v
  else if o = 0x40018 then s.writePcap v
  else if 0x40020 ≤ o && o < 0x40050 then
    { s with service := { s.service with staged := Table.set s.service.staged ((o - 0x40020) / 8) v } }
  else if o = 0x40050 then s.writeMext v
  else if o = 0x10 || (0x40000 ≤ o && o < 0x40020) then s
  else s.clearMarks o v

/-- A host write of an aperture word (R345): of a partition's block, or of the module block. -/
def State.hostWrite (s : State) (off : Nat) (v : W64) : State :=
  if off % 8 ≠ 0 then s
  else if off < 2 ^ 37 then s.partWrite (off / 2 ^ 32) (off % 2 ^ 32) v
  else if moduleBase ≤ off then s.moduleWrite (off - moduleBase) v
  else s

/-! ### The host's writes -/

def evApertureWrite (off : BitVec 40) (v : BitVec 64) (s : State) : State := s.whenUp (s.hostWrite off.toNat v)
def evUnitpartWrite (i : BitVec 10) (v : BitVec 64) (s : State) : State := s.whenUp (s.writeUnitpart i.toNat v)
def evOportpartWrite (i : BitVec 7) (v : BitVec 64) (s : State) : State := s.whenUp (s.writeOportpart i.toNat v)
def evSeqpartWrite (i : BitVec 3) (v : BitVec 64) (s : State) : State := s.whenUp (s.writeSeqpart i.toNat v)
def evVfpartWrite (i : BitVec 9) (v : BitVec 64) (s : State) : State := s.whenUp (s.writeVfpart i.toNat v)

/-- A register of a partition's block is reached only for a partition of the module (R343). -/
def State.ofPart (s : State) (p : PartNo) (t : State) : State := if s.isUp && p.toNat < 32 then t else s

def evPolicyWrite (p : PartNo) (v : BitVec 64) (s : State) : State := s.ofPart p (s.writePolicy p.toNat v)
def evFrtWrite (p : PartNo) (v : BitVec 64) (s : State) : State := s.ofPart p (s.writeFrt p.toNat v)
def evCntWrite (p : PartNo) (c : BitVec 14) (v : BitVec 64) (s : State) : State := s.ofPart p (s.writeCounter p.toNat c.toNat v)

/-- A pair's register, through the block of the partition that owns its forager. -/
def State.ofPair (s : State) (p : PartNo) (q : PairRef) (t : State) : State :=
  if s.isUp && p.toNat < 32 && s.pairPart (PairRef.no q) == p.toNat then t else s

def evQpcfgWrite (p : PartNo) (q : PairRef) (v : BitVec 64) (s : State) : State := s.ofPair p q (s.writeQpcfg (PairRef.no q) v)
def evQpringWrite (p : PartNo) (q : PairRef) (v : BitVec 64) (s : State) : State := s.ofPair p q (s.writeQpring (PairRef.no q) v)
def evQperrWrite (p : PartNo) (q : PairRef) (v : BitVec 64) (s : State) : State := s.ofPair p q (s.writeQperr (PairRef.no q) v)

def evPtctlWrite (v : BitVec 64) (s : State) : State := s.whenUp (s.writePtctl v)
def evPtoffWrite (v : BitVec 64) (s : State) : State := s.whenUp (s.writePtoff v)
def evPcfgWrite (p : BitVec 4) (v : BitVec 64) (s : State) : State := s.whenUp (s.writePcfg p.toNat v)
def evKswWrite (l : LinkRef) (v : BitVec 64) (s : State) : State := s.whenUp (s.writeKsw (LinkRef.key l) v)
def evFecctlWrite (l : LinkRef) (v : BitVec 64) (s : State) : State := s.whenUp (s.writeFecctl (LinkRef.key l) v)
def evKeySlotWrite (rx : Bool) (l : LinkRef) (slot : Bool) (word : BitVec 3) (v : BitVec 64) (s : State) : State :=
  s.whenUp (s.writeKey rx (slotKey (LinkRef.key l) slot) word.toNat v)
def evPcapWrite (v : BitVec 64) (s : State) : State := s.whenUp (s.writePcap v)
def evMext (v : BitVec 64) (s : State) : State := s.whenUp (s.writeMext v)

end Sys2Proof.Machine
end

