-- ==== Sys2Proof/Machine/Service.lean ====
section
/-! DEFINITION. Errors that come about by themselves (R86, R175, R229, R250, R267, R284, R417), the host's
memory accesses (R342), and module service: power, bring-up, attestation and telemetry (R435 to R441). -/

namespace Sys2Proof.Machine

/-! ### Errors in strands, cores and clusters -/

def Core.countError (c : Core) : Core := { c with corrected := c.corrected + 1 }

/-- STRAND_ECC_ERROR. A register found bad stops the strand that reads it; a store-queue entry found bad at
its turn poisons its target bytes, and the result of an atomic is then POISON; any other queue entry stops the
strand. Each is an uncorrectable error of a rule strand (R422). -/
def evStrandEccError (u : UnitNo) (k : StrandNo) (e : StrandErr) (s : State) : State :=
  let t := s.strand u k
  match e with
  | .register name => if t.takesFaults then s.stopStrand u k name.toNat else s
  | .storeEntry seq =>
    match t.sq with
    | [] => s
    | q :: _ =>
      if q.seq != seq then s
      else if q.kind.keys.isEmpty then (if t.takesFaults then s.stopStrand u k (seq % 2 ^ 40 + 2 ^ 40) else s)
      else
        let s := s.poisonKeys (q.kind.keys.filter (fun a => a < 2 ^ 62 && !isFar a))
        let s := s.setStrand u k { s.strand u k with ruleErr := t.ruleErr || t.rule.isSome }
        match q.kind with
        | .atomic a _ => (s.markBad u k ⟨seq, a.dst, false, causePoison, a.ea, a.pc⟩).pop u k seq
        | _ => s.pop u k seq
  | .loadEntry seq =>
    if t.takesFaults && t.lq.any (fun q => q.seq == seq) then s.stopStrand u k (seq % 2 ^ 40 + 2 ^ 41) else s

/-- A CORE fault of a unit's partition (R175). -/
def State.coreFault (s : State) (u : UnitNo) (resource : Nat) : State :=
  s.routeFault (s.unitPart u) clsCore (Config.coreDetail resource).toNat 0 0 u 0

/-- CORE_ECC_ERROR. -/
def evCoreEccError (u : UnitNo) (e : CoreErr) (s : State) : State :=
  let c := s.core u
  match e with
  | .corrected => s.setCore u c.countError
  | .spad addr => s.poisonKeys [spadKey u.toNat addr.toNat]
  | .tile t row lane => s.setCore u { c with badElems := (64 * (64 * t.toNat + row.toNat) + lane.toNat) :: c.badElems }
  | .queueEntry q n =>
    let x := c.queue q.toNat
    s.setCore u (c.setQueue q.toNat { x with entries := x.entries.map (fun (en : QEntry) => if en.num == n then { en with bad := true } else en) })
  | .barrier b => (s.setCore u (c.setBarrier b.toNat { c.barrier b.toNat with frozen := true })).coreFault u 1
  | .timeline q => (s.setCore u (c.setQueue q.toNat { c.queue q.toNat with frozen := true })).coreFault u 2
  | .tensor t => s.setCore u { c with badTids := t.toNat :: c.badTids }
  | .region r => s.setCore u { c with badRgns := r.toNat :: c.badRgns }
  | .slot b k => s.setCore u (c.setSlot b k.toNat { c.slotOf b k.toNat with bad := true })
  | .accumulator pp => (s.setCore u (c.setAcc pp.toNat { c.acc pp.toNat with psn := true })).coreFault u 3
  | .counter n =>
    if u.toNat ≠ 512 + n.toNat / 1024 then s
    else ({ s with fabric := { s.fabric with frozenCounters := n.toNat :: s.fabric.frozenCounters } }).coreFault u 4
  | .ring p =>
    let no := PairRef.no p
    if u != pairUnit no then s else (s.setPair no { s.pairOf no with frozen := true }).coreFault u 5
  | .tlb va => s.setCore u { c.countError with tlb := c.tlb.filter (fun e => !(e.base ≤ va57 va && va57 va < e.base + e.size)) }

/-- The key of a physical address of this module in memory; none for a hole, a register or another
module's. -/
def State.hostKey (s : State) (a : Nat) : Option Nat := if a < 2 ^ 44 then s.homeKey (BitVec.ofNat 52 a) else none

/-- CLUSTER_ECC_ERROR. A corrected error is counted, and a clean line is fetched again; a TLB entry is dropped, and
counted (R306). -/
def evClusterEccError (c : ClusterNo) (e : ClusterErr) (s : State) : State :=
  match e with
  | .cleanLine => s
  | .corrected =>
    let x := s.cluster c.toNat
    s.setCluster c.toNat { x with corrected := x.corrected + 1 }
  | .tlb va =>
    let x := s.cluster c.toNat
    s.setCluster c.toNat { x with
      corrected := x.corrected + 1
      tlb := x.tlb.filter (fun e => !(e.base ≤ va57 va && va57 va < e.base + e.size)) }
  | .pinned off => s.poisonKeys [pinKey c.toNat off.toNat]
  | .dirtyLine addr =>
    match s.hostKey (addr.toNat / 128 * 128) with
    | some k => s.poisonKeys ((List.range 128).map (k + ·))
    | none => s
  | .pair core =>
    let u : UnitNo := BitVec.ofNat 10 (16 * c.toNat + core.toNat)
    let x := s.core u
    if x.pair.buf.isSome then s.setCore u { x with pair := { x.pair with bad := true } } else s
  | .group g => if (s.groupOf c.toNat g.toNat).started then s.breakGroup c.toNat g.toNat else s

/-! ### Errors at the homes (R284) -/

/-- A line of a RAW block, or a whole block, is poisoned at its home. -/
def State.poisonLine (s : State) (addr : BitVec 52) : State :=
  match s.hostKey addr.toNat with
  | none => s
  | some k =>
    let n := if Table.get 0 s.homes.blocks (k / 512) = 0 then 128 else 512
    match placeOf k with
    | .die _ | .far _ => s.poisonKeys ((List.range n).map (k / n * n + ·))
    | _ => s

/-- An error of the homes is counted. -/
def State.countHome (s : State) : State := { s with homes := { s.homes with corrected := s.homes.corrected + 1 } }

/-- MEMORY_ECC_ERROR: a corrected error is counted; a walk-cache entry is dropped, and counted; a directory record
counts as MULTI with every die in its mask, and is evicted (R284, R306). -/
def evMemoryEccError (e : MemErr) (s : State) : State :=
  match e with
  | .corrected => s.countHome
  | .line addr => s.poisonLine addr
  | .walkEntry die level va =>
    let hit (w : WalkEntry) : Bool := w.die == die.toNat && w.level == level.toNat && w.base == va57 va / 2 ^ (9 * level.toNat + 3)
    ({ s with homes := { s.homes with walk := s.homes.walk.filter (fun w => !hit w) } }).countHome
  | .record page =>
    match s.tableKey page.toNat with
    | none => s
    | some k =>
      if Table.has s.homes.dir (k / 4096) then
        let r := Table.get ⟨[], 1, 0, [], false⟩ s.homes.dir (k / 4096)
        s.evict (k / 4096) { r with multi := true, dies := s.homes.allDies }
      else s

/-- DIE_LOSS, in operation: a stack with its home agent (0 to 7), or a far-tier die (8, 9). -/
def evDieLoss (d : BitVec 4) (s : State) : State :=
  if 9 < d.toNat || !s.isUp then s
  else ({ s with homes := { s.homes with lost := d.toNat :: s.homes.lost } }).routeFault 32 clsDie d.toNat 0 0 0 0

/-! ### The host's accesses (R342) -/

/-- The keys of n bytes of this module's physical space. -/
def State.hostKeys (s : State) (addr : BitVec 52) (n : Nat) : Option (List Nat) :=
  (List.range n).mapM (fun i => s.hostKey (addr.toNat + i))

/-- How long the write log was when every slice last wrote back its dirty line of a key (R360). -/
def Homes.cleanAt (h : Homes) (k : Nat) : Nat :=
  ((h.cleaned.filter (fun c => c.1 ≤ k && k < c.1 + c.2.1)).map (fun c => c.2.2)).foldl Nat.max 0

/-- What host DMA reads of a byte: no slice is asked, so that the home may still be behind (DESIGN CHOICE, log entry 33). -/
def State.dmaByte (s : State) (k : Nat) : Byte :=
  match (s.codeLog.take (s.codeLog.length - s.homes.cleanAt k)).find? (fun e => e.1 == k) with
  | some e => if Config.homeBehind s.tick k then e.2 else s.readByte k
  | none => s.readByte k

/-- The answer to a host read of bytes: poison where their home is lost or one of them is poisoned (R284). -/
def State.hostAnswer (s : State) (addr : Nat) (ks : List Nat) (bytes : List Byte) : HostMsg :=
  if ks.any s.poisoned then .dmaRead addr [] true else .dmaRead addr bytes false

/-- HOST_DMA: at the home agents. The slices in `stale` keep what they held of the bytes written. -/
def evHostDma (write : Bool) (addr : BitVec 52) (data : List Byte) (stale : List ClusterNo) (s : State) : State :=
  if !s.isUp then s
  else match s.hostKeys addr data.length with
    | none => s
    | some ks =>
      if !write then { (s.toHost (s.hostAnswer addr.toNat ks (ks.map s.dmaByte))) with tick := s.tick + 1 }
      else if ks.any s.writeHeld then s
      else
        let old := ks.map (fun k => (k, s.readByte k))
        let keep (c : Cluster) : Cluster := { c with stale := old.foldl (fun (t : Table Byte) e =>
          if Table.has t e.1 then t else Table.set t e.1 e.2) c.stale }
        let s := stale.foldl (fun (s : State) c => s.setCluster c.toNat (keep (s.cluster c.toNat))) s
        let s := (s.writeCells (cellsOf ks data)).compress (cellsOf ks data) []
        let fresh (p : Nat × Part) : Nat × Part := (p.1, { p.2 with handles := p.2.handles.map (fun (h : Nat × BufHandle) =>
          (h.1, { h.2 with hostWrote := true })) })
        -- the homes hold the bytes now: a later DMA read finds them
        { s with codeLog := cellsOf ks data ++ s.codeLog, parts := s.parts.map fresh }

/-- CXL.mem reaches interleaved HBM and far-tier LPDDR-6 (R342). -/
def cxlMem (a : Nat) : Bool := a < 0x008000000000 || (0x010000000000 ≤ a && a < 0x030000000000)

/-- HOST_CXL_MEM_ACCESS: coherent with every slice. -/
def evHostCxlMemAccess (write : Bool) (addr : BitVec 52) (data : List Byte) (s : State) : State :=
  if !s.isUp || !cxlMem addr.toNat || !cxlMem (addr.toNat + data.length - 1) then s
  else match s.hostKeys addr data.length with
    | none => s
    | some ks =>
      if !write then s.toHost (s.hostAnswer addr.toNat ks (ks.map s.readByte))
      else if ks.any s.writeHeld then s
      else s.makeVisible 1023 (cellsOf ks data) []

/-! ### Power (R435, R436) -/

/-- The core clock: PWRSTAT reads 0 until the first change or sample; after a TRIP it is off. -/
def Service.clock (x : Service) : Nat := if x.power == .trip then 0 else if x.mhz = 0 then 1600 else x.mhz.toNat

/-- The P1 threshold (R441). -/
def Service.threshold (x : Service) : Nat := x.pcap.toNat - 100

/-- A state of P2: a die at or above 95 C, or the inlet above 45 C. -/
def tooHot (h : Heat) : Bool := 95 ≤ h.die.toNat || 45 < h.inlet.toNat

/-- CLOCK_STEP: at or above the threshold, and not too hot, the module is in P1, and its clock is lowered by 100 MHz
every 10 us, to 400 MHz at the least. -/
def evClockStep (m : PowerSample) (s : State) : State :=
  let x := s.service
  if x.power == .trip || m.watts.toNat < x.threshold || tooHot m.heat
      || (x.power == .p1 && s.ptime.toNat < x.stepAt.toNat + 10000) then s
  else { s with service := { x with power := .p1, mhz := BitVec.ofNat 11 (Nat.max 400 (x.clock - 100)), stepAt := s.ptime } }

/-- THERMAL_P2: a die at or above 95 C, or the inlet above 45 C. -/
def evThermalP2 (hot inlet : Byte) (s : State) : State :=
  let x := s.service
  if x.power == .trip || !tooHot ⟨hot, inlet⟩ then s
  else { s with service := { x with power := .p2, mhz := 400 } }

/-- ENTER_P0: below the threshold and not too hot. -/
def evEnterP0 (watts : BitVec 16) (heat : Heat) (s : State) : State :=
  let x := s.service
  if x.power == .trip || x.threshold ≤ watts.toNat || tooHot heat then s
  else { s with service := { x with power := .p0, mhz := 1600 } }

/-- TRIP: every partition receives a DIE fault, and then the power is gone; what fuses hold stays. -/
def evTrip (hot : Byte) (lowFlow : Bool) (s : State) : State :=
  if s.service.power == .trip || (hot.toNat < 110 && !lowFlow) then s
  else
    let s := (List.range 32).foldl (fun (s : State) p => s.routeFault p clsDie 0xFF 0 0 0 0) s
    { State.reset with
      service := { Service.reset with power := .trip, rollback := s.service.rollback, out := s.service.out }
      agenda := s.agenda, tick := s.tick }

/-! ### Bring-up (R437 to R439) -/

/-- The image is accepted: key, digest and signature check, and its version is not below the count. -/
def imageOk (b : BootInfo) (rollback : W32) : Bool :=
  sha384 (beBytes 96 b.key.toNat) == Config.vendorKey && b.headerDigest == b.imageDigest
  && signatureOk b.key (sha384 (beBytes 48 b.imageDigest.toNat ++ toBytes 4 b.version.toNat)) b.signature
  && rollback.toNat ≤ b.version.toNat

/-- The dies of a screening mask. -/
def diesOf (mask n first : Nat) : List Nat := ((List.range n).filter (fun d => mask.testBit d)).map (first + ·)

/-- BOOT: power-on, and the steps of bring-up up to the reset of every partition. An image that fails leaves the module
in recovery. -/
def evBoot (b : BootInfo) (s : State) : State :=
  let count := s.service.rollback
  let t : State := { State.reset with agenda := s.agenda, tick := s.tick }
  if !imageOk b count then { t with service := { t.service with rollback := count, recovery := true } }
  else
    let x := { t.service with booted := true, rollback := if count.toNat < b.version.toNat then b.version else count }
    let x := (((x.extend 0 b.measured).extend 1 b.imageDigest).extend 2 b.microcode).extend 3 b.screening
    { t with
      service := x
      homes := { t.homes with
        present := diesOf b.dies.toNat 8 0
        farPresent := diesOf b.farDies.toNat 2 8
        cxl := [(0, b.cxl0.toNat), (1, b.cxl1.toNat)] }
      optics := { t.optics with bad0 := b.badPorts.setWidth 64, bad1 := (b.badPorts >>> 64).setWidth 16 } }

/-! ### Attestation (R440): SPDM over MCTP -/

/-- An answer of the management interface, while the module has power. -/
def State.spdm (s : State) (m : HostMsg) : State := if s.service.power == .trip then s else s.toHost m

/-- SPDM 1.2, as VERSION and as the later messages name it (PRESUMED, log entry 31). -/
def spdmVersion12 : BitVec 16 := 0x1200
def spdmMessage12 : BitVec 8 := 0x12

def evGetVersion (s : State) : State := s.spdm (.spdmVersion [spdmVersion12])
def evGetCapabilities (s : State) : State := s.spdm (.spdmCapabilities spdmMessage12)

/-- The device key's certificates, under the vendor key as their root (R439). -/
def evGetCertificate (s : State) : State := s.spdm (.spdmCertificate Config.vendorKey Config.deviceChain)

/-- ecdsa_brainpoolP384r1tls13_sha384, and SPDM's bits of SHA-384 as measurement hash and as base hash (PRESUMED, log
entry 31). -/
def brainpoolSig : BitVec 32 := 0x081B
def spdmMeas384 : BitVec 32 := 0x4
def spdmSha384 : BitVec 32 := 0x2

/-- NEGOTIATE_ALGORITHMS. -/
def evNegotiateAlgorithms (offered : List (BitVec 32)) (s : State) : State :=
  if s.service.power == .trip then s
  else
    let ok := offered.contains brainpoolSig
    let s : State := { s with service := { s.service with negotiated := ok } }
    s.toHost (if ok then .spdmAlgorithms spdmMeas384 spdmSha384 0 brainpoolSig else .spdmError)

/-- The eight measurement registers. -/
def Service.registers (x : Service) : List (BitVec 384) := (List.range 8).map x.measurement

/-- CHALLENGE. -/
def evChallenge (nonce : BitVec 256) (s : State) : State :=
  s.spdm (if s.service.negotiated then .spdmChallengeAuth nonce (Config.sign nonce []) else .spdmError)

/-- GET_MEASUREMENTS. -/
def evGetMeasurements (nonce : BitVec 256) (s : State) : State :=
  s.spdm (if s.service.negotiated then .spdmMeasurements nonce s.service.registers (Config.sign nonce s.service.registers)
    else .spdmError)

/-! ### Telemetry (R441) -/

/-- TELEMETRY_SAMPLE: taken within the budget of activity 4, else dropped and counted. -/
def evTelemetrySample (watts : BitVec 16) (temps : BitVec 32) (flow : BitVec 16) (dropped : Bool) (s : State) : State :=
  let x := s.service
  if x.power == .trip then s
  else if dropped || s.homes.spent 4 s.homes.agents then
    { s with service := { x with drop := if x.drop = BitVec.allOnes 32 then x.drop else x.drop + 1 } }
  else
    let s := s.spend 4 s.homes.agents
    { s with service := { x with watts := watts, temps := temps, flow := flow
                                 mhz := BitVec.ofNat 11 x.clock } }

end Sys2Proof.Machine
end

