-- ==== Sys2Proof/Machine/ExecEvents.lean ====
section
/-! DEFINITION. The meaning of each command, sequencer word and event: one step of the module. -/

namespace Sys2Proof.Machine

/-- PPA_APPLY_FACTOR (R236). -/
def execPpaApplyFactor (u : UnitNo) (pp : BitVec 3) (s : State) : Host.Outcome State Fault Refusal :=
  .next (evPpaApplyFactor u pp s)

/-- PPA_APPLY_MERGE (R238). -/
def execPpaApplyMerge (u : UnitNo) (pp : BitVec 3) (s : State) : Host.Outcome State Fault Refusal :=
  .next (evPpaApplyMerge u pp s)

/-- PPA_APPLY_REMOVE (R240). -/
def execPpaApplyRemove (u : UnitNo) (pp : BitVec 3) (s : State) : Host.Outcome State Fault Refusal :=
  .next (evPpaApplyRemove u pp s)

/-- PPA_APPLY_SET (R233). -/
def execPpaApplySet (u : UnitNo) (pp : BitVec 3) (s : State) : Host.Outcome State Fault Refusal :=
  .next (evPpaApplySet u pp s)

/-- MMA (R210). -/
def execMma (q : QRef) (c : Cmd) (s : State) : Host.Outcome State Fault Refusal := .next (evMma q c s)

/-- MMAS (R211). -/
def execMmas (q : QRef) (c : Cmd) (s : State) : Host.Outcome State Fault Refusal := .next (evMmas q c s)

/-- MZERO (R214). -/
def execMzero (q : QRef) (c : Cmd) (s : State) : Host.Outcome State Fault Refusal := .next (evMzero q c s)

/-- MLOAD (R215). -/
def execMload (q : QRef) (c : Cmd) (s : State) : Host.Outcome State Fault Refusal := .next (evMload q c s)

/-- MDRAIN (R216). -/
def execMdrain (q : QRef) (c : Cmd) (s : State) : Host.Outcome State Fault Refusal := .next (evMdrain q c s)

/-- PACC (R263). -/
def execPacc (q : QRef) (c : Cmd) (s : State) : Host.Outcome State Fault Refusal := .next (evPacc q c s)

/-- COPY (R221). -/
def execCopy (q : QRef) (c : Cmd) (s : State) : Host.Outcome State Fault Refusal := .next (evCopy q c s)

/-- FEED (R219). -/
def execFeed (q : QRef) (c : Cmd) (s : State) : Host.Outcome State Fault Refusal := .next (evFeed q c s)

/-- FEEDM (R220). -/
def execFeedm (q : QRef) (c : Cmd) (s : State) : Host.Outcome State Fault Refusal := .next (evFeedm q c s)

/-- SEND (R336). -/
def execSend (q : QRef) (c : Cmd) (s : State) : Host.Outcome State Fault Refusal := .next (evSend q c s)

/-- GATHER (R225). -/
def execGather (q : QRef) (c : Cmd) (s : State) : Host.Outcome State Fault Refusal := .next (evGather q c s)

/-- SCATTER (R225). -/
def execScatter (q : QRef) (c : Cmd) (s : State) : Host.Outcome State Fault Refusal := .next (evScatter q c s)

/-- NOTIFY (R226). -/
def execNotify (q : QRef) (c : Cmd) (s : State) : Host.Outcome State Fault Refusal := .next (evNotify q c s)

/-- COMMAND_COMPLETE (R162). -/
def execCommandComplete (q : QRef) (s : State) : Host.Outcome State Fault Refusal := .next (evCommandComplete q s)

/-- CHAIN_TIMEOUT (R212). -/
def execChainTimeout (q : QRef) (s : State) : Host.Outcome State Fault Refusal := .next (evChainTimeout q s)

/-- PACC_DATA (R264). -/
def execPaccData (u : UnitNo) (s : State) : Host.Outcome State Fault Refusal := .next (evPaccData u s)

/-- PACC_COMMIT (R264). -/
def execPaccCommit (u : UnitNo) (s : State) : Host.Outcome State Fault Refusal := .next (evPaccCommit u s)

/-- PACC_MISMATCH (R264). -/
def execPaccMismatch (u : UnitNo) (s : State) : Host.Outcome State Fault Refusal := .next (evPaccMismatch u s)

/-- PACC_ABORT (R264). -/
def execPaccAbort (u : UnitNo) (s : State) : Host.Outcome State Fault Refusal := .next (evPaccAbort u s)

/-- PACC_WITHDRAW (R264). -/
def execPaccWithdraw (u : UnitNo) (s : State) : Host.Outcome State Fault Refusal := .next (evPaccWithdraw u s)

/-- PACC_CLOSED (R264). -/
def execPaccClosed (u : UnitNo) (s : State) : Host.Outcome State Fault Refusal := .next (evPaccClosed u s)

/-- PACC_FAULTED (R264). -/
def execPaccFaulted (u : UnitNo) (s : State) : Host.Outcome State Fault Refusal := .next (evPaccFaulted u s)

/-- PACC_PARKED (R266). -/
def execPaccParked (u : UnitNo) (s : State) : Host.Outcome State Fault Refusal := .next (evPaccParked u s)

/-- PAIR_TIMEOUT_LOWER (R264). -/
def execPairTimeoutLower (u : UnitNo) (s : State) : Host.Outcome State Fault Refusal :=
  .next (evPairTimeoutLower u s)

/-- PAIR_TIMEOUT_HIGHER (R264). -/
def execPairTimeoutHigher (u : UnitNo) (s : State) : Host.Outcome State Fault Refusal :=
  .next (evPairTimeoutHigher u s)

/-- RUN_START (R71). -/
def execRunStart (u : UnitNo) (s : State) : Host.Outcome State Fault Refusal := .next (evRunStart u s)

/-- QUANTUM_END (R73). -/
def execQuantumEnd (u : UnitNo) (s : State) : Host.Outcome State Fault Refusal := .next (evQuantumEnd u s)

/-- STRAND_WAKE (R72). -/
def execStrandWake (u : UnitNo) (k : StrandNo) (s : State) : Host.Outcome State Fault Refusal :=
  .next (evStrandWake u k s)

/-- TRAP_ENTRY (R83). -/
def execTrapEntry (u : UnitNo) (k : StrandNo) (s : State) : Host.Outcome State Fault Refusal :=
  .next (evTrapEntry u k s)

/-- LOAD_PERFORM (R120). -/
def execLoadPerform (u : UnitNo) (k : StrandNo) (s : State) : Host.Outcome State Fault Refusal :=
  .next (evLoadPerform u k s)

/-- STORE_VISIBLE (R81). -/
def execStoreVisible (u : UnitNo) (k : StrandNo) (s : State) : Host.Outcome State Fault Refusal :=
  .next (evStoreVisible u k s)

/-- ATOMIC_PERFORM (R131). -/
def execAtomicPerform (u : UnitNo) (k : StrandNo) (s : State) : Host.Outcome State Fault Refusal :=
  .next (evAtomicPerform u k s)

/-- POSTED_ATOMIC_PERFORM (R132). -/
def execPostedAtomicPerform (u : UnitNo) (k : StrandNo) (s : State) : Host.Outcome State Fault Refusal :=
  .next (evPostedAtomicPerform u k s)

/-- FAR_STORE_ARRIVE (R368). -/
def execFarStoreArrive (m : BitVec 6) (s : State) : Host.Outcome State Fault Refusal := .next (evFarStoreArrive m s)

/-- REGION_FILL (R150). -/
def execRegionFill (u : UnitNo) (region : BitVec 5) (block : BitVec 9) (s : State) : Host.Outcome State Fault Refusal :=
  .next (evRegionFill u region block s)

/-- REGSYNC_WRITEBACK (R145). -/
def execRegsyncWriteback (u : UnitNo) (k : StrandNo) (s : State) : Host.Outcome State Fault Refusal :=
  .next (evRegsyncWriteback u k s)

/-- BARR_ARRIVAL (R171). -/
def execBarrArrival (u : UnitNo) (k : StrandNo) (s : State) : Host.Outcome State Fault Refusal :=
  .next (evBarrArrival u k s)

/-- BINIT_EFFECT (R171). -/
def execBinitEffect (u : UnitNo) (k : StrandNo) (s : State) : Host.Outcome State Fault Refusal :=
  .next (evBinitEffect u k s)

/-- CNTADD_RAISE (R410). -/
def execCntaddRaise (u : UnitNo) (k : StrandNo) (s : State) : Host.Outcome State Fault Refusal :=
  .next (evCntaddRaise u k s)

/-- QARM_EFFECT (R414). -/
def execQarmEffect (u : UnitNo) (k : StrandNo) (s : State) : Host.Outcome State Fault Refusal :=
  .next (evQarmEffect u k s)

/-- CMDAREA_WRITE (R148). -/
def execCmdareaWrite (u : UnitNo) (k : StrandNo) (v : BitVec 64) (s : State) : Host.Outcome State Fault Refusal :=
  .next (evCmdareaWrite u k v s)

/-- REGION_ENTRY_WRITE (R149). -/
def execRegionEntryWrite (u : UnitNo) (k : StrandNo) (region : BitVec 5) (high : Bool) (v : BitVec 64) (s : State) : Host.Outcome State Fault Refusal :=
  .next (evRegionEntryWrite u k region high v s)

/-- MXPOS_WRITE (R206). -/
def execMxposWrite (u : UnitNo) (k : StrandNo) (v : BitVec 64) (s : State) : Host.Outcome State Fault Refusal :=
  .next (evMxposWrite u k v s)

/-- SLCFG_WRITE (R252). -/
def execSlcfgWrite (u : UnitNo) (k : StrandNo) (v : BitVec 64) (s : State) : Host.Outcome State Fault Refusal :=
  .next (evSlcfgWrite u k v s)

/-- SPLIT_CHANGE_DONE (R252). -/
def execSplitChangeDone (c : ClusterNo) (s : State) : Host.Outcome State Fault Refusal :=
  .next (evSplitChangeDone c s)

/-- XROOT_WRITE (R298). -/
def execXrootWrite (u : UnitNo) (k : StrandNo) (v : BitVec 64) (s : State) : Host.Outcome State Fault Refusal :=
  .next (evXrootWrite u k v s)

/-- REPSTAT_WRITE (R138). -/
def execRepstatWrite (u : UnitNo) (k : StrandNo) (v : BitVec 64) (s : State) : Host.Outcome State Fault Refusal :=
  .next (evRepstatWrite u k v s)

/-- GROUP_START (R260). -/
def execGroupStart (c : ClusterNo) (g : BitVec 2) (s : State) : Host.Outcome State Fault Refusal :=
  .next (evGroupStart c g s)

/-- GROUP_UNPARK (R261). -/
def execGroupUnpark (c : ClusterNo) (g : BitVec 2) (s : State) : Host.Outcome State Fault Refusal :=
  .next (evGroupUnpark c g s)

/-- GROUP_BROKEN (R258). -/
def execGroupBroken (c : ClusterNo) (g : BitVec 2) (s : State) : Host.Outcome State Fault Refusal :=
  .next (evGroupBroken c g s)

/-- MOVE_ADMIT (R277). -/
def execMoveAdmit (u : UnitNo) (k : StrandNo) (s : State) : Host.Outcome State Fault Refusal :=
  .next (evMoveAdmit u k s)

/-- MIGRATION_COMMIT (R279). -/
def execMigrationCommit (move : Nat) (s : State) : Host.Outcome State Fault Refusal :=
  .next (evMigrationCommit move s)

/-- MIGRATION_RELEASE (R279). -/
def execMigrationRelease (move : Nat) (s : State) : Host.Outcome State Fault Refusal :=
  .next (evMigrationRelease move s)

/-- MIGRATION_ABORT (R281). -/
def execMigrationAbort (e : MoveEnd) (s : State) : Host.Outcome State Fault Refusal :=
  .next (evMigrationAbort e s)

/-- BUDGET_PERIOD (R283). -/
def execBudgetPeriod (s : State) : Host.Outcome State Fault Refusal := .next (evBudgetPeriod s)

/-- TLBINV_DISPATCH (R300). -/
def execTlbinvDispatch (u : UnitNo) (k : StrandNo) (s : State) : Host.Outcome State Fault Refusal :=
  .next (evTlbinvDispatch u k s)

/-- TLBINV_ACK (R300). -/
def execTlbinvAck (u : UnitNo) (k : StrandNo) (n : BitVec 64) (die : BitVec 4) (s : State) : Host.Outcome State Fault Refusal :=
  .next (evTlbinvAck u k n die s)

/-- SQEST (R324). -/
def execSqest (x : SeqCtx) (w : SeqArg) (s : State) : Host.Outcome State Fault Refusal := .next (evSqest x w s)

/-- SQHOLD (R325). -/
def execSqhold (x : SeqCtx) (w : SeqArg) (s : State) : Host.Outcome State Fault Refusal := .next (evSqhold x w s)

/-- SQTEAR (R326). -/
def execSqtear (x : SeqCtx) (w : SeqArg) (s : State) : Host.Outcome State Fault Refusal := .next (evSqtear x w s)

/-- SQWAIT (R327). -/
def execSqwait (x : SeqCtx) (w : SeqArg) (s : State) : Host.Outcome State Fault Refusal := .next (evSqwait x w s)

/-- SQJMP (R328). -/
def execSqjmp (x : SeqCtx) (w : SeqArg) (s : State) : Host.Outcome State Fault Refusal := .next (evSqjmp x w s)

/-- SQLOOP (R328). -/
def execSqloop (x : SeqCtx) (w : SeqArg) (s : State) : Host.Outcome State Fault Refusal := .next (evSqloop x w s)

/-- SQSIG (R329). -/
def execSqsig (x : SeqCtx) (w : SeqArg) (s : State) : Host.Outcome State Fault Refusal := .next (evSqsig x w s)

/-- SQHALT (R330). -/
def execSqhalt (x : SeqCtx) (w : SeqArg) (s : State) : Host.Outcome State Fault Refusal := .next (evSqhalt x w s)

/-- SEGMENT_APPLY (R321). -/
def execSegmentApply (s : State) : Host.Outcome State Fault Refusal := .next (evSegmentApply s)

/-- LEASE_EXPIRY (R325). -/
def execLeaseExpiry (x : SeqCtx) (h : BitVec 8) (s : State) : Host.Outcome State Fault Refusal :=
  .next (evLeaseExpiry x h s)

/-- CIRCUIT_LIVE (R317). -/
def execCircuitLive (x : SeqCtx) (h : BitVec 8) (s : State) : Host.Outcome State Fault Refusal :=
  .next (evCircuitLive x h s)

/-- LASER_FAULT (R338). -/
def execLaserFault (port : BitVec 7) (detail : Byte) (s : State) : Host.Outcome State Fault Refusal :=
  .next (evLaserFault port detail s)

/-- RING_TUNING_FAULT (R338). -/
def execRingTuningFault (port : BitVec 7) (detail : Byte) (crossing : List (BitVec 11)) (s : State) : Host.Outcome State Fault Refusal :=
  .next (evRingTuningFault port detail crossing s)

/-- DBELL (R355). -/
def execDbell (p : PartNo) (v : BitVec 64) (s : State) : Host.Outcome State Fault Refusal := .next (evDbell p v s)

/-- LAUNCH_ACCEPT (R349). -/
def execLaunchAccept (p : PartNo) (ticket : BitVec 64) (s : State) : Host.Outcome State Fault Refusal :=
  .next (evLaunchAccept p ticket s)

/-- GANG_DISPATCH (R352). -/
def execGangDispatch (p : PartNo) (ticket : BitVec 64) (node : BitVec 6) (gang : Nat) (place : List UnitNo) (x : SeqCtx) (s : State) : Host.Outcome State Fault Refusal :=
  .next (evGangDispatch p ticket node gang place x s)

/-- INSTANCE_COMPLETE (R173). -/
def execInstanceComplete (u : UnitNo) (k : StrandNo) (s : State) : Host.Outcome State Fault Refusal :=
  .next (evInstanceComplete u k s)

/-- LAUNCH_COMPLETE (R359). -/
def execLaunchComplete (p : PartNo) (ticket : BitVec 64) (s : State) : Host.Outcome State Fault Refusal :=
  .next (evLaunchComplete p ticket s)

/-- LAUNCH_SLOT (R357). -/
def execLaunchSlot (e : BitVec 10) (s : State) : Host.Outcome State Fault Refusal := .next (evLaunchSlot e s)

/-- PREEMPT (R361). -/
def execPreempt (p : PartNo) (ticket : BitVec 64) (s : State) : Host.Outcome State Fault Refusal :=
  .next (evPreempt p ticket s)

/-- PREEMPT_STOP (R361). -/
def execPreemptStop (p : PartNo) (ticket : BitVec 64) (s : State) : Host.Outcome State Fault Refusal :=
  .next (evPreemptStop p ticket s)

/-- RESTORE (R361). -/
def execRestore (p : PartNo) (ticket : BitVec 64) (place : List UnitNo) (s : State) : Host.Outcome State Fault Refusal :=
  .next (evRestore p ticket place s)

/-- UNITPART_WRITE (R344). -/
def execUnitpartWrite (u : BitVec 10) (v : BitVec 64) (s : State) : Host.Outcome State Fault Refusal :=
  .next (evUnitpartWrite u v s)

/-- OPORTPART_WRITE (R344). -/
def execOportpartWrite (port : BitVec 7) (v : BitVec 64) (s : State) : Host.Outcome State Fault Refusal :=
  .next (evOportpartWrite port v s)

/-- SEQPART_WRITE (R344). -/
def execSeqpartWrite (sq : BitVec 3) (v : BitVec 64) (s : State) : Host.Outcome State Fault Refusal :=
  .next (evSeqpartWrite sq v s)

/-- VFPART_WRITE (R344). -/
def execVfpartWrite (vf : BitVec 9) (v : BitVec 64) (s : State) : Host.Outcome State Fault Refusal :=
  .next (evVfpartWrite vf v s)

/-- POLICY_WRITE (R345). -/
def execPolicyWrite (p : PartNo) (v : BitVec 64) (s : State) : Host.Outcome State Fault Refusal :=
  .next (evPolicyWrite p v s)

/-- FRT_WRITE (R345). -/
def execFrtWrite (p : PartNo) (v : BitVec 64) (s : State) : Host.Outcome State Fault Refusal :=
  .next (evFrtWrite p v s)

/-- CNT_WRITE (R399). -/
def execCntWrite (p : PartNo) (c : BitVec 14) (v : BitVec 64) (s : State) : Host.Outcome State Fault Refusal :=
  .next (evCntWrite p c v s)

/-- QPCFG_WRITE (R400). -/
def execQpcfgWrite (p : PartNo) (q : PairRef) (v : BitVec 64) (s : State) : Host.Outcome State Fault Refusal :=
  .next (evQpcfgWrite p q v s)

/-- QPRING_WRITE (R400). -/
def execQpringWrite (p : PartNo) (q : PairRef) (v : BitVec 64) (s : State) : Host.Outcome State Fault Refusal :=
  .next (evQpringWrite p q v s)

/-- QPERR_WRITE (R411). -/
def execQperrWrite (p : PartNo) (q : PairRef) (v : BitVec 64) (s : State) : Host.Outcome State Fault Refusal :=
  .next (evQperrWrite p q v s)

/-- APERTURE_WRITE (R345). -/
def execApertureWrite (off : BitVec 40) (v : BitVec 64) (s : State) : Host.Outcome State Fault Refusal :=
  .next (evApertureWrite off v s)

/-- PTCTL_WRITE (R346). -/
def execPtctlWrite (v : BitVec 64) (s : State) : Host.Outcome State Fault Refusal := .next (evPtctlWrite v s)

/-- PTOFF_WRITE (R346). -/
def execPtoffWrite (v : BitVec 64) (s : State) : Host.Outcome State Fault Refusal := .next (evPtoffWrite v s)

/-- PTP_MESSAGE (R346). -/
def execPtpMessage (off : BitVec 32) (port : BitVec 4) (s : State) : Host.Outcome State Fault Refusal :=
  .next (evPtpMessage off port s)

/-- PCFG_WRITE (R379). -/
def execPcfgWrite (p : BitVec 4) (v : BitVec 64) (s : State) : Host.Outcome State Fault Refusal :=
  .next (evPcfgWrite p v s)

/-- KSW_WRITE (R388). -/
def execKswWrite (l : LinkRef) (v : BitVec 64) (s : State) : Host.Outcome State Fault Refusal :=
  .next (evKswWrite l v s)

/-- FECCTL_WRITE (R390). -/
def execFecctlWrite (l : LinkRef) (v : BitVec 64) (s : State) : Host.Outcome State Fault Refusal :=
  .next (evFecctlWrite l v s)

/-- KEY_SLOT_WRITE (R379). -/
def execKeySlotWrite (rx : Bool) (l : LinkRef) (slot : Bool) (word : BitVec 3) (v : BitVec 64) (s : State) : Host.Outcome State Fault Refusal :=
  .next (evKeySlotWrite rx l slot word v s)

/-- LENDING_BOUNDARY (R381). -/
def execLendingBoundary (e : BitVec 2) (s : State) : Host.Outcome State Fault Refusal :=
  .next (evLendingBoundary e s)

/-- LANE_SERVE (R382). -/
def execLaneServe (e : BitVec 2) (lane : BitVec 6) (s : State) : Host.Outcome State Fault Refusal :=
  .next (evLaneServe e lane s)

/-- FLIT_DATA (R387). -/
def execFlitData (l : LinkRef) (f : Flit) (s : State) : Host.Outcome State Fault Refusal := .next (evFlitData l f s)

/-- REQ (R387). -/
def execReq (l : LinkRef) (f : Flit) (s : State) : Host.Outcome State Fault Refusal := .next (evReq l f s)

/-- RESP (R392). -/
def execResp (l : LinkRef) (f : Flit) (s : State) : Host.Outcome State Fault Refusal := .next (evResp l f s)

/-- FLIT_ACK (R387). -/
def execFlitAck (l : LinkRef) (f : Flit) (s : State) : Host.Outcome State Fault Refusal := .next (evFlitAck l f s)

/-- NAK (R387). -/
def execNak (l : LinkRef) (f : Flit) (s : State) : Host.Outcome State Fault Refusal := .next (evNak l f s)

/-- KEYSW (R388). -/
def execKeysw (l : LinkRef) (f : Flit) (s : State) : Host.Outcome State Fault Refusal := .next (evKeysw l f s)

/-- PROPOSE (R390). -/
def execPropose (l : LinkRef) (f : Flit) (s : State) : Host.Outcome State Fault Refusal := .next (evPropose l f s)

/-- ACCEPT (R390). -/
def execAccept (l : LinkRef) (f : Flit) (s : State) : Host.Outcome State Fault Refusal := .next (evAccept l f s)

/-- FEC_COMMIT (R390). -/
def execFecCommit (l : LinkRef) (f : Flit) (s : State) : Host.Outcome State Fault Refusal :=
  .next (evFecCommit l f s)

/-- DECLINE (R390). -/
def execDecline (l : LinkRef) (f : Flit) (s : State) : Host.Outcome State Fault Refusal := .next (evDecline l f s)

/-- FLIT_ACK_TIMEOUT (R387). -/
def execFlitAckTimeout (l : LinkRef) (s : State) : Host.Outcome State Fault Refusal := .next (evFlitAckTimeout l s)

/-- FLIT_PASS_DEADLINE (R387). -/
def execFlitPassDeadline (l : LinkRef) (s : State) : Host.Outcome State Fault Refusal :=
  .next (evFlitPassDeadline l s)

/-- FEC_ACCEPT_TIMEOUT (R390). -/
def execFecAcceptTimeout (l : LinkRef) (s : State) : Host.Outcome State Fault Refusal :=
  .next (evFecAcceptTimeout l s)

/-- FEC_WAIT_EXPIRY (R390). -/
def execFecWaitExpiry (l : LinkRef) (s : State) : Host.Outcome State Fault Refusal := .next (evFecWaitExpiry l s)

/-- LINK_DOWN (R389). -/
def execLinkDown (l : LinkRef) (detail : Byte) (s : State) : Host.Outcome State Fault Refusal :=
  .next (evLinkDown l detail s)

/-- FAR_ACCESS_TIMEOUT (R392). -/
def execFarAccessTimeout (id : Nat) (s : State) : Host.Outcome State Fault Refusal :=
  .next (evFarAccessTimeout id s)

/-- UET_PACKET (R395). -/
def execUetPacket (p : UetPacket) (s : State) : Host.Outcome State Fault Refusal := .next (evUetPacket p s)

/-- ENTRY_FIRE (R401). -/
def execEntryFire (p : PairRef) (s : State) : Host.Outcome State Fault Refusal := .next (evEntryFire p s)

/-- WRITE (R405). -/
def execWrite (p : PairRef) (piece : Nat) (s : State) : Host.Outcome State Fault Refusal :=
  .next (evWrite p piece s)

/-- WRED (R406). -/
def execWred (p : PairRef) (piece : Nat) (s : State) : Host.Outcome State Fault Refusal := .next (evWred p piece s)

/-- ORDERED_COMBINE (R407). -/
def execOrderedCombine (p : PairRef) (s : State) : Host.Outcome State Fault Refusal := .next (evOrderedCombine p s)

/-- ENTRY_RETIRE (R411). -/
def execEntryRetire (p : PairRef) (s : State) : Host.Outcome State Fault Refusal := .next (evEntryRetire p s)

/-- PNB (R420). -/
def execPnb (p : PairRef) (s : State) : Host.Outcome State Fault Refusal := .next (evPnb p s)

/-- RULE_START (R422). -/
def execRuleStart (p : PartNo) (t : Byte) (b : BitVec 10) (u : UnitNo) (k : StrandNo) (s : State) : Host.Outcome State Fault Refusal :=
  .next (evRuleStart p t b u k s)

/-- BLOCK_COMMIT (R422). -/
def execBlockCommit (p : PartNo) (t : Byte) (b : BitVec 10) (s : State) : Host.Outcome State Fault Refusal :=
  .next (evBlockCommit p t b s)

/-- PN_NOTICE (R428). -/
def execPnNotice (p : PartNo) (t : Byte) (s : State) : Host.Outcome State Fault Refusal := .next (evPnNotice p t s)

/-- PN_ACK (R428). -/
def execPnAck (p : PartNo) (t : Byte) (s : State) : Host.Outcome State Fault Refusal := .next (evPnAck p t s)

/-- PN_DEMOTE (R428). -/
def execPnDemote (p : PartNo) (t : Byte) (s : State) : Host.Outcome State Fault Refusal := .next (evPnDemote p t s)

/-- PN_TAKEOVER (R428). -/
def execPnTakeover (p : PartNo) (t : Byte) (s : State) : Host.Outcome State Fault Refusal :=
  .next (evPnTakeover p t s)

/-- PN_FENCED (R428). -/
def execPnFenced (p : PartNo) (t : Byte) (s : State) : Host.Outcome State Fault Refusal := .next (evPnFenced p t s)

/-- STEP_DEADLINE (R427). -/
def execStepDeadline (p : PartNo) (t : Byte) (step : BitVec 48) (s : State) : Host.Outcome State Fault Refusal :=
  .next (evStepDeadline p t step s)

/-- PNCFG_EFFECT (R431). -/
def execPncfgEffect (u : UnitNo) (k : StrandNo) (s : State) : Host.Outcome State Fault Refusal :=
  .next (evPncfgEffect u k s)

/-- STRAND_ECC_ERROR (R86). -/
def execStrandEccError (u : UnitNo) (k : StrandNo) (e : StrandErr) (s : State) : Host.Outcome State Fault Refusal :=
  .next (evStrandEccError u k e s)

/-- CORE_ECC_ERROR (R175). -/
def execCoreEccError (u : UnitNo) (e : CoreErr) (s : State) : Host.Outcome State Fault Refusal :=
  .next (evCoreEccError u e s)

/-- DIE_LOSS (R284). -/
def execDieLoss (d : BitVec 4) (s : State) : Host.Outcome State Fault Refusal := .next (evDieLoss d s)

/-- HOST_DMA (R342). -/
def execHostDma (write : Bool) (addr : BitVec 52) (data : List Byte) (stale : List ClusterNo) (s : State) : Host.Outcome State Fault Refusal :=
  .next (evHostDma write addr data stale s)

/-- BOOT (R437). -/
def execBoot (b : BootInfo) (s : State) : Host.Outcome State Fault Refusal := .next (evBoot b s)

/-- CLOCK_STEP (R436). -/
def execClockStep (x : PowerSample) (s : State) : Host.Outcome State Fault Refusal :=
  .next (evClockStep x s)

/-- THERMAL_P2 (R436). -/
def execThermalP2 (hot inlet : Byte) (s : State) : Host.Outcome State Fault Refusal :=
  .next (evThermalP2 hot inlet s)

/-- TRIP (R436). -/
def execTrip (hot : Byte) (lowFlow : Bool) (s : State) : Host.Outcome State Fault Refusal :=
  .next (evTrip hot lowFlow s)

/-- GET_VERSION (R440). -/
def execGetVersion (s : State) : Host.Outcome State Fault Refusal := .next (evGetVersion s)

/-- GET_CAPABILITIES (R440). -/
def execGetCapabilities (s : State) : Host.Outcome State Fault Refusal := .next (evGetCapabilities s)

/-- NEGOTIATE_ALGORITHMS (R440). -/
def execNegotiateAlgorithms (offered : List (BitVec 32)) (s : State) : Host.Outcome State Fault Refusal :=
  .next (evNegotiateAlgorithms offered s)

/-- GET_CERTIFICATE (R440). -/
def execGetCertificate (s : State) : Host.Outcome State Fault Refusal := .next (evGetCertificate s)

/-- CHALLENGE (R440). -/
def execChallenge (nonce : BitVec 256) (s : State) : Host.Outcome State Fault Refusal := .next (evChallenge nonce s)

/-- GET_MEASUREMENTS (R440). -/
def execGetMeasurements (nonce : BitVec 256) (s : State) : Host.Outcome State Fault Refusal :=
  .next (evGetMeasurements nonce s)

/-- TELEMETRY_SAMPLE (R441). -/
def execTelemetrySample (watts : BitVec 16) (temps : BitVec 32) (flow : BitVec 16) (dropped : Bool) (s : State) : Host.Outcome State Fault Refusal :=
  .next (evTelemetrySample watts temps flow dropped s)

/-- PCAP_WRITE (R441). -/
def execPcapWrite (v : BitVec 64) (s : State) : Host.Outcome State Fault Refusal := .next (evPcapWrite v s)

/-- MEXT (R441). -/
def execMext (v : BitVec 64) (s : State) : Host.Outcome State Fault Refusal := .next (evMext v s)

/-- ENTER_P0 (R436). -/
def execEnterP0 (watts : BitVec 16) (heat : Heat) (s : State) : Host.Outcome State Fault Refusal :=
  .next (evEnterP0 watts heat s)

/-- MEMORY_ECC_ERROR (R284). -/
def execMemoryEccError (e : MemErr) (s : State) : Host.Outcome State Fault Refusal :=
  .next (evMemoryEccError e s)

/-- CLUSTER_ECC_ERROR (R267). -/
def execClusterEccError (c : ClusterNo) (e : ClusterErr) (s : State) : Host.Outcome State Fault Refusal :=
  .next (evClusterEccError c e s)

/-- ENTRY_ACK_TIMEOUT (R411). -/
def execEntryAckTimeout (p : PairRef) (n : BitVec 64) (s : State) : Host.Outcome State Fault Refusal :=
  .next (evEntryAckTimeout p n s)

/-- LAUNCH_SLOT_DISPATCH_TIMEOUT (R357). -/
def execLaunchSlotDispatchTimeout (e : BitVec 10) (s : State) : Host.Outcome State Fault Refusal :=
  .next (evLaunchSlotDispatchTimeout e s)

/-- HOST_CXL_MEM_ACCESS (R342). -/
def execHostCxlMemAccess (write : Bool) (addr : BitVec 52) (data : List Byte) (s : State) : Host.Outcome State Fault Refusal :=
  .next (evHostCxlMemAccess write addr data s)

end Sys2Proof.Machine
end

