-- ==== Sys2Proof/Machine/Estimates.lean ====
section
/-! DEFINITION. The estimates of R108 and R190, defined to the bit: the exact function kept to 12
fraction bits toward zero. The transcendental ones are evaluated in fixed point with `fracBits`
fraction bits, far more than any operand needs to tell its value from a cut. -/

namespace Sys2Proof.Machine

/-- The largest estimate, (2 - 2^-12) * 2^127 (R108). -/
def estMax : Nat := 0x7F7FF800

/-- A magnitude q * 2^ue as an FP32 encoding with the clamp of R108 and the flush rule. -/
def estCode (ftz s : Bool) (q : Nat) (ue : Int) : Nat :=
  let c := f32.roundTo .rtz false ftz (.fin s q ue)
  if estMax < c % 2 ^ 31 then f32.signed s estMax else c

/-- The exponent of u = 2^11 * Ulp(f32, y) for y in [2^l, 2^(l+1)) (R108). -/
def estUnit (l : Int) : Int := max (l - 23) (-149) + 11

/-- Floor(m * 2^k). -/
def floorScale (m : Nat) (k : Int) : Nat := if 0 ≤ k then m * 2 ^ k.toNat else m / 2 ^ (-k).toNat

/-- A positive dyadic value kept to 12 fraction bits toward zero. -/
def estDyadic (ftz s : Bool) (m : Nat) (e : Int) : Nat :=
  if m = 0 then f32.signed s 0
  else
    let ue := estUnit ((m.log2 : Int) + e)
    estCode ftz s (floorScale m (e - ue)) ue

/-- Floor(log2(1 / (m * 2^e))). -/
def log2Recip (m : Nat) (e : Int) : Int := if m = 2 ^ m.log2 then -e - m.log2 else -e - m.log2 - 1

/-- FRCP (R108). -/
def frcp (ftz : Bool) (x : FV) : Nat :=
  match x with
  | .nan => f32.nan
  | .inf s => f32.signed s 0
  | .fin s m e =>
    if m = 0 then f32.infinite false s
    else
      let ue := estUnit (log2Recip m e)
      let k := -e - ue
      estCode ftz s (if 0 ≤ k then 2 ^ k.toNat / m else 0) ue

/-- The integer square root, bit by bit from bit k - 1 down. -/
def isqrt (x : Nat) : Nat → Nat → Nat
  | 0, r => r
  | k + 1, r => if (r + 2 ^ k) * (r + 2 ^ k) ≤ x then isqrt x k (r + 2 ^ k) else isqrt x k r

/-- FRSQ (R108). -/
def frsq (ftz : Bool) (x : FV) : Nat :=
  match x with
  | .nan => f32.nan
  | .inf s => if s then f32.nan else 0
  | .fin s m e =>
    if m = 0 then f32.infinite false s
    else if s then f32.nan
    else
      let ue := estUnit (log2Recip m e / 2)
      let k := -e - 2 * ue
      estCode ftz false (isqrt (if 0 ≤ k then 2 ^ k.toNat / m else 0) 20 0) ue

/-- Fraction bits of the fixed-point evaluations. -/
def fracBits : Nat := 480

/-- ln 2 with 512 fraction bits. -/
def ln2 : Nat :=
  0xb17217f7d1cf79abc9e3b39803f2f6af40f343267298b62d8a0d175b8baafa2be7b876206debac98559552fb4afa1b10ed2eae35c138214427573b291169b825

/-- The sum of term * y^i * k! / (k+i)! over i, in fixed point: the tail of the exponential series. -/
def expSeries (y : Nat) : Nat → Nat → Nat → Nat → Nat
  | 0, _, _, acc => acc
  | n + 1, k, term, acc =>
    let t := term * y / 2 ^ fracBits / k
    expSeries y n (k + 1) t (acc + t)

/-- 2^t for a fixed-point t in [0, 1). -/
def pow2Frac (t : Nat) : Nat :=
  if t = 0 then 2 ^ fracBits
  else expSeries (t * ln2 / 2 ^ 512) 110 1 (2 ^ fracBits) (2 ^ fracBits)

/-- VEXP2 (R190). -/
def vexp2 (ftz : Bool) (x : FV) : Nat :=
  match x with
  | .nan => f32.nan
  | .inf s => if s then 0 else f32.infinite false false
  | .fin s m e =>
    let z : Int := (if s then -1 else 1) * (floorScale m (e + fracBits) : Nat)
    if (128 * 2 ^ fracBits : Nat) ≤ z then f32.infinite false false
    else if z < -((200 * 2 ^ fracBits : Nat) : Int) then 0
    else
      let n := z / (2 ^ fracBits : Nat)
      let f := (z % (2 ^ fracBits : Nat)).toNat
      estDyadic ftz false (pow2Frac f) (n - fracBits)

/-- The fraction bits of log2 of a fixed-point z in [1, 2), the most significant first, by repeated
squaring. -/
def log2Bits : Nat → Nat → Nat → Nat
  | 0, _, acc => acc
  | n + 1, z, acc =>
    let q := z * z / 2 ^ fracBits
    if 2 ^ (fracBits + 1) ≤ q then log2Bits n (q / 2) (2 * acc + 1) else log2Bits n q (2 * acc)

/-- VLOG2 (R190). -/
def vlog2 (ftz : Bool) (x : FV) : Nat :=
  match x with
  | .nan => f32.nan
  | .inf s => if s then f32.nan else f32.infinite false false
  | .fin s m e =>
    if m = 0 then f32.infinite false true
    else if s then f32.nan
    else
      let k := (m.log2 : Int) + e
      if m = 2 ^ m.log2 then estDyadic ftz (k < 0) k.natAbs 0
      else
        let fr := log2Bits 120 (m * 2 ^ fracBits / 2 ^ m.log2) 0
        -- the true fraction lies strictly above fr and below fr + 1, in units of 2^-120
        let y : Int := k * (2 ^ 120 : Nat) + fr
        if 0 ≤ y then estDyadic ftz false y.natAbs (-120)
        else estDyadic ftz true (2 * y.natAbs - 1) (-121)

/-- VTANH (R190). Below 2^-64 the function lies just under its operand; from 2^6 up, just under 1. -/
def vtanh (ftz : Bool) (x : FV) : Nat :=
  match x with
  | .nan => f32.nan
  | .inf s => f32.signed s 0x3F800000
  | .fin s m e =>
    if m = 0 then f32.signed s 0
    else
      let l := (m.log2 : Int) + e
      if l < -64 then estDyadic ftz s (m * 2 ^ 200 - 1) (e - 200)
      else if 6 ≤ l then estDyadic ftz s (2 ^ 200 - 1) (-200)
      else
        -- E = e^(-2x) = 2^(-2x / ln 2)
        let t := floorScale m (e + 1 + fracBits) * 2 ^ 512 / ln2
        let n := t / 2 ^ fracBits
        let f := t % 2 ^ fracBits
        -- 2^(-(n + f)) = 2^(-n) / 2^f
        let ex := 2 ^ (2 * fracBits) / pow2Frac f / 2 ^ n
        let y := (2 ^ fracBits - ex) * 2 ^ fracBits / (2 ^ fracBits + ex)
        estDyadic ftz s y (-(fracBits : Int))

end Sys2Proof.Machine
end

