-- ==== Sys2Proof/Machine/FloatScalar.lean ====
section
/-! DEFINITION. Scalar floating point (R102 to R108). -/

namespace Sys2Proof.Machine

/-- A rounding form of two operands, element by element; element e uses stream e (R102). -/
def fltForm2 (op : FFmt → Mode → Bool → Nat → Nat → Nat) (y : Syl) (s : State) (c : Ctx) : Rd Done := do
  let x ← readW s y.s1
  let z ← src2W s y
  let f := elemFmt y.ty
  let m := s.modeOf y.rm
  let d ← putW s y (packWord f.width (lanesIdx2 (wordLanes f.width x) (wordLanes f.width z)
    (fun i a b => op f (s.modeAt m c.ctr i) s.me.ftz a b)))
  .ok (d.counted m)

/-- A multiply-add form (R104). -/
def fltForm3 (negP negC : Bool) (y : Syl) (s : State) (c : Ctx) : Rd Done := do
  let x ← readW s y.s1
  let z ← src2W s y
  let a ← readW s y.s3
  let f := elemFmt y.ty
  let m := s.modeOf y.rm
  let d ← putW s y (packWord f.width (lanesIdx3 (wordLanes f.width x) (wordLanes f.width z)
    (wordLanes f.width a) (fun i p q r => fmaElem f (s.modeAt m c.ctr i) s.me.ftz negP negC p q r)))
  .ok (d.counted m)

/-- A form of one operand that does not round. -/
def fltForm1 (op : FFmt → Bool → Nat → Nat) (y : Syl) (s : State) : Rd Done := do
  let x ← readW s y.s1
  let f := elemFmt y.ty
  putW s y (packWord f.width ((wordLanes f.width x).map (op f s.me.ftz)))

def slotFadd (y : Syl) (s : State) (c : Ctx) : Rd Done :=
  fltForm2 (fun f m z => faddElem f m z false) y s c
def slotFsub (y : Syl) (s : State) (c : Ctx) : Rd Done :=
  fltForm2 (fun f m z => faddElem f m z true) y s c
def slotFmul (y : Syl) (s : State) (c : Ctx) : Rd Done := fltForm2 fmulElem y s c
def slotFabs (y : Syl) (s : State) : Rd Done := fltForm1 fabsElem y s
def slotFneg (y : Syl) (s : State) : Rd Done := fltForm1 fnegElem y s
def slotFma (y : Syl) (s : State) (c : Ctx) : Rd Done := fltForm3 false false y s c
def slotFms (y : Syl) (s : State) (c : Ctx) : Rd Done := fltForm3 false true y s c
def slotFnma (y : Syl) (s : State) (c : Ctx) : Rd Done := fltForm3 true false y s c
def slotFnms (y : Syl) (s : State) (c : Ctx) : Rd Done := fltForm3 true true y s c

/-- A compare of element 0, joined with the predicate S3 (R105). -/
def fltCmp (cond : Cond) (y : Syl) (s : State) : Rd Done := do
  let x ← readW s y.s1
  let z ← src2W s y
  let j ← readP s y.s3
  let f := elemFmt y.ty
  putP y (fCond cond (f.decode (x.toNat % 2 ^ f.width)) (f.decode (z.toNat % 2 ^ f.width)) && j)

def slotFcmpeq (y : Syl) (s : State) : Rd Done := fltCmp .eq y s
def slotFcmpne (y : Syl) (s : State) : Rd Done := fltCmp .ne y s
def slotFcmplt (y : Syl) (s : State) : Rd Done := fltCmp .lt y s
def slotFcmple (y : Syl) (s : State) : Rd Done := fltCmp .le y s
def slotFcmpgt (y : Syl) (s : State) : Rd Done := fltCmp .gt y s
def slotFcmpge (y : Syl) (s : State) : Rd Done := fltCmp .ge y s

/-- FMIN and FMAX select one operand per element (R106). -/
def fltSelect (takeMax : Bool) (y : Syl) (s : State) : Rd Done := do
  let x ← readW s y.s1
  let z ← src2W s y
  let f := elemFmt y.ty
  putW s y (packWord f.width (List.zipWith (f.select takeMax s.me.ftz) (wordLanes f.width x)
    (wordLanes f.width z)))

def slotFmin (y : Syl) (s : State) : Rd Done := fltSelect false y s
def slotFmax (y : Syl) (s : State) : Rd Done := fltSelect true y s

/-- CVT: the source in the low bits of Src1, the result in the low bits of Dst (R107). In RSTO it takes a counter value
whatever its pair of formats (R20; DESIGN CHOICE, log entry 90). -/
def slotCvt (y : Syl) (s : State) (c : Ctx) : Rd Done := do
  let x ← readW s y.s1
  let src := y.form.toNat % 16
  let dst := y.ty.toNat
  let m := s.modeOf y.rm
  let bits := convTo dst (s.modeAt m c.ctr 0) (y.form.toNat / 16 == 1) s.me.ftz
    (valOf src (x.toNat % 2 ^ codeWidth src))
  let d ← putW s y (if isFloatCode dst then BitVec.ofNat 32 bits else (ityOf dst).extend32 bits)
  .ok (d.counted m)

/-- The estimates of R108. -/
def slotFrcp (y : Syl) (s : State) : Rd Done := do
  let x ← readW s y.s1
  putW s y (BitVec.ofNat 32 (frcp s.me.ftz (f32.decode x.toNat)))

def slotFrsq (y : Syl) (s : State) : Rd Done := do
  let x ← readW s y.s1
  putW s y (BitVec.ofNat 32 (frsq s.me.ftz (f32.decode x.toNat)))

end Sys2Proof.Machine
end

