-- ==== Sys2Proof/Machine/IntArith.lean ====
section
/-! DEFINITION. The integer groups of classes A and B (R93 to R99). The twins of R50 share one
operation and have a definition each. -/

namespace Sys2Proof.Machine

/-- A two-operand form evaluated element by element (R88). -/
def intForm2 (op : Int → Int → Int) (y : Syl) (s : State) : Rd Done := do
  let x ← readW s y.s1
  let z ← src2W s y
  let t := elemTy y.ty
  putW s y (packWord t.width (intLanes t (satBit y.ty) op (wordLanes t.width x) (wordLanes t.width z)))

/-- A two-operand form on the raw bits of each element. -/
def bitForm2 (op : ITy → Nat → Nat → Nat) (y : Syl) (s : State) : Rd Done := do
  let x ← readW s y.s1
  let z ← src2W s y
  let t := elemTy y.ty
  putW s y (packWord t.width (List.zipWith (op t) (wordLanes t.width x) (wordLanes t.width z)))

/-- A one-operand form on the raw bits of each element. -/
def bitForm1 (op : ITy → Nat → Nat) (y : Syl) (s : State) : Rd Done := do
  let x ← readW s y.s1
  let t := elemTy y.ty
  putW s y (packWord t.width ((wordLanes t.width x).map (op t)))

/-- A multiply-add (R94). -/
def madForm (y : Syl) (s : State) : Rd Done := do
  let x ← readW s y.s1
  let z ← src2W s y
  let c ← readW s y.s3
  let t := elemTy y.ty
  putW s y (packWord t.width (madLanes t (satBit y.ty) (wordLanes t.width x) (wordLanes t.width z)
    (wordLanes t.width c)))

/-- A bitwise form on the whole word (R95). -/
def logicForm (op : W32 → W32 → W32) (y : Syl) (s : State) : Rd Done := do
  let x ← readW s y.s1
  let z ← src2W s y
  putW s y (op x z)

/-- NOT reads Src1 alone (R95). -/
def notForm (y : Syl) (s : State) : Rd Done := do
  let x ← readW s y.s1
  putW s y (~~~x)

/-- A shift or rotate: the amount is the natural value of the element, or LIT[5:0] (R96). -/
def shiftForm (op : ITy → Nat → Nat → Nat) (y : Syl) (s : State) : Rd Done := do
  let x ← readW s y.s1
  let z ← src2W s y
  let t := elemTy y.ty
  let amounts := if isX y then List.replicate (32 / t.width) y.lit.toNat else wordLanes t.width z
  putW s y (packWord t.width (List.zipWith (op t) (wordLanes t.width x) amounts))

/-- A compare to a predicate, joined with the predicate S3 (R99). -/
def cmpForm (cond : ITy → W32 → W32 → Bool) (y : Syl) (s : State) : Rd Done := do
  let x ← readW s y.s1
  let z ← src2W s y
  let j ← readP s y.s3
  putP y (cond (elemTy y.ty) x z && j)

/-- An integer condition on whole words (R99). -/
def wordCond (c : Cond) (t : ITy) (x z : W32) : Bool := iCond c (t.read x.toNat) (t.read z.toNat)

/-! ### Class A -/

def slotAdd (y : Syl) (s : State) : Rd Done := intForm2 (· + ·) y s
def slotSub (y : Syl) (s : State) : Rd Done := intForm2 (· - ·) y s
def slotMin (y : Syl) (s : State) : Rd Done := intForm2 min y s
def slotMax (y : Syl) (s : State) : Rd Done := intForm2 max y s
def slotAbsd (y : Syl) (s : State) : Rd Done := bitForm2 absdElem y s
def slotAbs (y : Syl) (s : State) : Rd Done := bitForm1 (fun t x => t.fit (satBit y.ty) (t.read x).natAbs) y s
def slotMul (y : Syl) (s : State) : Rd Done := intForm2 (· * ·) y s
def slotMulh (y : Syl) (s : State) : Rd Done := intForm2 (mulhInt (elemTy y.ty).width) y s
def slotMad (y : Syl) (s : State) : Rd Done := madForm y s
def slotAnd (y : Syl) (s : State) : Rd Done := logicForm (· &&& ·) y s
def slotOr (y : Syl) (s : State) : Rd Done := logicForm (· ||| ·) y s
def slotXor (y : Syl) (s : State) : Rd Done := logicForm (· ^^^ ·) y s
def slotAndn (y : Syl) (s : State) : Rd Done := logicForm (fun x z => x &&& ~~~z) y s
def slotNot (y : Syl) (s : State) : Rd Done := notForm y s
def slotShl (y : Syl) (s : State) : Rd Done := shiftForm (fun t => shlElem t (satBit y.ty)) y s
def slotShr (y : Syl) (s : State) : Rd Done := shiftForm shrElem y s
def slotRol (y : Syl) (s : State) : Rd Done := shiftForm (fun t => rolElem t.width) y s
def slotRor (y : Syl) (s : State) : Rd Done := shiftForm (fun t => rorElem t.width) y s
def slotCmpeq (y : Syl) (s : State) : Rd Done := cmpForm (wordCond .eq) y s
def slotCmpne (y : Syl) (s : State) : Rd Done := cmpForm (wordCond .ne) y s
def slotCmplt (y : Syl) (s : State) : Rd Done := cmpForm (wordCond .lt) y s
def slotCmple (y : Syl) (s : State) : Rd Done := cmpForm (wordCond .le) y s
def slotCmpgt (y : Syl) (s : State) : Rd Done := cmpForm (wordCond .gt) y s
def slotCmpge (y : Syl) (s : State) : Rd Done := cmpForm (wordCond .ge) y s
def slotTest (y : Syl) (s : State) : Rd Done := cmpForm (fun _ x z => x &&& z != 0) y s

/-! ### Class B -/

def slotAddB (y : Syl) (s : State) : Rd Done := intForm2 (· + ·) y s
def slotSubB (y : Syl) (s : State) : Rd Done := intForm2 (· - ·) y s
def slotMinB (y : Syl) (s : State) : Rd Done := intForm2 min y s
def slotMaxB (y : Syl) (s : State) : Rd Done := intForm2 max y s
def slotAbsdB (y : Syl) (s : State) : Rd Done := bitForm2 absdElem y s
def slotAbsB (y : Syl) (s : State) : Rd Done := bitForm1 (fun t x => t.fit (satBit y.ty) (t.read x).natAbs) y s
def slotMulB (y : Syl) (s : State) : Rd Done := intForm2 (· * ·) y s
def slotMulhB (y : Syl) (s : State) : Rd Done := intForm2 (mulhInt (elemTy y.ty).width) y s
def slotMadB (y : Syl) (s : State) : Rd Done := madForm y s
def slotAndB (y : Syl) (s : State) : Rd Done := logicForm (· &&& ·) y s
def slotOrB (y : Syl) (s : State) : Rd Done := logicForm (· ||| ·) y s
def slotXorB (y : Syl) (s : State) : Rd Done := logicForm (· ^^^ ·) y s
def slotAndnB (y : Syl) (s : State) : Rd Done := logicForm (fun x z => x &&& ~~~z) y s
def slotNotB (y : Syl) (s : State) : Rd Done := notForm y s
def slotShlB (y : Syl) (s : State) : Rd Done := shiftForm (fun t => shlElem t (satBit y.ty)) y s
def slotShrB (y : Syl) (s : State) : Rd Done := shiftForm shrElem y s
def slotRolB (y : Syl) (s : State) : Rd Done := shiftForm (fun t => rolElem t.width) y s
def slotRorB (y : Syl) (s : State) : Rd Done := shiftForm (fun t => rorElem t.width) y s
def slotCmpeqB (y : Syl) (s : State) : Rd Done := cmpForm (wordCond .eq) y s
def slotCmpneB (y : Syl) (s : State) : Rd Done := cmpForm (wordCond .ne) y s
def slotCmpltB (y : Syl) (s : State) : Rd Done := cmpForm (wordCond .lt) y s
def slotCmpleB (y : Syl) (s : State) : Rd Done := cmpForm (wordCond .le) y s
def slotCmpgtB (y : Syl) (s : State) : Rd Done := cmpForm (wordCond .gt) y s
def slotCmpgeB (y : Syl) (s : State) : Rd Done := cmpForm (wordCond .ge) y s
def slotTestB (y : Syl) (s : State) : Rd Done := cmpForm (fun _ x z => x &&& z != 0) y s

/-! ### A.BITF (R97, R98) -/

/-- EXT: sign-extended from the field's top bit under .i32. -/
def slotExt (y : Syl) (s : State) : Rd Done := do
  let x ← readW s y.s1
  let f ← src2W s y
  putW s y (extField x f (!bit y.ty 1))

/-- INS reads the register it writes. -/
def slotIns (y : Syl) (s : State) : Rd Done := do
  s.readable (.w y.d.toNat)
  let x ← readW s y.s1
  let f ← src2W s y
  putW s y (insField (s.me.getW y.d) x f)

def slotClz (y : Syl) (s : State) : Rd Done := bitForm1 (fun t => clzElem t.width) y s
def slotCtz (y : Syl) (s : State) : Rd Done := bitForm1 (fun t => ctzElem t.width) y s
def slotPopc (y : Syl) (s : State) : Rd Done := bitForm1 (fun t => popElem t.width) y s
def slotBrev (y : Syl) (s : State) : Rd Done := bitForm1 (fun t => brevElem t.width) y s

end Sys2Proof.Machine
end

