-- ==== Sys2Proof/Machine/Moves.lean ====
section
/-! DEFINITION. A.MOV and B.MOV (R90 to R92). -/

namespace Sys2Proof.Machine

/-- MOV and MOV_B: Dst ← Src2 (R90, R92). -/
def moveW (y : Syl) (s : State) : Rd Done := do
  let x ← src2W s y
  putW s y x

def slotMov (y : Syl) (s : State) : Rd Done := moveW y s
def slotMovB (y : Syl) (s : State) : Rd Done := moveW y s

/-- SEL: Src2 if the predicate Src1 reads 1, else Src3 (R92). -/
def slotSel (y : Syl) (s : State) : Rd Done := do
  let p ← readP s y.s1
  let x ← src2W s y
  let z ← readW s y.s3
  putW s y (if p then x else z)

def slotMova (y : Syl) (s : State) : Rd Done := do
  let x ← src2A s y
  putA s y x

/-- MOVHA: LIT in the high half, the low half of the register kept; a0 reads 0 (R90). -/
def slotMovha (y : Syl) (s : State) : Rd Done := do
  s.readable (destA y.d)
  putA s y (BitVec.ofNat 64 (y.lit.toNat * 2 ^ 32 + (s.me.getA y.d).toNat % 2 ^ 32))

def slotSxw (y : Syl) (s : State) : Rd Done := do
  let x ← src2W s y
  putA s y (sx64 x)

def slotZxw (y : Syl) (s : State) : Rd Done := do
  let x ← src2W s y
  putA s y (x.setWidth 64)

def slotMovaw (y : Syl) (s : State) : Rd Done := do
  let x ← src2A s y
  putW s y (x.setWidth 32)

def slotMovawh (y : Syl) (s : State) : Rd Done := do
  let x ← src2A s y
  putW s y (BitVec.ofNat 32 (x.toNat / 2 ^ 32))

def slotMovpw (y : Syl) (s : State) : Rd Done := do
  let p ← readP s y.s2
  putW s y (if p then 1 else 0)

def slotMovwp (y : Syl) (s : State) : Rd Done := do
  let x ← src2W s y
  putP y (x != 0)

/-- RDP: every predicate, p0 in bit 0 reading 1 (R90). -/
def slotRdp (y : Syl) (s : State) : Rd Done := putW s y ((s.me.p ||| 1).setWidth 32)

/-- WRP: p1 to p15 from Src2; bit 0 is ignored; no value (R91). -/
def slotWrp (y : Syl) (s : State) : Rd Done := do
  let x ← src2W s y
  .ok (Done.plain (fun t => t.setMe { t.me with p := x.setWidth 16 ||| 1 }))

/-- MOVREP: the iteration index in a repeated bundle, else 0 (R90). -/
def slotMovrep (y : Syl) (s : State) : Rd Done :=
  putW s y (if s.me.repn = 0 then 0 else s.me.repi.setWidth 32)

/-- LEA: PC plus the signed offset LIT (R90). -/
def slotLea (y : Syl) (s : State) : Rd Done := putA s y (s.me.pc + sx64 y.lit)

end Sys2Proof.Machine
end

