-- ==== Sys2Proof/Machine/PredAddr.lean ====
section
/-! DEFINITION. Predicate logic and address arithmetic (R100, R101). -/

namespace Sys2Proof.Machine

/-- A two-operand predicate form (R100). -/
def predForm (op : Bool → Bool → Bool) (y : Syl) (s : State) : Rd Done := do
  let x ← readP s y.s1
  let z ← readP s y.s2
  putP y (op x z)

def slotPand (y : Syl) (s : State) : Rd Done := predForm (· && ·) y s
def slotPor (y : Syl) (s : State) : Rd Done := predForm (· || ·) y s
def slotPxor (y : Syl) (s : State) : Rd Done := predForm (· != ·) y s
def slotPandn (y : Syl) (s : State) : Rd Done := predForm (fun x z => x && !z) y s
def slotPnot (y : Syl) (s : State) : Rd Done := do
  let x ← readP s y.s1
  putP y (!x)

/-- A two-operand address form, modulo 2^64 (R101). -/
def addrForm (op : W64 → W64 → W64) (y : Syl) (s : State) : Rd Done := do
  let x ← readA s y.s1
  let z ← src2A s y
  putA s y (op x z)

def slotAadd (y : Syl) (s : State) : Rd Done := addrForm (· + ·) y s
def slotAsub (y : Syl) (s : State) : Rd Done := addrForm (· - ·) y s
def slotAand (y : Syl) (s : State) : Rd Done := addrForm (· &&& ·) y s

/-- AIDX: the index is scaled by 2^(FORM - 2) (R101). -/
def slotAidx (y : Syl) (s : State) : Rd Done := do
  let x ← readA s y.s1
  let i ← src2W s y
  putA s y (x + sx64 i <<< (y.form.toNat - 2))

/-- An address compare of natural values, joined with the predicate S3 (R101). -/
def addrCmp (cond : W64 → W64 → Bool) (y : Syl) (s : State) : Rd Done := do
  let x ← readA s y.s1
  let z ← src2A s y
  let j ← readP s y.s3
  putP y (cond x z && j)

def slotAcmpeq (y : Syl) (s : State) : Rd Done := addrCmp (· == ·) y s
def slotAcmpne (y : Syl) (s : State) : Rd Done := addrCmp (· != ·) y s
def slotAcmplt (y : Syl) (s : State) : Rd Done := addrCmp (fun x z => x.toNat < z.toNat) y s
def slotAcmpge (y : Syl) (s : State) : Rd Done := addrCmp (fun x z => z.toNat ≤ x.toNat) y s

end Sys2Proof.Machine
end

