-- ==== Sys2Proof/Machine/VecArith.lean ====
section
/-! DEFINITION. Element-wise vector groups: V.FARITH, V.IARITH, V.LOGIC, V.CMP, V.EST and V.MASK
(R183 to R186, R190, R203). -/

namespace Sys2Proof.Machine

/-! ### V.FARITH (R183) -/

/-- A rounding form of two rows; lane j uses stream j (R181). -/
def vfltForm2 (op : FFmt → Mode → Bool → Nat → Nat → Nat) (y : Syl) (s : State) (c : Ctx) : Rd Done := do
  let f := elemFmt y.ty
  let x ← readV s y.s1
  let z ← src2V s y f.width
  let m := s.modeOf y.rm
  let d ← putV s y (packRow f.width (lanesIdx2 (rowLanes f.width x) (rowLanes f.width z)
    (fun i a b => op f (s.modeAt m c.ctr i) s.me.ftz a b)))
  .ok (d.counted m)

def vfltForm3 (negP negC : Bool) (y : Syl) (s : State) (c : Ctx) : Rd Done := do
  let f := elemFmt y.ty
  let x ← readV s y.s1
  let z ← src2V s y f.width
  let a ← readV s y.s3
  let m := s.modeOf y.rm
  let d ← putV s y (packRow f.width (lanesIdx3 (rowLanes f.width x) (rowLanes f.width z)
    (rowLanes f.width a) (fun i p q r => fmaElem f (s.modeAt m c.ctr i) s.me.ftz negP negC p q r)))
  .ok (d.counted m)

def vfltForm1 (op : FFmt → Bool → Nat → Nat) (y : Syl) (s : State) : Rd Done := do
  let f := elemFmt y.ty
  let x ← readV s y.s1
  putV s y (packRow f.width ((rowLanes f.width x).map (op f s.me.ftz)))

def vfltSelect (takeMax : Bool) (y : Syl) (s : State) : Rd Done := do
  let f := elemFmt y.ty
  let x ← readV s y.s1
  let z ← src2V s y f.width
  putV s y (packRow f.width (List.zipWith (f.select takeMax s.me.ftz) (rowLanes f.width x)
    (rowLanes f.width z)))

def slotVfadd (y : Syl) (s : State) (c : Ctx) : Rd Done :=
  vfltForm2 (fun f m z => faddElem f m z false) y s c
def slotVfsub (y : Syl) (s : State) (c : Ctx) : Rd Done :=
  vfltForm2 (fun f m z => faddElem f m z true) y s c
def slotVfmul (y : Syl) (s : State) (c : Ctx) : Rd Done := vfltForm2 fmulElem y s c
def slotVfabs (y : Syl) (s : State) : Rd Done := vfltForm1 fabsElem y s
def slotVfneg (y : Syl) (s : State) : Rd Done := vfltForm1 fnegElem y s
def slotVfma (y : Syl) (s : State) (c : Ctx) : Rd Done := vfltForm3 false false y s c
def slotVfms (y : Syl) (s : State) (c : Ctx) : Rd Done := vfltForm3 false true y s c
def slotVfnma (y : Syl) (s : State) (c : Ctx) : Rd Done := vfltForm3 true false y s c
def slotVfnms (y : Syl) (s : State) (c : Ctx) : Rd Done := vfltForm3 true true y s c
def slotVfmin (y : Syl) (s : State) : Rd Done := vfltSelect false y s
def slotVfmax (y : Syl) (s : State) : Rd Done := vfltSelect true y s

/-! ### V.IARITH (R184) -/

/-- A two-operand form of rows, lane by lane under R88. -/
def vintForm2 (op : ITy → Nat → Nat → Nat) (y : Syl) (s : State) : Rd Done := do
  let t := elemTy y.ty
  let x ← readV s y.s1
  let z ← src2V s y t.width
  putV s y (packRow t.width (List.zipWith (op t) (rowLanes t.width x) (rowLanes t.width z)))

def vintForm1 (op : ITy → Nat → Nat) (y : Syl) (s : State) : Rd Done := do
  let t := elemTy y.ty
  let x ← readV s y.s1
  putV s y (packRow t.width ((rowLanes t.width x).map (op t)))

def slotVadd (y : Syl) (s : State) : Rd Done :=
  vintForm2 (fun t => intElem t (satBit y.ty) (· + ·)) y s
def slotVsub (y : Syl) (s : State) : Rd Done :=
  vintForm2 (fun t => intElem t (satBit y.ty) (· - ·)) y s
def slotVmin (y : Syl) (s : State) : Rd Done := vintForm2 (fun t => intElem t false min) y s
def slotVmax (y : Syl) (s : State) : Rd Done := vintForm2 (fun t => intElem t false max) y s
def slotVmul (y : Syl) (s : State) : Rd Done :=
  vintForm2 (fun t => intElem t (satBit y.ty) (· * ·)) y s
def slotVmulh (y : Syl) (s : State) : Rd Done :=
  vintForm2 (fun t => intElem t false (mulhInt t.width)) y s
def slotVmad (y : Syl) (s : State) : Rd Done := do
  let t := elemTy y.ty
  let x ← readV s y.s1
  let z ← src2V s y t.width
  let a ← readV s y.s3
  putV s y (packRow t.width (madLanes t (satBit y.ty) (rowLanes t.width x) (rowLanes t.width z)
    (rowLanes t.width a)))
def slotVabsd (y : Syl) (s : State) : Rd Done := vintForm2 absdElem y s
def slotVabs (y : Syl) (s : State) : Rd Done :=
  vintForm1 (fun t x => t.fit (satBit y.ty) (t.read x).natAbs) y s

/-! ### V.LOGIC (R185) -/

/-- A bitwise form on the whole row; TY sets the lanes of a pattern and of LIT. -/
def vlogicForm (op : Row → Row → Row) (y : Syl) (s : State) : Rd Done := do
  let x ← readV s y.s1
  let z ← src2V s y (modeWidth y.ty)
  putV s y (op x z)

/-- A lane shift: the natural value of lane j of Src2, or LIT[5:0] for every lane. -/
def vshiftForm (op : ITy → Nat → Nat → Nat) (y : Syl) (s : State) : Rd Done := do
  let t := elemTy y.ty
  let x ← readV s y.s1
  let amounts ← if isX y then .ok (List.replicate (2048 / t.width) y.lit.toNat)
    else do
      let z ← src2V s y t.width
      .ok (rowLanes t.width z)
  putV s y (packRow t.width (List.zipWith (op t) (rowLanes t.width x) amounts))

def slotVand (y : Syl) (s : State) : Rd Done := vlogicForm (· &&& ·) y s
def slotVor (y : Syl) (s : State) : Rd Done := vlogicForm (· ||| ·) y s
def slotVxor (y : Syl) (s : State) : Rd Done := vlogicForm (· ^^^ ·) y s
def slotVandn (y : Syl) (s : State) : Rd Done := vlogicForm (fun x z => x &&& ~~~z) y s
def slotVnot (y : Syl) (s : State) : Rd Done := do
  let x ← readV s y.s1
  putV s y (~~~x)
def slotVshl (y : Syl) (s : State) : Rd Done := vshiftForm (fun t => shlElem t (satBit y.ty)) y s
def slotVshr (y : Syl) (s : State) : Rd Done := vshiftForm shrElem y s
def slotVrol (y : Syl) (s : State) : Rd Done := vshiftForm (fun t => rolElem t.width) y s
def slotVror (y : Syl) (s : State) : Rd Done := vshiftForm (fun t => rorElem t.width) y s

/-! ### V.CMP (R186) -/

/-- The join mask: S3 when FORM[4] = 1, else every lane. -/
def joinMask (y : Syl) (s : State) : Rd (Option MaskReg) :=
  if bit y.form 4 then do
    let m ← readM s y.s3
    .ok (some m)
  else .ok none

/-- A compare of lanes of W bits into a mask. -/
def vcmpForm (W : Nat) (cond : Nat → Nat → Bool) (y : Syl) (s : State) : Rd Done := do
  let x ← readV s y.s1
  let z ← src2V s y W
  let j ← joinMask y s
  putM y (mkMask W (List.zipWith (fun on c => on && c) (activeLanes W j)
    (List.zipWith cond (rowLanes W x) (rowLanes W z))))

def vcmpInt (c : Cond) (y : Syl) (s : State) : Rd Done :=
  let t := elemTy y.ty
  vcmpForm t.width (fun a b => iCond c (t.read a) (t.read b)) y s

def vcmpFlt (c : Cond) (y : Syl) (s : State) : Rd Done :=
  let f := elemFmt y.ty
  vcmpForm f.width (fun a b => fCond c (f.decode a) (f.decode b)) y s

def slotVcmpeq (y : Syl) (s : State) : Rd Done := vcmpInt .eq y s
def slotVcmpne (y : Syl) (s : State) : Rd Done := vcmpInt .ne y s
def slotVcmplt (y : Syl) (s : State) : Rd Done := vcmpInt .lt y s
def slotVcmple (y : Syl) (s : State) : Rd Done := vcmpInt .le y s
def slotVcmpgt (y : Syl) (s : State) : Rd Done := vcmpInt .gt y s
def slotVcmpge (y : Syl) (s : State) : Rd Done := vcmpInt .ge y s
def slotVtest (y : Syl) (s : State) : Rd Done :=
  vcmpForm (modeWidth y.ty) (fun a b => a &&& b != 0) y s
def slotVfcmpeq (y : Syl) (s : State) : Rd Done := vcmpFlt .eq y s
def slotVfcmpne (y : Syl) (s : State) : Rd Done := vcmpFlt .ne y s
def slotVfcmplt (y : Syl) (s : State) : Rd Done := vcmpFlt .lt y s
def slotVfcmple (y : Syl) (s : State) : Rd Done := vcmpFlt .le y s
def slotVfcmpgt (y : Syl) (s : State) : Rd Done := vcmpFlt .gt y s
def slotVfcmpge (y : Syl) (s : State) : Rd Done := vcmpFlt .ge y s

/-- VSEL: lane j of Src2 where the S1 mask is active, else of Src3. -/
def slotVsel (y : Syl) (s : State) : Rd Done := do
  let W := modeWidth y.ty
  let m ← readM s y.s1
  let x ← src2V s y W
  let z ← readV s y.s3
  putV s y (packRow W (List.zipWith (fun on (p : Nat × Nat) => if on then p.1 else p.2)
    (activeLanes W (some m)) (List.zip (rowLanes W x) (rowLanes W z))))

/-! ### V.EST (R190) -/

def vestForm (op : Bool → FV → Nat) (y : Syl) (s : State) : Rd Done := do
  let x ← readV s y.s1
  putV s y (packRow 32 ((rowLanes 32 x).map (fun a => op s.me.ftz (f32.decode a))))

def slotVrcp (y : Syl) (s : State) : Rd Done := vestForm frcp y s
def slotVrsq (y : Syl) (s : State) : Rd Done := vestForm frsq y s
def slotVexp2 (y : Syl) (s : State) : Rd Done := vestForm vexp2 y s
def slotVlog2 (y : Syl) (s : State) : Rd Done := vestForm vlog2 y s
def slotVtanh (y : Syl) (s : State) : Rd Done := vestForm vtanh y s

/-! ### V.MASK (R203) -/

def maskForm (op : MaskReg → MaskReg → MaskReg) (y : Syl) (s : State) : Rd Done := do
  let x ← readM s y.s1
  let z ← readM s y.s2
  putM y (op x z)

def slotMand (y : Syl) (s : State) : Rd Done := maskForm (· &&& ·) y s
def slotMor (y : Syl) (s : State) : Rd Done := maskForm (· ||| ·) y s
def slotMxor (y : Syl) (s : State) : Rd Done := maskForm (· ^^^ ·) y s
def slotMandn (y : Syl) (s : State) : Rd Done := maskForm (fun x z => x &&& ~~~z) y s
def slotMnot (y : Syl) (s : State) : Rd Done := do
  let x ← readM s y.s1
  putM y (~~~x)

/-- MFIRST: the first k lanes, k natural or LIT; k of n or more gives all. -/
def slotMfirst (y : Syl) (s : State) : Rd Done := do
  let k ← src2W s y
  let W := modeWidth y.ty
  putM y (mkMask W ((List.range (2048 / W)).map (fun j => j < k.toNat)))

/-- MCNT: the number of active lanes. -/
def slotMcnt (y : Syl) (s : State) : Rd Done := do
  let m ← readM s y.s1
  putW s y (BitVec.ofNat 32 ((activeLanes (modeWidth y.ty) (some m)).filter id).length)

end Sys2Proof.Machine
end

