-- ==== Sys2Proof/Machine/ExecSlots.lean ====
section
/-! DEFINITION. The meaning of each slot instruction as a bundle of its own: the acting strand issues it
(R28), so that it commits, traps, blocks or stalls. -/

namespace Sys2Proof.Machine

/-- NOP (R51). -/
def execNop (y : Syl) (s : State) : Host.Outcome State Fault Refusal :=
  .next (s.runOne 0x01 y (fun _ => slotNop y s))

/-- MOV (R90). -/
def execMov (y : Syl) (s : State) : Host.Outcome State Fault Refusal :=
  .next (s.runOne 0x02 y (fun _ => slotMov y s))

/-- MOV_B (R92). -/
def execMovB (y : Syl) (s : State) : Host.Outcome State Fault Refusal :=
  .next (s.runOne 0x2B y (fun _ => slotMovB y s))

/-- SEL (R92). -/
def execSel (y : Syl) (s : State) : Host.Outcome State Fault Refusal :=
  .next (s.runOne 0x2B y (fun _ => slotSel y s))

/-- MOVA (R90). -/
def execMova (y : Syl) (s : State) : Host.Outcome State Fault Refusal :=
  .next (s.runOne 0x02 y (fun _ => slotMova y s))

/-- MOVHA (R90). -/
def execMovha (y : Syl) (s : State) : Host.Outcome State Fault Refusal :=
  .next (s.runOne 0x02 y (fun _ => slotMovha y s))

/-- SXW (R90). -/
def execSxw (y : Syl) (s : State) : Host.Outcome State Fault Refusal :=
  .next (s.runOne 0x02 y (fun _ => slotSxw y s))

/-- ZXW (R90). -/
def execZxw (y : Syl) (s : State) : Host.Outcome State Fault Refusal :=
  .next (s.runOne 0x02 y (fun _ => slotZxw y s))

/-- MOVAW (R90). -/
def execMovaw (y : Syl) (s : State) : Host.Outcome State Fault Refusal :=
  .next (s.runOne 0x02 y (fun _ => slotMovaw y s))

/-- MOVAWH (R90). -/
def execMovawh (y : Syl) (s : State) : Host.Outcome State Fault Refusal :=
  .next (s.runOne 0x02 y (fun _ => slotMovawh y s))

/-- MOVPW (R90). -/
def execMovpw (y : Syl) (s : State) : Host.Outcome State Fault Refusal :=
  .next (s.runOne 0x02 y (fun _ => slotMovpw y s))

/-- MOVWP (R90). -/
def execMovwp (y : Syl) (s : State) : Host.Outcome State Fault Refusal :=
  .next (s.runOne 0x02 y (fun _ => slotMovwp y s))

/-- RDP (R90). -/
def execRdp (y : Syl) (s : State) : Host.Outcome State Fault Refusal :=
  .next (s.runOne 0x02 y (fun _ => slotRdp y s))

/-- WRP (R91). -/
def execWrp (y : Syl) (s : State) : Host.Outcome State Fault Refusal :=
  .next (s.runOne 0x02 y (fun _ => slotWrp y s))

/-- MOVREP (R90). -/
def execMovrep (y : Syl) (s : State) : Host.Outcome State Fault Refusal :=
  .next (s.runOne 0x02 y (fun _ => slotMovrep y s))

/-- LEA (R90). -/
def execLea (y : Syl) (s : State) : Host.Outcome State Fault Refusal :=
  .next (s.runOne 0x02 y (fun _ => slotLea y s))

/-- ADD (R93). -/
def execAdd (y : Syl) (s : State) : Host.Outcome State Fault Refusal :=
  .next (s.runOne 0x03 y (fun _ => slotAdd y s))

/-- SUB (R93). -/
def execSub (y : Syl) (s : State) : Host.Outcome State Fault Refusal :=
  .next (s.runOne 0x03 y (fun _ => slotSub y s))

/-- MIN (R93). -/
def execMin (y : Syl) (s : State) : Host.Outcome State Fault Refusal :=
  .next (s.runOne 0x03 y (fun _ => slotMin y s))

/-- MAX (R93). -/
def execMax (y : Syl) (s : State) : Host.Outcome State Fault Refusal :=
  .next (s.runOne 0x03 y (fun _ => slotMax y s))

/-- ABSD (R93). -/
def execAbsd (y : Syl) (s : State) : Host.Outcome State Fault Refusal :=
  .next (s.runOne 0x03 y (fun _ => slotAbsd y s))

/-- ABS (R93). -/
def execAbs (y : Syl) (s : State) : Host.Outcome State Fault Refusal :=
  .next (s.runOne 0x03 y (fun _ => slotAbs y s))

/-- ADD_B (R93). -/
def execAddB (y : Syl) (s : State) : Host.Outcome State Fault Refusal :=
  .next (s.runOne 0x21 y (fun _ => slotAddB y s))

/-- SUB_B (R93). -/
def execSubB (y : Syl) (s : State) : Host.Outcome State Fault Refusal :=
  .next (s.runOne 0x21 y (fun _ => slotSubB y s))

/-- MIN_B (R93). -/
def execMinB (y : Syl) (s : State) : Host.Outcome State Fault Refusal :=
  .next (s.runOne 0x21 y (fun _ => slotMinB y s))

/-- MAX_B (R93). -/
def execMaxB (y : Syl) (s : State) : Host.Outcome State Fault Refusal :=
  .next (s.runOne 0x21 y (fun _ => slotMaxB y s))

/-- ABSD_B (R93). -/
def execAbsdB (y : Syl) (s : State) : Host.Outcome State Fault Refusal :=
  .next (s.runOne 0x21 y (fun _ => slotAbsdB y s))

/-- ABS_B (R93). -/
def execAbsB (y : Syl) (s : State) : Host.Outcome State Fault Refusal :=
  .next (s.runOne 0x21 y (fun _ => slotAbsB y s))

/-- MUL (R94). -/
def execMul (y : Syl) (s : State) : Host.Outcome State Fault Refusal :=
  .next (s.runOne 0x04 y (fun _ => slotMul y s))

/-- MULH (R94). -/
def execMulh (y : Syl) (s : State) : Host.Outcome State Fault Refusal :=
  .next (s.runOne 0x04 y (fun _ => slotMulh y s))

/-- MAD (R94). -/
def execMad (y : Syl) (s : State) : Host.Outcome State Fault Refusal :=
  .next (s.runOne 0x04 y (fun _ => slotMad y s))

/-- MUL_B (R94). -/
def execMulB (y : Syl) (s : State) : Host.Outcome State Fault Refusal :=
  .next (s.runOne 0x22 y (fun _ => slotMulB y s))

/-- MULH_B (R94). -/
def execMulhB (y : Syl) (s : State) : Host.Outcome State Fault Refusal :=
  .next (s.runOne 0x22 y (fun _ => slotMulhB y s))

/-- MAD_B (R94). -/
def execMadB (y : Syl) (s : State) : Host.Outcome State Fault Refusal :=
  .next (s.runOne 0x22 y (fun _ => slotMadB y s))

/-- AND (R95). -/
def execAnd (y : Syl) (s : State) : Host.Outcome State Fault Refusal :=
  .next (s.runOne 0x05 y (fun _ => slotAnd y s))

/-- OR (R95). -/
def execOr (y : Syl) (s : State) : Host.Outcome State Fault Refusal :=
  .next (s.runOne 0x05 y (fun _ => slotOr y s))

/-- XOR (R95). -/
def execXor (y : Syl) (s : State) : Host.Outcome State Fault Refusal :=
  .next (s.runOne 0x05 y (fun _ => slotXor y s))

/-- ANDN (R95). -/
def execAndn (y : Syl) (s : State) : Host.Outcome State Fault Refusal :=
  .next (s.runOne 0x05 y (fun _ => slotAndn y s))

/-- NOT (R95). -/
def execNot (y : Syl) (s : State) : Host.Outcome State Fault Refusal :=
  .next (s.runOne 0x05 y (fun _ => slotNot y s))

/-- AND_B (R95). -/
def execAndB (y : Syl) (s : State) : Host.Outcome State Fault Refusal :=
  .next (s.runOne 0x23 y (fun _ => slotAndB y s))

/-- OR_B (R95). -/
def execOrB (y : Syl) (s : State) : Host.Outcome State Fault Refusal :=
  .next (s.runOne 0x23 y (fun _ => slotOrB y s))

/-- XOR_B (R95). -/
def execXorB (y : Syl) (s : State) : Host.Outcome State Fault Refusal :=
  .next (s.runOne 0x23 y (fun _ => slotXorB y s))

/-- ANDN_B (R95). -/
def execAndnB (y : Syl) (s : State) : Host.Outcome State Fault Refusal :=
  .next (s.runOne 0x23 y (fun _ => slotAndnB y s))

/-- NOT_B (R95). -/
def execNotB (y : Syl) (s : State) : Host.Outcome State Fault Refusal :=
  .next (s.runOne 0x23 y (fun _ => slotNotB y s))

/-- SHL (R96). -/
def execShl (y : Syl) (s : State) : Host.Outcome State Fault Refusal :=
  .next (s.runOne 0x06 y (fun _ => slotShl y s))

/-- SHR (R96). -/
def execShr (y : Syl) (s : State) : Host.Outcome State Fault Refusal :=
  .next (s.runOne 0x06 y (fun _ => slotShr y s))

/-- ROL (R96). -/
def execRol (y : Syl) (s : State) : Host.Outcome State Fault Refusal :=
  .next (s.runOne 0x06 y (fun _ => slotRol y s))

/-- ROR (R96). -/
def execRor (y : Syl) (s : State) : Host.Outcome State Fault Refusal :=
  .next (s.runOne 0x06 y (fun _ => slotRor y s))

/-- SHL_B (R96). -/
def execShlB (y : Syl) (s : State) : Host.Outcome State Fault Refusal :=
  .next (s.runOne 0x24 y (fun _ => slotShlB y s))

/-- SHR_B (R96). -/
def execShrB (y : Syl) (s : State) : Host.Outcome State Fault Refusal :=
  .next (s.runOne 0x24 y (fun _ => slotShrB y s))

/-- ROL_B (R96). -/
def execRolB (y : Syl) (s : State) : Host.Outcome State Fault Refusal :=
  .next (s.runOne 0x24 y (fun _ => slotRolB y s))

/-- ROR_B (R96). -/
def execRorB (y : Syl) (s : State) : Host.Outcome State Fault Refusal :=
  .next (s.runOne 0x24 y (fun _ => slotRorB y s))

/-- EXT (R98). -/
def execExt (y : Syl) (s : State) : Host.Outcome State Fault Refusal :=
  .next (s.runOne 0x07 y (fun _ => slotExt y s))

/-- INS (R98). -/
def execIns (y : Syl) (s : State) : Host.Outcome State Fault Refusal :=
  .next (s.runOne 0x07 y (fun _ => slotIns y s))

/-- CLZ (R97). -/
def execClz (y : Syl) (s : State) : Host.Outcome State Fault Refusal :=
  .next (s.runOne 0x07 y (fun _ => slotClz y s))

/-- CTZ (R97). -/
def execCtz (y : Syl) (s : State) : Host.Outcome State Fault Refusal :=
  .next (s.runOne 0x07 y (fun _ => slotCtz y s))

/-- POPC (R97). -/
def execPopc (y : Syl) (s : State) : Host.Outcome State Fault Refusal :=
  .next (s.runOne 0x07 y (fun _ => slotPopc y s))

/-- BREV (R97). -/
def execBrev (y : Syl) (s : State) : Host.Outcome State Fault Refusal :=
  .next (s.runOne 0x07 y (fun _ => slotBrev y s))

/-- CMPEQ (R99). -/
def execCmpeq (y : Syl) (s : State) : Host.Outcome State Fault Refusal :=
  .next (s.runOne 0x08 y (fun _ => slotCmpeq y s))

/-- CMPNE (R99). -/
def execCmpne (y : Syl) (s : State) : Host.Outcome State Fault Refusal :=
  .next (s.runOne 0x08 y (fun _ => slotCmpne y s))

/-- CMPLT (R99). -/
def execCmplt (y : Syl) (s : State) : Host.Outcome State Fault Refusal :=
  .next (s.runOne 0x08 y (fun _ => slotCmplt y s))

/-- CMPLE (R99). -/
def execCmple (y : Syl) (s : State) : Host.Outcome State Fault Refusal :=
  .next (s.runOne 0x08 y (fun _ => slotCmple y s))

/-- CMPGT (R99). -/
def execCmpgt (y : Syl) (s : State) : Host.Outcome State Fault Refusal :=
  .next (s.runOne 0x08 y (fun _ => slotCmpgt y s))

/-- CMPGE (R99). -/
def execCmpge (y : Syl) (s : State) : Host.Outcome State Fault Refusal :=
  .next (s.runOne 0x08 y (fun _ => slotCmpge y s))

/-- TEST (R99). -/
def execTest (y : Syl) (s : State) : Host.Outcome State Fault Refusal :=
  .next (s.runOne 0x08 y (fun _ => slotTest y s))

/-- CMPEQ_B (R99). -/
def execCmpeqB (y : Syl) (s : State) : Host.Outcome State Fault Refusal :=
  .next (s.runOne 0x25 y (fun _ => slotCmpeqB y s))

/-- CMPNE_B (R99). -/
def execCmpneB (y : Syl) (s : State) : Host.Outcome State Fault Refusal :=
  .next (s.runOne 0x25 y (fun _ => slotCmpneB y s))

/-- CMPLT_B (R99). -/
def execCmpltB (y : Syl) (s : State) : Host.Outcome State Fault Refusal :=
  .next (s.runOne 0x25 y (fun _ => slotCmpltB y s))

/-- CMPLE_B (R99). -/
def execCmpleB (y : Syl) (s : State) : Host.Outcome State Fault Refusal :=
  .next (s.runOne 0x25 y (fun _ => slotCmpleB y s))

/-- CMPGT_B (R99). -/
def execCmpgtB (y : Syl) (s : State) : Host.Outcome State Fault Refusal :=
  .next (s.runOne 0x25 y (fun _ => slotCmpgtB y s))

/-- CMPGE_B (R99). -/
def execCmpgeB (y : Syl) (s : State) : Host.Outcome State Fault Refusal :=
  .next (s.runOne 0x25 y (fun _ => slotCmpgeB y s))

/-- TEST_B (R99). -/
def execTestB (y : Syl) (s : State) : Host.Outcome State Fault Refusal :=
  .next (s.runOne 0x25 y (fun _ => slotTestB y s))

/-- PAND (R100). -/
def execPand (y : Syl) (s : State) : Host.Outcome State Fault Refusal :=
  .next (s.runOne 0x09 y (fun _ => slotPand y s))

/-- POR (R100). -/
def execPor (y : Syl) (s : State) : Host.Outcome State Fault Refusal :=
  .next (s.runOne 0x09 y (fun _ => slotPor y s))

/-- PXOR (R100). -/
def execPxor (y : Syl) (s : State) : Host.Outcome State Fault Refusal :=
  .next (s.runOne 0x09 y (fun _ => slotPxor y s))

/-- PANDN (R100). -/
def execPandn (y : Syl) (s : State) : Host.Outcome State Fault Refusal :=
  .next (s.runOne 0x09 y (fun _ => slotPandn y s))

/-- PNOT (R100). -/
def execPnot (y : Syl) (s : State) : Host.Outcome State Fault Refusal :=
  .next (s.runOne 0x09 y (fun _ => slotPnot y s))

/-- AADD (R101). -/
def execAadd (y : Syl) (s : State) : Host.Outcome State Fault Refusal :=
  .next (s.runOne 0x0A y (fun _ => slotAadd y s))

/-- ASUB (R101). -/
def execAsub (y : Syl) (s : State) : Host.Outcome State Fault Refusal :=
  .next (s.runOne 0x0A y (fun _ => slotAsub y s))

/-- AIDX (R101). -/
def execAidx (y : Syl) (s : State) : Host.Outcome State Fault Refusal :=
  .next (s.runOne 0x0A y (fun _ => slotAidx y s))

/-- AAND (R101). -/
def execAand (y : Syl) (s : State) : Host.Outcome State Fault Refusal :=
  .next (s.runOne 0x0A y (fun _ => slotAand y s))

/-- ACMPEQ (R101). -/
def execAcmpeq (y : Syl) (s : State) : Host.Outcome State Fault Refusal :=
  .next (s.runOne 0x0A y (fun _ => slotAcmpeq y s))

/-- ACMPNE (R101). -/
def execAcmpne (y : Syl) (s : State) : Host.Outcome State Fault Refusal :=
  .next (s.runOne 0x0A y (fun _ => slotAcmpne y s))

/-- ACMPLT (R101). -/
def execAcmplt (y : Syl) (s : State) : Host.Outcome State Fault Refusal :=
  .next (s.runOne 0x0A y (fun _ => slotAcmplt y s))

/-- ACMPGE (R101). -/
def execAcmpge (y : Syl) (s : State) : Host.Outcome State Fault Refusal :=
  .next (s.runOne 0x0A y (fun _ => slotAcmpge y s))

/-- BR (R109). -/
def execBr (y : Syl) (s : State) : Host.Outcome State Fault Refusal :=
  .next (s.runOne 0x0B y (fun _ => slotBr y s))

/-- CALL (R110). -/
def execCall (y : Syl) (s : State) : Host.Outcome State Fault Refusal :=
  .next (s.runOne 0x0C y (fun c => slotCall y s c))

/-- CALLR (R110). -/
def execCallr (y : Syl) (s : State) : Host.Outcome State Fault Refusal :=
  .next (s.runOne 0x0C y (fun c => slotCallr y s c))

/-- JR (R110). -/
def execJr (y : Syl) (s : State) : Host.Outcome State Fault Refusal :=
  .next (s.runOne 0x0C y (fun _ => slotJr y s))

/-- LOOP (R111). -/
def execLoop (y : Syl) (s : State) : Host.Outcome State Fault Refusal :=
  .next (s.runOne 0x0D y (fun c => slotLoop y s c))

/-- REP (R112). -/
def execRep (y : Syl) (s : State) : Host.Outcome State Fault Refusal :=
  .next (s.runOne 0x0E y (fun _ => slotRep y s))

/-- YIELD (R114). -/
def execYield (y : Syl) (s : State) : Host.Outcome State Fault Refusal :=
  .next (s.runOne 0x0F y (fun _ => slotYield y s))

/-- HALT (R115). -/
def execHalt (y : Syl) (s : State) : Host.Outcome State Fault Refusal :=
  .next (s.runOne 0x0F y (fun _ => slotHalt y s))

/-- EXIT (R115). -/
def execExit (y : Syl) (s : State) : Host.Outcome State Fault Refusal :=
  .next (s.runOne 0x0F y (fun _ => slotExit y s))

/-- EXIT_STATUS (R115). -/
def execExitStatus (y : Syl) (s : State) : Host.Outcome State Fault Refusal :=
  .next (s.runOne 0x0F y (fun _ => slotExitStatus y s))

/-- FADD (R103). -/
def execFadd (y : Syl) (s : State) : Host.Outcome State Fault Refusal :=
  .next (s.runOne 0x26 y (fun c => slotFadd y s c))

/-- FSUB (R103). -/
def execFsub (y : Syl) (s : State) : Host.Outcome State Fault Refusal :=
  .next (s.runOne 0x26 y (fun c => slotFsub y s c))

/-- FMUL (R103). -/
def execFmul (y : Syl) (s : State) : Host.Outcome State Fault Refusal :=
  .next (s.runOne 0x26 y (fun c => slotFmul y s c))

/-- FABS (R103). -/
def execFabs (y : Syl) (s : State) : Host.Outcome State Fault Refusal :=
  .next (s.runOne 0x26 y (fun _ => slotFabs y s))

/-- FNEG (R103). -/
def execFneg (y : Syl) (s : State) : Host.Outcome State Fault Refusal :=
  .next (s.runOne 0x26 y (fun _ => slotFneg y s))

/-- FMA (R104). -/
def execFma (y : Syl) (s : State) : Host.Outcome State Fault Refusal :=
  .next (s.runOne 0x27 y (fun c => slotFma y s c))

/-- FMS (R104). -/
def execFms (y : Syl) (s : State) : Host.Outcome State Fault Refusal :=
  .next (s.runOne 0x27 y (fun c => slotFms y s c))

/-- FNMA (R104). -/
def execFnma (y : Syl) (s : State) : Host.Outcome State Fault Refusal :=
  .next (s.runOne 0x27 y (fun c => slotFnma y s c))

/-- FNMS (R104). -/
def execFnms (y : Syl) (s : State) : Host.Outcome State Fault Refusal :=
  .next (s.runOne 0x27 y (fun c => slotFnms y s c))

/-- FCMPEQ (R105). -/
def execFcmpeq (y : Syl) (s : State) : Host.Outcome State Fault Refusal :=
  .next (s.runOne 0x28 y (fun _ => slotFcmpeq y s))

/-- FCMPNE (R105). -/
def execFcmpne (y : Syl) (s : State) : Host.Outcome State Fault Refusal :=
  .next (s.runOne 0x28 y (fun _ => slotFcmpne y s))

/-- FCMPLT (R105). -/
def execFcmplt (y : Syl) (s : State) : Host.Outcome State Fault Refusal :=
  .next (s.runOne 0x28 y (fun _ => slotFcmplt y s))

/-- FCMPLE (R105). -/
def execFcmple (y : Syl) (s : State) : Host.Outcome State Fault Refusal :=
  .next (s.runOne 0x28 y (fun _ => slotFcmple y s))

/-- FCMPGT (R105). -/
def execFcmpgt (y : Syl) (s : State) : Host.Outcome State Fault Refusal :=
  .next (s.runOne 0x28 y (fun _ => slotFcmpgt y s))

/-- FCMPGE (R105). -/
def execFcmpge (y : Syl) (s : State) : Host.Outcome State Fault Refusal :=
  .next (s.runOne 0x28 y (fun _ => slotFcmpge y s))

/-- FMIN (R106). -/
def execFmin (y : Syl) (s : State) : Host.Outcome State Fault Refusal :=
  .next (s.runOne 0x28 y (fun _ => slotFmin y s))

/-- FMAX (R106). -/
def execFmax (y : Syl) (s : State) : Host.Outcome State Fault Refusal :=
  .next (s.runOne 0x28 y (fun _ => slotFmax y s))

/-- CVT (R107). -/
def execCvt (y : Syl) (s : State) : Host.Outcome State Fault Refusal :=
  .next (s.runOne 0x29 y (fun c => slotCvt y s c))

/-- FRCP (R108). -/
def execFrcp (y : Syl) (s : State) : Host.Outcome State Fault Refusal :=
  .next (s.runOne 0x2A y (fun _ => slotFrcp y s))

/-- FRSQ (R108). -/
def execFrsq (y : Syl) (s : State) : Host.Outcome State Fault Refusal :=
  .next (s.runOne 0x2A y (fun _ => slotFrsq y s))

/-- LD_L (R124). -/
def execLdL (y : Syl) (s : State) : Host.Outcome State Fault Refusal :=
  .next (s.runOne 0x41 y (fun _ => slotLdL y s))

/-- LD_ACQ_L (R124). -/
def execLdAcqL (y : Syl) (s : State) : Host.Outcome State Fault Refusal :=
  .next (s.runOne 0x41 y (fun _ => slotLdAcqL y s))

/-- LD_G (R124). -/
def execLdG (y : Syl) (s : State) : Host.Outcome State Fault Refusal :=
  .next (s.runOne 0x43 y (fun _ => slotLdG y s))

/-- LD_ACQ_G (R124). -/
def execLdAcqG (y : Syl) (s : State) : Host.Outcome State Fault Refusal :=
  .next (s.runOne 0x43 y (fun _ => slotLdAcqG y s))

/-- ST_L (R125). -/
def execStL (y : Syl) (s : State) : Host.Outcome State Fault Refusal :=
  .next (s.runOne 0x42 y (fun _ => slotStL y s))

/-- ST_REL_L (R125). -/
def execStRelL (y : Syl) (s : State) : Host.Outcome State Fault Refusal :=
  .next (s.runOne 0x42 y (fun _ => slotStRelL y s))

/-- ST_G (R125). -/
def execStG (y : Syl) (s : State) : Host.Outcome State Fault Refusal :=
  .next (s.runOne 0x44 y (fun _ => slotStG y s))

/-- ST_REL_G (R125). -/
def execStRelG (y : Syl) (s : State) : Host.Outcome State Fault Refusal :=
  .next (s.runOne 0x44 y (fun _ => slotStRelG y s))

/-- PREF_G (R127). -/
def execPrefG (y : Syl) (s : State) : Host.Outcome State Fault Refusal :=
  .next (s.runOne 0x45 y (fun _ => slotPrefG y s))

/-- PREFW_G (R127). -/
def execPrefwG (y : Syl) (s : State) : Host.Outcome State Fault Refusal :=
  .next (s.runOne 0x45 y (fun _ => slotPrefwG y s))

/-- PREF_L (R127). -/
def execPrefL (y : Syl) (s : State) : Host.Outcome State Fault Refusal :=
  .next (s.runOne 0x45 y (fun _ => slotPrefL y s))

/-- QALIGN (R128). -/
def execQalign (y : Syl) (s : State) : Host.Outcome State Fault Refusal :=
  .next (s.runOne 0x46 y (fun _ => slotQalign y s))

/-- FENCE_CORE (R128). -/
def execFenceCore (y : Syl) (s : State) : Host.Outcome State Fault Refusal :=
  .next (s.runOne 0x46 y (fun _ => slotFenceCore y s))

/-- FENCE_CLUS (R128). -/
def execFenceClus (y : Syl) (s : State) : Host.Outcome State Fault Refusal :=
  .next (s.runOne 0x46 y (fun _ => slotFenceClus y s))

/-- FENCE_DIE (R128). -/
def execFenceDie (y : Syl) (s : State) : Host.Outcome State Fault Refusal :=
  .next (s.runOne 0x46 y (fun _ => slotFenceDie y s))

/-- FENCE_PKG (R128). -/
def execFencePkg (y : Syl) (s : State) : Host.Outcome State Fault Refusal :=
  .next (s.runOne 0x46 y (fun _ => slotFencePkg y s))

/-- FENCE_POD (R129). -/
def execFencePod (y : Syl) (s : State) : Host.Outcome State Fault Refusal :=
  .next (s.runOne 0x46 y (fun _ => slotFencePod y s))

/-- ATOM_ADD (R131). -/
def execAtomAdd (y : Syl) (s : State) : Host.Outcome State Fault Refusal :=
  .next (s.runOne 0x47 y (fun _ => slotAtomAdd y s))

/-- ATOM_AND (R131). -/
def execAtomAnd (y : Syl) (s : State) : Host.Outcome State Fault Refusal :=
  .next (s.runOne 0x47 y (fun _ => slotAtomAnd y s))

/-- ATOM_OR (R131). -/
def execAtomOr (y : Syl) (s : State) : Host.Outcome State Fault Refusal :=
  .next (s.runOne 0x47 y (fun _ => slotAtomOr y s))

/-- ATOM_XOR (R131). -/
def execAtomXor (y : Syl) (s : State) : Host.Outcome State Fault Refusal :=
  .next (s.runOne 0x47 y (fun _ => slotAtomXor y s))

/-- ATOM_MIN (R131). -/
def execAtomMin (y : Syl) (s : State) : Host.Outcome State Fault Refusal :=
  .next (s.runOne 0x47 y (fun _ => slotAtomMin y s))

/-- ATOM_MAX (R131). -/
def execAtomMax (y : Syl) (s : State) : Host.Outcome State Fault Refusal :=
  .next (s.runOne 0x47 y (fun _ => slotAtomMax y s))

/-- ATOM_SWP (R131). -/
def execAtomSwp (y : Syl) (s : State) : Host.Outcome State Fault Refusal :=
  .next (s.runOne 0x47 y (fun _ => slotAtomSwp y s))

/-- ATOM_CAS (R131). -/
def execAtomCas (y : Syl) (s : State) : Host.Outcome State Fault Refusal :=
  .next (s.runOne 0x47 y (fun _ => slotAtomCas y s))

/-- ATOM_FADD (R131). -/
def execAtomFadd (y : Syl) (s : State) : Host.Outcome State Fault Refusal :=
  .next (s.runOne 0x47 y (fun _ => slotAtomFadd y s))

/-- RED_ADD (R132). -/
def execRedAdd (y : Syl) (s : State) : Host.Outcome State Fault Refusal :=
  .next (s.runOne 0x47 y (fun _ => slotRedAdd y s))

/-- RED_AND (R132). -/
def execRedAnd (y : Syl) (s : State) : Host.Outcome State Fault Refusal :=
  .next (s.runOne 0x47 y (fun _ => slotRedAnd y s))

/-- RED_OR (R132). -/
def execRedOr (y : Syl) (s : State) : Host.Outcome State Fault Refusal :=
  .next (s.runOne 0x47 y (fun _ => slotRedOr y s))

/-- RED_XOR (R132). -/
def execRedXor (y : Syl) (s : State) : Host.Outcome State Fault Refusal :=
  .next (s.runOne 0x47 y (fun _ => slotRedXor y s))

/-- RED_MIN (R132). -/
def execRedMin (y : Syl) (s : State) : Host.Outcome State Fault Refusal :=
  .next (s.runOne 0x47 y (fun _ => slotRedMin y s))

/-- RED_MAX (R132). -/
def execRedMax (y : Syl) (s : State) : Host.Outcome State Fault Refusal :=
  .next (s.runOne 0x47 y (fun _ => slotRedMax y s))

/-- RED_FADD (R132). -/
def execRedFadd (y : Syl) (s : State) : Host.Outcome State Fault Refusal :=
  .next (s.runOne 0x47 y (fun _ => slotRedFadd y s))

/-- TRAP (R136). -/
def execTrap (y : Syl) (s : State) : Host.Outcome State Fault Refusal :=
  .next (s.runOne 0x48 y (fun _ => slotTrap y s))

/-- RETT (R137). -/
def execRett (y : Syl) (s : State) : Host.Outcome State Fault Refusal :=
  .next (s.runOne 0x48 y (fun _ => slotRett y s))

/-- RDTIME (R139). -/
def execRdtime (y : Syl) (s : State) : Host.Outcome State Fault Refusal :=
  .next (s.runOne 0x48 y (fun _ => slotRdtime y s))

/-- RDCYC (R139). -/
def execRdcyc (y : Syl) (s : State) : Host.Outcome State Fault Refusal :=
  .next (s.runOne 0x48 y (fun _ => slotRdcyc y s))

/-- RDSR (R138). -/
def execRdsr (y : Syl) (s : State) : Host.Outcome State Fault Refusal :=
  .next (s.runOne 0x48 y (fun _ => slotRdsr y s))

/-- WRSR (R138). -/
def execWrsr (y : Syl) (s : State) : Host.Outcome State Fault Refusal :=
  .next (s.runOne 0x48 y (fun _ => slotWrsr y s))

/-- RDWID (R140). -/
def execRdwid (y : Syl) (s : State) : Host.Outcome State Fault Refusal :=
  .next (s.runOne 0x48 y (fun _ => slotRdwid y s))

/-- RDWF (R140). -/
def execRdwf (y : Syl) (s : State) : Host.Outcome State Fault Refusal :=
  .next (s.runOne 0x48 y (fun _ => slotRdwf y s))

/-- RDWFL (R140). -/
def execRdwfl (y : Syl) (s : State) : Host.Outcome State Fault Refusal :=
  .next (s.runOne 0x48 y (fun _ => slotRdwfl y s))

/-- LOCQ (R141). -/
def execLocq (y : Syl) (s : State) : Host.Outcome State Fault Refusal :=
  .next (s.runOne 0x48 y (fun _ => slotLocq y s))

/-- SLEEPTO (R143). -/
def execSleepto (y : Syl) (s : State) : Host.Outcome State Fault Refusal :=
  .next (s.runOne 0x49 y (fun _ => slotSleepto y s))

/-- SLEEPTO_CP0 (R143). -/
def execSleeptoCp0 (y : Syl) (s : State) : Host.Outcome State Fault Refusal :=
  .next (s.runOne 0x49 y (fun _ => slotSleeptoCp0 y s))

/-- SLEEPTO_CP1 (R143). -/
def execSleeptoCp1 (y : Syl) (s : State) : Host.Outcome State Fault Refusal :=
  .next (s.runOne 0x49 y (fun _ => slotSleeptoCp1 y s))

/-- REGSYNC (R145). -/
def execRegsync (y : Syl) (s : State) : Host.Outcome State Fault Refusal :=
  .next (s.runOne 0x4A y (fun _ => slotRegsync y s))

/-- REGINV (R146). -/
def execReginv (y : Syl) (s : State) : Host.Outcome State Fault Refusal :=
  .next (s.runOne 0x4A y (fun _ => slotReginv y s))

/-- BINIT (R172). -/
def execBinit (y : Syl) (s : State) : Host.Outcome State Fault Refusal :=
  .next (s.runOne 0x4B y (fun _ => slotBinit y s))

/-- BARR (R172). -/
def execBarr (y : Syl) (s : State) : Host.Outcome State Fault Refusal :=
  .next (s.runOne 0x4B y (fun _ => slotBarr y s))

/-- BWAIT (R172). -/
def execBwait (y : Syl) (s : State) : Host.Outcome State Fault Refusal :=
  .next (s.runOne 0x4B y (fun _ => slotBwait y s))

/-- BTEST (R172). -/
def execBtest (y : Syl) (s : State) : Host.Outcome State Fault Refusal :=
  .next (s.runOne 0x4B y (fun _ => slotBtest y s))

/-- BRD (R172). -/
def execBrd (y : Syl) (s : State) : Host.Outcome State Fault Refusal :=
  .next (s.runOne 0x4B y (fun _ => slotBrd y s))

/-- ENQ (R164). -/
def execEnq (y : Syl) (s : State) : Host.Outcome State Fault Refusal :=
  .next (s.runOne 0x4C y (fun c => slotEnq y s c))

/-- ENQP (R166). -/
def execEnqp (y : Syl) (s : State) : Host.Outcome State Fault Refusal :=
  .next (s.runOne 0x4C y (fun c => slotEnqp y s c))

/-- TLRD (R167). -/
def execTlrd (y : Syl) (s : State) : Host.Outcome State Fault Refusal :=
  .next (s.runOne 0x4D y (fun _ => slotTlrd y s))

/-- TLWAIT (R167). -/
def execTlwait (y : Syl) (s : State) : Host.Outcome State Fault Refusal :=
  .next (s.runOne 0x4D y (fun _ => slotTlwait y s))

/-- TLFLT (R167). -/
def execTlflt (y : Syl) (s : State) : Host.Outcome State Fault Refusal :=
  .next (s.runOne 0x4D y (fun _ => slotTlflt y s))

/-- TLFLTC (R167). -/
def execTlfltc (y : Syl) (s : State) : Host.Outcome State Fault Refusal :=
  .next (s.runOne 0x4D y (fun _ => slotTlfltc y s))

/-- STATRD (R159). -/
def execStatrd (y : Syl) (s : State) : Host.Outcome State Fault Refusal :=
  .next (s.runOne 0x4D y (fun _ => slotStatrd y s))

/-- STATRDC (R159). -/
def execStatrdc (y : Syl) (s : State) : Host.Outcome State Fault Refusal :=
  .next (s.runOne 0x4D y (fun _ => slotStatrdc y s))

/-- VWIN (R157). -/
def execVwin (y : Syl) (s : State) : Host.Outcome State Fault Refusal :=
  .next (s.runOne 0x4E y (fun _ => slotVwin y s))

/-- VWIN_REG (R157). -/
def execVwinReg (y : Syl) (s : State) : Host.Outcome State Fault Refusal :=
  .next (s.runOne 0x4E y (fun _ => slotVwinReg y s))

/-- SGRP (R260). -/
def execSgrp (y : Syl) (s : State) : Host.Outcome State Fault Refusal :=
  .next (s.runOne 0x4F y (fun _ => slotSgrp y s))

/-- SGLEAVE (R260). -/
def execSgleave (y : Syl) (s : State) : Host.Outcome State Fault Refusal :=
  .next (s.runOne 0x4F y (fun _ => slotSgleave y s))

/-- SGSYNC (R261). -/
def execSgsync (y : Syl) (s : State) : Host.Outcome State Fault Refusal :=
  .next (s.runOne 0x4F y (fun _ => slotSgsync y s))

/-- SGRD (R259). -/
def execSgrd (y : Syl) (s : State) : Host.Outcome State Fault Refusal :=
  .next (s.runOne 0x4F y (fun _ => slotSgrd y s))

/-- TLBINV_VA (R300). -/
def execTlbinvVa (y : Syl) (s : State) : Host.Outcome State Fault Refusal :=
  .next (s.runOne 0x50 y (fun _ => slotTlbinvVa y s))

/-- TLBINV_TBL (R300). -/
def execTlbinvTbl (y : Syl) (s : State) : Host.Outcome State Fault Refusal :=
  .next (s.runOne 0x50 y (fun _ => slotTlbinvTbl y s))

/-- TLBINV_ALL (R300). -/
def execTlbinvAll (y : Syl) (s : State) : Host.Outcome State Fault Refusal :=
  .next (s.runOne 0x50 y (fun _ => slotTlbinvAll y s))

/-- TLBWAIT (R302). -/
def execTlbwait (y : Syl) (s : State) : Host.Outcome State Fault Refusal :=
  .next (s.runOne 0x50 y (fun _ => slotTlbwait y s))

/-- XLAT (R303). -/
def execXlat (y : Syl) (s : State) : Host.Outcome State Fault Refusal :=
  .next (s.runOne 0x50 y (fun _ => slotXlat y s))

/-- XLAT_W (R303). -/
def execXlatW (y : Syl) (s : State) : Host.Outcome State Fault Refusal :=
  .next (s.runOne 0x50 y (fun _ => slotXlatW y s))

/-- XLAT_X (R303). -/
def execXlatX (y : Syl) (s : State) : Host.Outcome State Fault Refusal :=
  .next (s.runOne 0x50 y (fun _ => slotXlatX y s))

/-- WPKR (R304). -/
def execWpkr (y : Syl) (s : State) : Host.Outcome State Fault Refusal :=
  .next (s.runOne 0x50 y (fun _ => slotWpkr y s))

/-- RPKR (R304). -/
def execRpkr (y : Syl) (s : State) : Host.Outcome State Fault Refusal :=
  .next (s.runOne 0x50 y (fun _ => slotRpkr y s))

/-- MIGHINT (R282). -/
def execMighint (y : Syl) (s : State) : Host.Outcome State Fault Refusal :=
  .next (s.runOne 0x50 y (fun _ => slotMighint y s))

/-- CIRCWAIT (R332). -/
def execCircwait (y : Syl) (s : State) : Host.Outcome State Fault Refusal :=
  .next (s.runOne 0x51 y (fun _ => slotCircwait y s))

/-- CIRCQ (R333). -/
def execCircq (y : Syl) (s : State) : Host.Outcome State Fault Refusal :=
  .next (s.runOne 0x51 y (fun _ => slotCircq y s))

/-- LAUNCH (R355). -/
def execLaunch (y : Syl) (s : State) : Host.Outcome State Fault Refusal :=
  .next (s.runOne 0x52 y (fun _ => slotLaunch y s))

/-- LNSTAT (R358). -/
def execLnstat (y : Syl) (s : State) : Host.Outcome State Fault Refusal :=
  .next (s.runOne 0x52 y (fun _ => slotLnstat y s))

/-- QPOST (R413). -/
def execQpost (y : Syl) (s : State) : Host.Outcome State Fault Refusal :=
  .next (s.runOne 0x53 y (fun _ => slotQpost y s))

/-- QARM (R414). -/
def execQarm (y : Syl) (s : State) : Host.Outcome State Fault Refusal :=
  .next (s.runOne 0x53 y (fun _ => slotQarm y s))

/-- CNTRD (R412). -/
def execCntrd (y : Syl) (s : State) : Host.Outcome State Fault Refusal :=
  .next (s.runOne 0x53 y (fun _ => slotCntrd y s))

/-- CNTWAIT (R415). -/
def execCntwait (y : Syl) (s : State) : Host.Outcome State Fault Refusal :=
  .next (s.runOne 0x53 y (fun _ => slotCntwait y s))

/-- CNTADD (R415). -/
def execCntadd (y : Syl) (s : State) : Host.Outcome State Fault Refusal :=
  .next (s.runOne 0x53 y (fun _ => slotCntadd y s))

/-- PNCFG (R431). -/
def execPncfg (y : Syl) (s : State) : Host.Outcome State Fault Refusal :=
  .next (s.runOne 0x54 y (fun _ => slotPncfg y s))

/-- PNSTAT (R432). -/
def execPnstat (y : Syl) (s : State) : Host.Outcome State Fault Refusal :=
  .next (s.runOne 0x54 y (fun _ => slotPnstat y s))

/-- VFADD (R183). -/
def execVfadd (y : Syl) (s : State) : Host.Outcome State Fault Refusal :=
  .next (s.runOne 0x61 y (fun c => slotVfadd y s c))

/-- VFSUB (R183). -/
def execVfsub (y : Syl) (s : State) : Host.Outcome State Fault Refusal :=
  .next (s.runOne 0x61 y (fun c => slotVfsub y s c))

/-- VFMUL (R183). -/
def execVfmul (y : Syl) (s : State) : Host.Outcome State Fault Refusal :=
  .next (s.runOne 0x61 y (fun c => slotVfmul y s c))

/-- VFABS (R183). -/
def execVfabs (y : Syl) (s : State) : Host.Outcome State Fault Refusal :=
  .next (s.runOne 0x61 y (fun _ => slotVfabs y s))

/-- VFMA (R183). -/
def execVfma (y : Syl) (s : State) : Host.Outcome State Fault Refusal :=
  .next (s.runOne 0x61 y (fun c => slotVfma y s c))

/-- VFMS (R183). -/
def execVfms (y : Syl) (s : State) : Host.Outcome State Fault Refusal :=
  .next (s.runOne 0x61 y (fun c => slotVfms y s c))

/-- VFNMA (R183). -/
def execVfnma (y : Syl) (s : State) : Host.Outcome State Fault Refusal :=
  .next (s.runOne 0x61 y (fun c => slotVfnma y s c))

/-- VFNMS (R183). -/
def execVfnms (y : Syl) (s : State) : Host.Outcome State Fault Refusal :=
  .next (s.runOne 0x61 y (fun c => slotVfnms y s c))

/-- VFMIN (R183). -/
def execVfmin (y : Syl) (s : State) : Host.Outcome State Fault Refusal :=
  .next (s.runOne 0x61 y (fun _ => slotVfmin y s))

/-- VFMAX (R183). -/
def execVfmax (y : Syl) (s : State) : Host.Outcome State Fault Refusal :=
  .next (s.runOne 0x61 y (fun _ => slotVfmax y s))

/-- VFNEG (R183). -/
def execVfneg (y : Syl) (s : State) : Host.Outcome State Fault Refusal :=
  .next (s.runOne 0x61 y (fun _ => slotVfneg y s))

/-- VADD (R184). -/
def execVadd (y : Syl) (s : State) : Host.Outcome State Fault Refusal :=
  .next (s.runOne 0x62 y (fun _ => slotVadd y s))

/-- VSUB (R184). -/
def execVsub (y : Syl) (s : State) : Host.Outcome State Fault Refusal :=
  .next (s.runOne 0x62 y (fun _ => slotVsub y s))

/-- VMIN (R184). -/
def execVmin (y : Syl) (s : State) : Host.Outcome State Fault Refusal :=
  .next (s.runOne 0x62 y (fun _ => slotVmin y s))

/-- VMAX (R184). -/
def execVmax (y : Syl) (s : State) : Host.Outcome State Fault Refusal :=
  .next (s.runOne 0x62 y (fun _ => slotVmax y s))

/-- VMUL (R184). -/
def execVmul (y : Syl) (s : State) : Host.Outcome State Fault Refusal :=
  .next (s.runOne 0x62 y (fun _ => slotVmul y s))

/-- VMULH (R184). -/
def execVmulh (y : Syl) (s : State) : Host.Outcome State Fault Refusal :=
  .next (s.runOne 0x62 y (fun _ => slotVmulh y s))

/-- VMAD (R184). -/
def execVmad (y : Syl) (s : State) : Host.Outcome State Fault Refusal :=
  .next (s.runOne 0x62 y (fun _ => slotVmad y s))

/-- VABSD (R184). -/
def execVabsd (y : Syl) (s : State) : Host.Outcome State Fault Refusal :=
  .next (s.runOne 0x62 y (fun _ => slotVabsd y s))

/-- VABS (R184). -/
def execVabs (y : Syl) (s : State) : Host.Outcome State Fault Refusal :=
  .next (s.runOne 0x62 y (fun _ => slotVabs y s))

/-- VAND (R185). -/
def execVand (y : Syl) (s : State) : Host.Outcome State Fault Refusal :=
  .next (s.runOne 0x63 y (fun _ => slotVand y s))

/-- VOR (R185). -/
def execVor (y : Syl) (s : State) : Host.Outcome State Fault Refusal :=
  .next (s.runOne 0x63 y (fun _ => slotVor y s))

/-- VXOR (R185). -/
def execVxor (y : Syl) (s : State) : Host.Outcome State Fault Refusal :=
  .next (s.runOne 0x63 y (fun _ => slotVxor y s))

/-- VANDN (R185). -/
def execVandn (y : Syl) (s : State) : Host.Outcome State Fault Refusal :=
  .next (s.runOne 0x63 y (fun _ => slotVandn y s))

/-- VNOT (R185). -/
def execVnot (y : Syl) (s : State) : Host.Outcome State Fault Refusal :=
  .next (s.runOne 0x63 y (fun _ => slotVnot y s))

/-- VSHL (R185). -/
def execVshl (y : Syl) (s : State) : Host.Outcome State Fault Refusal :=
  .next (s.runOne 0x63 y (fun _ => slotVshl y s))

/-- VSHR (R185). -/
def execVshr (y : Syl) (s : State) : Host.Outcome State Fault Refusal :=
  .next (s.runOne 0x63 y (fun _ => slotVshr y s))

/-- VROL (R185). -/
def execVrol (y : Syl) (s : State) : Host.Outcome State Fault Refusal :=
  .next (s.runOne 0x63 y (fun _ => slotVrol y s))

/-- VROR (R185). -/
def execVror (y : Syl) (s : State) : Host.Outcome State Fault Refusal :=
  .next (s.runOne 0x63 y (fun _ => slotVror y s))

/-- VCMPEQ (R186). -/
def execVcmpeq (y : Syl) (s : State) : Host.Outcome State Fault Refusal :=
  .next (s.runOne 0x64 y (fun _ => slotVcmpeq y s))

/-- VCMPNE (R186). -/
def execVcmpne (y : Syl) (s : State) : Host.Outcome State Fault Refusal :=
  .next (s.runOne 0x64 y (fun _ => slotVcmpne y s))

/-- VCMPLT (R186). -/
def execVcmplt (y : Syl) (s : State) : Host.Outcome State Fault Refusal :=
  .next (s.runOne 0x64 y (fun _ => slotVcmplt y s))

/-- VCMPLE (R186). -/
def execVcmple (y : Syl) (s : State) : Host.Outcome State Fault Refusal :=
  .next (s.runOne 0x64 y (fun _ => slotVcmple y s))

/-- VCMPGT (R186). -/
def execVcmpgt (y : Syl) (s : State) : Host.Outcome State Fault Refusal :=
  .next (s.runOne 0x64 y (fun _ => slotVcmpgt y s))

/-- VCMPGE (R186). -/
def execVcmpge (y : Syl) (s : State) : Host.Outcome State Fault Refusal :=
  .next (s.runOne 0x64 y (fun _ => slotVcmpge y s))

/-- VTEST (R186). -/
def execVtest (y : Syl) (s : State) : Host.Outcome State Fault Refusal :=
  .next (s.runOne 0x64 y (fun _ => slotVtest y s))

/-- VFCMPEQ (R186). -/
def execVfcmpeq (y : Syl) (s : State) : Host.Outcome State Fault Refusal :=
  .next (s.runOne 0x64 y (fun _ => slotVfcmpeq y s))

/-- VFCMPNE (R186). -/
def execVfcmpne (y : Syl) (s : State) : Host.Outcome State Fault Refusal :=
  .next (s.runOne 0x64 y (fun _ => slotVfcmpne y s))

/-- VFCMPLT (R186). -/
def execVfcmplt (y : Syl) (s : State) : Host.Outcome State Fault Refusal :=
  .next (s.runOne 0x64 y (fun _ => slotVfcmplt y s))

/-- VFCMPLE (R186). -/
def execVfcmple (y : Syl) (s : State) : Host.Outcome State Fault Refusal :=
  .next (s.runOne 0x64 y (fun _ => slotVfcmple y s))

/-- VFCMPGT (R186). -/
def execVfcmpgt (y : Syl) (s : State) : Host.Outcome State Fault Refusal :=
  .next (s.runOne 0x64 y (fun _ => slotVfcmpgt y s))

/-- VFCMPGE (R186). -/
def execVfcmpge (y : Syl) (s : State) : Host.Outcome State Fault Refusal :=
  .next (s.runOne 0x64 y (fun _ => slotVfcmpge y s))

/-- VSEL (R186). -/
def execVsel (y : Syl) (s : State) : Host.Outcome State Fault Refusal :=
  .next (s.runOne 0x64 y (fun _ => slotVsel y s))

/-- VCVT (R189). -/
def execVcvt (y : Syl) (s : State) : Host.Outcome State Fault Refusal :=
  .next (s.runOne 0x65 y (fun c => slotVcvt y s c))

/-- VRCP (R190). -/
def execVrcp (y : Syl) (s : State) : Host.Outcome State Fault Refusal :=
  .next (s.runOne 0x66 y (fun _ => slotVrcp y s))

/-- VRSQ (R190). -/
def execVrsq (y : Syl) (s : State) : Host.Outcome State Fault Refusal :=
  .next (s.runOne 0x66 y (fun _ => slotVrsq y s))

/-- VEXP2 (R190). -/
def execVexp2 (y : Syl) (s : State) : Host.Outcome State Fault Refusal :=
  .next (s.runOne 0x66 y (fun _ => slotVexp2 y s))

/-- VLOG2 (R190). -/
def execVlog2 (y : Syl) (s : State) : Host.Outcome State Fault Refusal :=
  .next (s.runOne 0x66 y (fun _ => slotVlog2 y s))

/-- VTANH (R190). -/
def execVtanh (y : Syl) (s : State) : Host.Outcome State Fault Refusal :=
  .next (s.runOne 0x66 y (fun _ => slotVtanh y s))

/-- VREDSUM (R191). -/
def execVredsum (y : Syl) (s : State) : Host.Outcome State Fault Refusal :=
  .next (s.runOne 0x67 y (fun c => slotVredsum y s c))

/-- VREDMIN (R191). -/
def execVredmin (y : Syl) (s : State) : Host.Outcome State Fault Refusal :=
  .next (s.runOne 0x67 y (fun c => slotVredmin y s c))

/-- VREDMAX (R191). -/
def execVredmax (y : Syl) (s : State) : Host.Outcome State Fault Refusal :=
  .next (s.runOne 0x67 y (fun c => slotVredmax y s c))

/-- VSCANSUM (R192). -/
def execVscansum (y : Syl) (s : State) : Host.Outcome State Fault Refusal :=
  .next (s.runOne 0x67 y (fun c => slotVscansum y s c))

/-- VSCANMIN (R192). -/
def execVscanmin (y : Syl) (s : State) : Host.Outcome State Fault Refusal :=
  .next (s.runOne 0x67 y (fun c => slotVscanmin y s c))

/-- VSCANMAX (R192). -/
def execVscanmax (y : Syl) (s : State) : Host.Outcome State Fault Refusal :=
  .next (s.runOne 0x67 y (fun c => slotVscanmax y s c))

/-- VCOMP (R193). -/
def execVcomp (y : Syl) (s : State) : Host.Outcome State Fault Refusal :=
  .next (s.runOne 0x68 y (fun _ => slotVcomp y s))

/-- VEXPD (R194). -/
def execVexpd (y : Syl) (s : State) : Host.Outcome State Fault Refusal :=
  .next (s.runOne 0x68 y (fun _ => slotVexpd y s))

/-- VPERM (R195). -/
def execVperm (y : Syl) (s : State) : Host.Outcome State Fault Refusal :=
  .next (s.runOne 0x69 y (fun _ => slotVperm y s))

/-- VROTR (R195). -/
def execVrotr (y : Syl) (s : State) : Host.Outcome State Fault Refusal :=
  .next (s.runOne 0x69 y (fun _ => slotVrotr y s))

/-- VZIPL (R195). -/
def execVzipl (y : Syl) (s : State) : Host.Outcome State Fault Refusal :=
  .next (s.runOne 0x69 y (fun _ => slotVzipl y s))

/-- VZIPH (R195). -/
def execVziph (y : Syl) (s : State) : Host.Outcome State Fault Refusal :=
  .next (s.runOne 0x69 y (fun _ => slotVziph y s))

/-- VUZPE (R195). -/
def execVuzpe (y : Syl) (s : State) : Host.Outcome State Fault Refusal :=
  .next (s.runOne 0x69 y (fun _ => slotVuzpe y s))

/-- VUZPO (R195). -/
def execVuzpo (y : Syl) (s : State) : Host.Outcome State Fault Refusal :=
  .next (s.runOne 0x69 y (fun _ => slotVuzpo y s))

/-- VSPLAT (R196). -/
def execVsplat (y : Syl) (s : State) : Host.Outcome State Fault Refusal :=
  .next (s.runOne 0x6A y (fun _ => slotVsplat y s))

/-- VIOTA (R196). -/
def execViota (y : Syl) (s : State) : Host.Outcome State Fault Refusal :=
  .next (s.runOne 0x6A y (fun _ => slotViota y s))

/-- VRAND (R198). -/
def execVrand (y : Syl) (s : State) : Host.Outcome State Fault Refusal :=
  .next (s.runOne 0x6A y (fun _ => slotVrand y s))

/-- VLD (R201). -/
def execVld (y : Syl) (s : State) : Host.Outcome State Fault Refusal :=
  .next (s.runOne 0x6B y (fun _ => slotVld y s))

/-- VST (R201). -/
def execVst (y : Syl) (s : State) : Host.Outcome State Fault Refusal :=
  .next (s.runOne 0x6B y (fun _ => slotVst y s))

/-- VSTM (R200). -/
def execVstm (y : Syl) (s : State) : Host.Outcome State Fault Refusal :=
  .next (s.runOne 0x6B y (fun _ => slotVstm y s))

/-- VEXT (R199). -/
def execVext (y : Syl) (s : State) : Host.Outcome State Fault Refusal :=
  .next (s.runOne 0x6C y (fun _ => slotVext y s))

/-- VINS (R199). -/
def execVins (y : Syl) (s : State) : Host.Outcome State Fault Refusal :=
  .next (s.runOne 0x6C y (fun _ => slotVins y s))

/-- VMOV (R199). -/
def execVmov (y : Syl) (s : State) : Host.Outcome State Fault Refusal :=
  .next (s.runOne 0x6C y (fun _ => slotVmov y s))

/-- MAND (R203). -/
def execMand (y : Syl) (s : State) : Host.Outcome State Fault Refusal :=
  .next (s.runOne 0x6D y (fun _ => slotMand y s))

/-- MOR (R203). -/
def execMor (y : Syl) (s : State) : Host.Outcome State Fault Refusal :=
  .next (s.runOne 0x6D y (fun _ => slotMor y s))

/-- MXOR (R203). -/
def execMxor (y : Syl) (s : State) : Host.Outcome State Fault Refusal :=
  .next (s.runOne 0x6D y (fun _ => slotMxor y s))

/-- MANDN (R203). -/
def execMandn (y : Syl) (s : State) : Host.Outcome State Fault Refusal :=
  .next (s.runOne 0x6D y (fun _ => slotMandn y s))

/-- MNOT (R203). -/
def execMnot (y : Syl) (s : State) : Host.Outcome State Fault Refusal :=
  .next (s.runOne 0x6D y (fun _ => slotMnot y s))

/-- MFIRST (R203). -/
def execMfirst (y : Syl) (s : State) : Host.Outcome State Fault Refusal :=
  .next (s.runOne 0x6D y (fun _ => slotMfirst y s))

/-- MCNT (R203). -/
def execMcnt (y : Syl) (s : State) : Host.Outcome State Fault Refusal :=
  .next (s.runOne 0x6D y (fun _ => slotMcnt y s))

/-- PPSET (R242). -/
def execPpset (y : Syl) (s : State) : Host.Outcome State Fault Refusal :=
  .next (s.runOne 0x6E y (fun c => slotPpset y s c))

/-- PPDEG (R243). -/
def execPpdeg (y : Syl) (s : State) : Host.Outcome State Fault Refusal :=
  .next (s.runOne 0x6E y (fun c => slotPpdeg y s c))

/-- PPMUL (R244). -/
def execPpmul (y : Syl) (s : State) : Host.Outcome State Fault Refusal :=
  .next (s.runOne 0x6E y (fun c => slotPpmul y s c))

/-- PPMULV (R244). -/
def execPpmulv (y : Syl) (s : State) : Host.Outcome State Fault Refusal :=
  .next (s.runOne 0x6E y (fun c => slotPpmulv y s c))

/-- PPDIV (R245). -/
def execPpdiv (y : Syl) (s : State) : Host.Outcome State Fault Refusal :=
  .next (s.runOne 0x6E y (fun c => slotPpdiv y s c))

/-- PPMRG (R246). -/
def execPpmrg (y : Syl) (s : State) : Host.Outcome State Fault Refusal :=
  .next (s.runOne 0x6E y (fun c => slotPpmrg y s c))

/-- PPSCL (R247). -/
def execPpscl (y : Syl) (s : State) : Host.Outcome State Fault Refusal :=
  .next (s.runOne 0x6E y (fun c => slotPpscl y s c))

/-- PPRD (R248). -/
def execPprd (y : Syl) (s : State) : Host.Outcome State Fault Refusal :=
  .next (s.runOne 0x6E y (fun _ => slotPprd y s))

/-- PPRDX (R248). -/
def execPprdx (y : Syl) (s : State) : Host.Outcome State Fault Refusal :=
  .next (s.runOne 0x6E y (fun _ => slotPprdx y s))

/-- PPRDST (R248). -/
def execPprdst (y : Syl) (s : State) : Host.Outcome State Fault Refusal :=
  .next (s.runOne 0x6E y (fun _ => slotPprdst y s))

/-- PPWR (R249). -/
def execPpwr (y : Syl) (s : State) : Host.Outcome State Fault Refusal :=
  .next (s.runOne 0x6E y (fun c => slotPpwr y s c))

end Sys2Proof.Machine
end

