-- ==== Sys2Proof/Machine/Slots.lean ====
section
/-! DEFINITION. What a slot instruction does in any bundle: one arm per slot instruction of the opcode
table. Commands, sequencer words and events stand in no slot. -/

namespace Sys2Proof.Machine

/-- The answer of a slot instruction. -/
def slotRun (i : Instr) (s : State) (c : Ctx) : Rd Done :=
  match i with
  | .nop y => slotNop y s
  | .mov y => slotMov y s
  | .movB y => slotMovB y s
  | .sel y => slotSel y s
  | .mova y => slotMova y s
  | .movha y => slotMovha y s
  | .sxw y => slotSxw y s
  | .zxw y => slotZxw y s
  | .movaw y => slotMovaw y s
  | .movawh y => slotMovawh y s
  | .movpw y => slotMovpw y s
  | .movwp y => slotMovwp y s
  | .rdp y => slotRdp y s
  | .wrp y => slotWrp y s
  | .movrep y => slotMovrep y s
  | .lea y => slotLea y s
  | .add y => slotAdd y s
  | .sub y => slotSub y s
  | .min y => slotMin y s
  | .max y => slotMax y s
  | .absd y => slotAbsd y s
  | .abs y => slotAbs y s
  | .addB y => slotAddB y s
  | .subB y => slotSubB y s
  | .minB y => slotMinB y s
  | .maxB y => slotMaxB y s
  | .absdB y => slotAbsdB y s
  | .absB y => slotAbsB y s
  | .mul y => slotMul y s
  | .mulh y => slotMulh y s
  | .mad y => slotMad y s
  | .mulB y => slotMulB y s
  | .mulhB y => slotMulhB y s
  | .madB y => slotMadB y s
  | .and y => slotAnd y s
  | .or y => slotOr y s
  | .xor y => slotXor y s
  | .andn y => slotAndn y s
  | .not y => slotNot y s
  | .andB y => slotAndB y s
  | .orB y => slotOrB y s
  | .xorB y => slotXorB y s
  | .andnB y => slotAndnB y s
  | .notB y => slotNotB y s
  | .shl y => slotShl y s
  | .shr y => slotShr y s
  | .rol y => slotRol y s
  | .ror y => slotRor y s
  | .shlB y => slotShlB y s
  | .shrB y => slotShrB y s
  | .rolB y => slotRolB y s
  | .rorB y => slotRorB y s
  | .ext y => slotExt y s
  | .ins y => slotIns y s
  | .clz y => slotClz y s
  | .ctz y => slotCtz y s
  | .popc y => slotPopc y s
  | .brev y => slotBrev y s
  | .cmpeq y => slotCmpeq y s
  | .cmpne y => slotCmpne y s
  | .cmplt y => slotCmplt y s
  | .cmple y => slotCmple y s
  | .cmpgt y => slotCmpgt y s
  | .cmpge y => slotCmpge y s
  | .test y => slotTest y s
  | .cmpeqB y => slotCmpeqB y s
  | .cmpneB y => slotCmpneB y s
  | .cmpltB y => slotCmpltB y s
  | .cmpleB y => slotCmpleB y s
  | .cmpgtB y => slotCmpgtB y s
  | .cmpgeB y => slotCmpgeB y s
  | .testB y => slotTestB y s
  | .pand y => slotPand y s
  | .por y => slotPor y s
  | .pxor y => slotPxor y s
  | .pandn y => slotPandn y s
  | .pnot y => slotPnot y s
  | .aadd y => slotAadd y s
  | .asub y => slotAsub y s
  | .aidx y => slotAidx y s
  | .aand y => slotAand y s
  | .acmpeq y => slotAcmpeq y s
  | .acmpne y => slotAcmpne y s
  | .acmplt y => slotAcmplt y s
  | .acmpge y => slotAcmpge y s
  | .br y => slotBr y s
  | .call y => slotCall y s c
  | .callr y => slotCallr y s c
  | .jr y => slotJr y s
  | .loop y => slotLoop y s c
  | .rep y => slotRep y s
  | .yield y => slotYield y s
  | .halt y => slotHalt y s
  | .exit y => slotExit y s
  | .exitStatus y => slotExitStatus y s
  | .fadd y => slotFadd y s c
  | .fsub y => slotFsub y s c
  | .fmul y => slotFmul y s c
  | .fabs y => slotFabs y s
  | .fneg y => slotFneg y s
  | .fma y => slotFma y s c
  | .fms y => slotFms y s c
  | .fnma y => slotFnma y s c
  | .fnms y => slotFnms y s c
  | .fcmpeq y => slotFcmpeq y s
  | .fcmpne y => slotFcmpne y s
  | .fcmplt y => slotFcmplt y s
  | .fcmple y => slotFcmple y s
  | .fcmpgt y => slotFcmpgt y s
  | .fcmpge y => slotFcmpge y s
  | .fmin y => slotFmin y s
  | .fmax y => slotFmax y s
  | .cvt y => slotCvt y s c
  | .frcp y => slotFrcp y s
  | .frsq y => slotFrsq y s
  | .ldL y => slotLdL y s
  | .ldAcqL y => slotLdAcqL y s
  | .ldG y => slotLdG y s
  | .ldAcqG y => slotLdAcqG y s
  | .stL y => slotStL y s
  | .stRelL y => slotStRelL y s
  | .stG y => slotStG y s
  | .stRelG y => slotStRelG y s
  | .prefG y => slotPrefG y s
  | .prefwG y => slotPrefwG y s
  | .prefL y => slotPrefL y s
  | .qalign y => slotQalign y s
  | .fenceCore y => slotFenceCore y s
  | .fenceClus y => slotFenceClus y s
  | .fenceDie y => slotFenceDie y s
  | .fencePkg y => slotFencePkg y s
  | .fencePod y => slotFencePod y s
  | .atomAdd y => slotAtomAdd y s
  | .atomAnd y => slotAtomAnd y s
  | .atomOr y => slotAtomOr y s
  | .atomXor y => slotAtomXor y s
  | .atomMin y => slotAtomMin y s
  | .atomMax y => slotAtomMax y s
  | .atomSwp y => slotAtomSwp y s
  | .atomCas y => slotAtomCas y s
  | .atomFadd y => slotAtomFadd y s
  | .redAdd y => slotRedAdd y s
  | .redAnd y => slotRedAnd y s
  | .redOr y => slotRedOr y s
  | .redXor y => slotRedXor y s
  | .redMin y => slotRedMin y s
  | .redMax y => slotRedMax y s
  | .redFadd y => slotRedFadd y s
  | .trap y => slotTrap y s
  | .rett y => slotRett y s
  | .rdtime y => slotRdtime y s
  | .rdcyc y => slotRdcyc y s
  | .rdsr y => slotRdsr y s
  | .wrsr y => slotWrsr y s
  | .rdwid y => slotRdwid y s
  | .rdwf y => slotRdwf y s
  | .rdwfl y => slotRdwfl y s
  | .locq y => slotLocq y s
  | .sleepto y => slotSleepto y s
  | .sleeptoCp0 y => slotSleeptoCp0 y s
  | .sleeptoCp1 y => slotSleeptoCp1 y s
  | .regsync y => slotRegsync y s
  | .reginv y => slotReginv y s
  | .binit y => slotBinit y s
  | .barr y => slotBarr y s
  | .bwait y => slotBwait y s
  | .btest y => slotBtest y s
  | .brd y => slotBrd y s
  | .enq y => slotEnq y s c
  | .enqp y => slotEnqp y s c
  | .tlrd y => slotTlrd y s
  | .tlwait y => slotTlwait y s
  | .tlflt y => slotTlflt y s
  | .tlfltc y => slotTlfltc y s
  | .statrd y => slotStatrd y s
  | .statrdc y => slotStatrdc y s
  | .vwin y => slotVwin y s
  | .vwinReg y => slotVwinReg y s
  | .sgrp y => slotSgrp y s
  | .sgleave y => slotSgleave y s
  | .sgsync y => slotSgsync y s
  | .sgrd y => slotSgrd y s
  | .tlbinvVa y => slotTlbinvVa y s
  | .tlbinvTbl y => slotTlbinvTbl y s
  | .tlbinvAll y => slotTlbinvAll y s
  | .tlbwait y => slotTlbwait y s
  | .xlat y => slotXlat y s
  | .xlatW y => slotXlatW y s
  | .xlatX y => slotXlatX y s
  | .wpkr y => slotWpkr y s
  | .rpkr y => slotRpkr y s
  | .mighint y => slotMighint y s
  | .circwait y => slotCircwait y s
  | .circq y => slotCircq y s
  | .launch y => slotLaunch y s
  | .lnstat y => slotLnstat y s
  | .qpost y => slotQpost y s
  | .qarm y => slotQarm y s
  | .cntrd y => slotCntrd y s
  | .cntwait y => slotCntwait y s
  | .cntadd y => slotCntadd y s
  | .pncfg y => slotPncfg y s
  | .pnstat y => slotPnstat y s
  | .vfadd y => slotVfadd y s c
  | .vfsub y => slotVfsub y s c
  | .vfmul y => slotVfmul y s c
  | .vfabs y => slotVfabs y s
  | .vfma y => slotVfma y s c
  | .vfms y => slotVfms y s c
  | .vfnma y => slotVfnma y s c
  | .vfnms y => slotVfnms y s c
  | .vfmin y => slotVfmin y s
  | .vfmax y => slotVfmax y s
  | .vfneg y => slotVfneg y s
  | .vadd y => slotVadd y s
  | .vsub y => slotVsub y s
  | .vmin y => slotVmin y s
  | .vmax y => slotVmax y s
  | .vmul y => slotVmul y s
  | .vmulh y => slotVmulh y s
  | .vmad y => slotVmad y s
  | .vabsd y => slotVabsd y s
  | .vabs y => slotVabs y s
  | .vand y => slotVand y s
  | .vor y => slotVor y s
  | .vxor y => slotVxor y s
  | .vandn y => slotVandn y s
  | .vnot y => slotVnot y s
  | .vshl y => slotVshl y s
  | .vshr y => slotVshr y s
  | .vrol y => slotVrol y s
  | .vror y => slotVror y s
  | .vcmpeq y => slotVcmpeq y s
  | .vcmpne y => slotVcmpne y s
  | .vcmplt y => slotVcmplt y s
  | .vcmple y => slotVcmple y s
  | .vcmpgt y => slotVcmpgt y s
  | .vcmpge y => slotVcmpge y s
  | .vtest y => slotVtest y s
  | .vfcmpeq y => slotVfcmpeq y s
  | .vfcmpne y => slotVfcmpne y s
  | .vfcmplt y => slotVfcmplt y s
  | .vfcmple y => slotVfcmple y s
  | .vfcmpgt y => slotVfcmpgt y s
  | .vfcmpge y => slotVfcmpge y s
  | .vsel y => slotVsel y s
  | .vcvt y => slotVcvt y s c
  | .vrcp y => slotVrcp y s
  | .vrsq y => slotVrsq y s
  | .vexp2 y => slotVexp2 y s
  | .vlog2 y => slotVlog2 y s
  | .vtanh y => slotVtanh y s
  | .vredsum y => slotVredsum y s c
  | .vredmin y => slotVredmin y s c
  | .vredmax y => slotVredmax y s c
  | .vscansum y => slotVscansum y s c
  | .vscanmin y => slotVscanmin y s c
  | .vscanmax y => slotVscanmax y s c
  | .vcomp y => slotVcomp y s
  | .vexpd y => slotVexpd y s
  | .vperm y => slotVperm y s
  | .vrotr y => slotVrotr y s
  | .vzipl y => slotVzipl y s
  | .vziph y => slotVziph y s
  | .vuzpe y => slotVuzpe y s
  | .vuzpo y => slotVuzpo y s
  | .vsplat y => slotVsplat y s
  | .viota y => slotViota y s
  | .vrand y => slotVrand y s
  | .vld y => slotVld y s
  | .vst y => slotVst y s
  | .vstm y => slotVstm y s
  | .vext y => slotVext y s
  | .vins y => slotVins y s
  | .vmov y => slotVmov y s
  | .mand y => slotMand y s
  | .mor y => slotMor y s
  | .mxor y => slotMxor y s
  | .mandn y => slotMandn y s
  | .mnot y => slotMnot y s
  | .mfirst y => slotMfirst y s
  | .mcnt y => slotMcnt y s
  | .ppset y => slotPpset y s c
  | .ppdeg y => slotPpdeg y s c
  | .ppmul y => slotPpmul y s c
  | .ppmulv y => slotPpmulv y s c
  | .ppdiv y => slotPpdiv y s c
  | .ppmrg y => slotPpmrg y s c
  | .ppscl y => slotPpscl y s c
  | .pprd y => slotPprd y s
  | .pprdx y => slotPprdx y s
  | .pprdst y => slotPprdst y s
  | .ppwr y => slotPpwr y s c
  | _ => illegalOperand

end Sys2Proof.Machine
end

