-- ==== Sys2Proof/Machine/Dispatch.lean ====
section
/-! DEFINITION. The meaning of every instruction: one direct call per constructor of Instr. -/

namespace Sys2Proof.Machine

def exec (i : Instr) (s : State) : Host.Outcome State Fault Refusal :=
  match i with
  | .nop y => Sys2Proof.Machine.execNop y s
  | .mov y => Sys2Proof.Machine.execMov y s
  | .movB y => Sys2Proof.Machine.execMovB y s
  | .sel y => Sys2Proof.Machine.execSel y s
  | .mova y => Sys2Proof.Machine.execMova y s
  | .movha y => Sys2Proof.Machine.execMovha y s
  | .sxw y => Sys2Proof.Machine.execSxw y s
  | .zxw y => Sys2Proof.Machine.execZxw y s
  | .movaw y => Sys2Proof.Machine.execMovaw y s
  | .movawh y => Sys2Proof.Machine.execMovawh y s
  | .movpw y => Sys2Proof.Machine.execMovpw y s
  | .movwp y => Sys2Proof.Machine.execMovwp y s
  | .rdp y => Sys2Proof.Machine.execRdp y s
  | .wrp y => Sys2Proof.Machine.execWrp y s
  | .movrep y => Sys2Proof.Machine.execMovrep y s
  | .lea y => Sys2Proof.Machine.execLea y s
  | .add y => Sys2Proof.Machine.execAdd y s
  | .sub y => Sys2Proof.Machine.execSub y s
  | .min y => Sys2Proof.Machine.execMin y s
  | .max y => Sys2Proof.Machine.execMax y s
  | .absd y => Sys2Proof.Machine.execAbsd y s
  | .abs y => Sys2Proof.Machine.execAbs y s
  | .addB y => Sys2Proof.Machine.execAddB y s
  | .subB y => Sys2Proof.Machine.execSubB y s
  | .minB y => Sys2Proof.Machine.execMinB y s
  | .maxB y => Sys2Proof.Machine.execMaxB y s
  | .absdB y => Sys2Proof.Machine.execAbsdB y s
  | .absB y => Sys2Proof.Machine.execAbsB y s
  | .mul y => Sys2Proof.Machine.execMul y s
  | .mulh y => Sys2Proof.Machine.execMulh y s
  | .mad y => Sys2Proof.Machine.execMad y s
  | .mulB y => Sys2Proof.Machine.execMulB y s
  | .mulhB y => Sys2Proof.Machine.execMulhB y s
  | .madB y => Sys2Proof.Machine.execMadB y s
  | .and y => Sys2Proof.Machine.execAnd y s
  | .or y => Sys2Proof.Machine.execOr y s
  | .xor y => Sys2Proof.Machine.execXor y s
  | .andn y => Sys2Proof.Machine.execAndn y s
  | .not y => Sys2Proof.Machine.execNot y s
  | .andB y => Sys2Proof.Machine.execAndB y s
  | .orB y => Sys2Proof.Machine.execOrB y s
  | .xorB y => Sys2Proof.Machine.execXorB y s
  | .andnB y => Sys2Proof.Machine.execAndnB y s
  | .notB y => Sys2Proof.Machine.execNotB y s
  | .shl y => Sys2Proof.Machine.execShl y s
  | .shr y => Sys2Proof.Machine.execShr y s
  | .rol y => Sys2Proof.Machine.execRol y s
  | .ror y => Sys2Proof.Machine.execRor y s
  | .shlB y => Sys2Proof.Machine.execShlB y s
  | .shrB y => Sys2Proof.Machine.execShrB y s
  | .rolB y => Sys2Proof.Machine.execRolB y s
  | .rorB y => Sys2Proof.Machine.execRorB y s
  | .ext y => Sys2Proof.Machine.execExt y s
  | .ins y => Sys2Proof.Machine.execIns y s
  | .clz y => Sys2Proof.Machine.execClz y s
  | .ctz y => Sys2Proof.Machine.execCtz y s
  | .popc y => Sys2Proof.Machine.execPopc y s
  | .brev y => Sys2Proof.Machine.execBrev y s
  | .cmpeq y => Sys2Proof.Machine.execCmpeq y s
  | .cmpne y => Sys2Proof.Machine.execCmpne y s
  | .cmplt y => Sys2Proof.Machine.execCmplt y s
  | .cmple y => Sys2Proof.Machine.execCmple y s
  | .cmpgt y => Sys2Proof.Machine.execCmpgt y s
  | .cmpge y => Sys2Proof.Machine.execCmpge y s
  | .test y => Sys2Proof.Machine.execTest y s
  | .cmpeqB y => Sys2Proof.Machine.execCmpeqB y s
  | .cmpneB y => Sys2Proof.Machine.execCmpneB y s
  | .cmpltB y => Sys2Proof.Machine.execCmpltB y s
  | .cmpleB y => Sys2Proof.Machine.execCmpleB y s
  | .cmpgtB y => Sys2Proof.Machine.execCmpgtB y s
  | .cmpgeB y => Sys2Proof.Machine.execCmpgeB y s
  | .testB y => Sys2Proof.Machine.execTestB y s
  | .pand y => Sys2Proof.Machine.execPand y s
  | .por y => Sys2Proof.Machine.execPor y s
  | .pxor y => Sys2Proof.Machine.execPxor y s
  | .pandn y => Sys2Proof.Machine.execPandn y s
  | .pnot y => Sys2Proof.Machine.execPnot y s
  | .aadd y => Sys2Proof.Machine.execAadd y s
  | .asub y => Sys2Proof.Machine.execAsub y s
  | .aidx y => Sys2Proof.Machine.execAidx y s
  | .aand y => Sys2Proof.Machine.execAand y s
  | .acmpeq y => Sys2Proof.Machine.execAcmpeq y s
  | .acmpne y => Sys2Proof.Machine.execAcmpne y s
  | .acmplt y => Sys2Proof.Machine.execAcmplt y s
  | .acmpge y => Sys2Proof.Machine.execAcmpge y s
  | .br y => Sys2Proof.Machine.execBr y s
  | .call y => Sys2Proof.Machine.execCall y s
  | .callr y => Sys2Proof.Machine.execCallr y s
  | .jr y => Sys2Proof.Machine.execJr y s
  | .loop y => Sys2Proof.Machine.execLoop y s
  | .rep y => Sys2Proof.Machine.execRep y s
  | .yield y => Sys2Proof.Machine.execYield y s
  | .halt y => Sys2Proof.Machine.execHalt y s
  | .exit y => Sys2Proof.Machine.execExit y s
  | .exitStatus y => Sys2Proof.Machine.execExitStatus y s
  | .fadd y => Sys2Proof.Machine.execFadd y s
  | .fsub y => Sys2Proof.Machine.execFsub y s
  | .fmul y => Sys2Proof.Machine.execFmul y s
  | .fabs y => Sys2Proof.Machine.execFabs y s
  | .fneg y => Sys2Proof.Machine.execFneg y s
  | .fma y => Sys2Proof.Machine.execFma y s
  | .fms y => Sys2Proof.Machine.execFms y s
  | .fnma y => Sys2Proof.Machine.execFnma y s
  | .fnms y => Sys2Proof.Machine.execFnms y s
  | .fcmpeq y => Sys2Proof.Machine.execFcmpeq y s
  | .fcmpne y => Sys2Proof.Machine.execFcmpne y s
  | .fcmplt y => Sys2Proof.Machine.execFcmplt y s
  | .fcmple y => Sys2Proof.Machine.execFcmple y s
  | .fcmpgt y => Sys2Proof.Machine.execFcmpgt y s
  | .fcmpge y => Sys2Proof.Machine.execFcmpge y s
  | .fmin y => Sys2Proof.Machine.execFmin y s
  | .fmax y => Sys2Proof.Machine.execFmax y s
  | .cvt y => Sys2Proof.Machine.execCvt y s
  | .frcp y => Sys2Proof.Machine.execFrcp y s
  | .frsq y => Sys2Proof.Machine.execFrsq y s
  | .ldL y => Sys2Proof.Machine.execLdL y s
  | .ldAcqL y => Sys2Proof.Machine.execLdAcqL y s
  | .ldG y => Sys2Proof.Machine.execLdG y s
  | .ldAcqG y => Sys2Proof.Machine.execLdAcqG y s
  | .stL y => Sys2Proof.Machine.execStL y s
  | .stRelL y => Sys2Proof.Machine.execStRelL y s
  | .stG y => Sys2Proof.Machine.execStG y s
  | .stRelG y => Sys2Proof.Machine.execStRelG y s
  | .prefG y => Sys2Proof.Machine.execPrefG y s
  | .prefwG y => Sys2Proof.Machine.execPrefwG y s
  | .prefL y => Sys2Proof.Machine.execPrefL y s
  | .qalign y => Sys2Proof.Machine.execQalign y s
  | .fenceCore y => Sys2Proof.Machine.execFenceCore y s
  | .fenceClus y => Sys2Proof.Machine.execFenceClus y s
  | .fenceDie y => Sys2Proof.Machine.execFenceDie y s
  | .fencePkg y => Sys2Proof.Machine.execFencePkg y s
  | .fencePod y => Sys2Proof.Machine.execFencePod y s
  | .atomAdd y => Sys2Proof.Machine.execAtomAdd y s
  | .atomAnd y => Sys2Proof.Machine.execAtomAnd y s
  | .atomOr y => Sys2Proof.Machine.execAtomOr y s
  | .atomXor y => Sys2Proof.Machine.execAtomXor y s
  | .atomMin y => Sys2Proof.Machine.execAtomMin y s
  | .atomMax y => Sys2Proof.Machine.execAtomMax y s
  | .atomSwp y => Sys2Proof.Machine.execAtomSwp y s
  | .atomCas y => Sys2Proof.Machine.execAtomCas y s
  | .atomFadd y => Sys2Proof.Machine.execAtomFadd y s
  | .redAdd y => Sys2Proof.Machine.execRedAdd y s
  | .redAnd y => Sys2Proof.Machine.execRedAnd y s
  | .redOr y => Sys2Proof.Machine.execRedOr y s
  | .redXor y => Sys2Proof.Machine.execRedXor y s
  | .redMin y => Sys2Proof.Machine.execRedMin y s
  | .redMax y => Sys2Proof.Machine.execRedMax y s
  | .redFadd y => Sys2Proof.Machine.execRedFadd y s
  | .trap y => Sys2Proof.Machine.execTrap y s
  | .rett y => Sys2Proof.Machine.execRett y s
  | .rdtime y => Sys2Proof.Machine.execRdtime y s
  | .rdcyc y => Sys2Proof.Machine.execRdcyc y s
  | .rdsr y => Sys2Proof.Machine.execRdsr y s
  | .wrsr y => Sys2Proof.Machine.execWrsr y s
  | .rdwid y => Sys2Proof.Machine.execRdwid y s
  | .rdwf y => Sys2Proof.Machine.execRdwf y s
  | .rdwfl y => Sys2Proof.Machine.execRdwfl y s
  | .locq y => Sys2Proof.Machine.execLocq y s
  | .sleepto y => Sys2Proof.Machine.execSleepto y s
  | .sleeptoCp0 y => Sys2Proof.Machine.execSleeptoCp0 y s
  | .sleeptoCp1 y => Sys2Proof.Machine.execSleeptoCp1 y s
  | .regsync y => Sys2Proof.Machine.execRegsync y s
  | .reginv y => Sys2Proof.Machine.execReginv y s
  | .binit y => Sys2Proof.Machine.execBinit y s
  | .barr y => Sys2Proof.Machine.execBarr y s
  | .bwait y => Sys2Proof.Machine.execBwait y s
  | .btest y => Sys2Proof.Machine.execBtest y s
  | .brd y => Sys2Proof.Machine.execBrd y s
  | .enq y => Sys2Proof.Machine.execEnq y s
  | .enqp y => Sys2Proof.Machine.execEnqp y s
  | .tlrd y => Sys2Proof.Machine.execTlrd y s
  | .tlwait y => Sys2Proof.Machine.execTlwait y s
  | .tlflt y => Sys2Proof.Machine.execTlflt y s
  | .tlfltc y => Sys2Proof.Machine.execTlfltc y s
  | .statrd y => Sys2Proof.Machine.execStatrd y s
  | .statrdc y => Sys2Proof.Machine.execStatrdc y s
  | .vwin y => Sys2Proof.Machine.execVwin y s
  | .vwinReg y => Sys2Proof.Machine.execVwinReg y s
  | .sgrp y => Sys2Proof.Machine.execSgrp y s
  | .sgleave y => Sys2Proof.Machine.execSgleave y s
  | .sgsync y => Sys2Proof.Machine.execSgsync y s
  | .sgrd y => Sys2Proof.Machine.execSgrd y s
  | .tlbinvVa y => Sys2Proof.Machine.execTlbinvVa y s
  | .tlbinvTbl y => Sys2Proof.Machine.execTlbinvTbl y s
  | .tlbinvAll y => Sys2Proof.Machine.execTlbinvAll y s
  | .tlbwait y => Sys2Proof.Machine.execTlbwait y s
  | .xlat y => Sys2Proof.Machine.execXlat y s
  | .xlatW y => Sys2Proof.Machine.execXlatW y s
  | .xlatX y => Sys2Proof.Machine.execXlatX y s
  | .wpkr y => Sys2Proof.Machine.execWpkr y s
  | .rpkr y => Sys2Proof.Machine.execRpkr y s
  | .mighint y => Sys2Proof.Machine.execMighint y s
  | .circwait y => Sys2Proof.Machine.execCircwait y s
  | .circq y => Sys2Proof.Machine.execCircq y s
  | .launch y => Sys2Proof.Machine.execLaunch y s
  | .lnstat y => Sys2Proof.Machine.execLnstat y s
  | .qpost y => Sys2Proof.Machine.execQpost y s
  | .qarm y => Sys2Proof.Machine.execQarm y s
  | .cntrd y => Sys2Proof.Machine.execCntrd y s
  | .cntwait y => Sys2Proof.Machine.execCntwait y s
  | .cntadd y => Sys2Proof.Machine.execCntadd y s
  | .pncfg y => Sys2Proof.Machine.execPncfg y s
  | .pnstat y => Sys2Proof.Machine.execPnstat y s
  | .vfadd y => Sys2Proof.Machine.execVfadd y s
  | .vfsub y => Sys2Proof.Machine.execVfsub y s
  | .vfmul y => Sys2Proof.Machine.execVfmul y s
  | .vfabs y => Sys2Proof.Machine.execVfabs y s
  | .vfma y => Sys2Proof.Machine.execVfma y s
  | .vfms y => Sys2Proof.Machine.execVfms y s
  | .vfnma y => Sys2Proof.Machine.execVfnma y s
  | .vfnms y => Sys2Proof.Machine.execVfnms y s
  | .vfmin y => Sys2Proof.Machine.execVfmin y s
  | .vfmax y => Sys2Proof.Machine.execVfmax y s
  | .vfneg y => Sys2Proof.Machine.execVfneg y s
  | .vadd y => Sys2Proof.Machine.execVadd y s
  | .vsub y => Sys2Proof.Machine.execVsub y s
  | .vmin y => Sys2Proof.Machine.execVmin y s
  | .vmax y => Sys2Proof.Machine.execVmax y s
  | .vmul y => Sys2Proof.Machine.execVmul y s
  | .vmulh y => Sys2Proof.Machine.execVmulh y s
  | .vmad y => Sys2Proof.Machine.execVmad y s
  | .vabsd y => Sys2Proof.Machine.execVabsd y s
  | .vabs y => Sys2Proof.Machine.execVabs y s
  | .vand y => Sys2Proof.Machine.execVand y s
  | .vor y => Sys2Proof.Machine.execVor y s
  | .vxor y => Sys2Proof.Machine.execVxor y s
  | .vandn y => Sys2Proof.Machine.execVandn y s
  | .vnot y => Sys2Proof.Machine.execVnot y s
  | .vshl y => Sys2Proof.Machine.execVshl y s
  | .vshr y => Sys2Proof.Machine.execVshr y s
  | .vrol y => Sys2Proof.Machine.execVrol y s
  | .vror y => Sys2Proof.Machine.execVror y s
  | .vcmpeq y => Sys2Proof.Machine.execVcmpeq y s
  | .vcmpne y => Sys2Proof.Machine.execVcmpne y s
  | .vcmplt y => Sys2Proof.Machine.execVcmplt y s
  | .vcmple y => Sys2Proof.Machine.execVcmple y s
  | .vcmpgt y => Sys2Proof.Machine.execVcmpgt y s
  | .vcmpge y => Sys2Proof.Machine.execVcmpge y s
  | .vtest y => Sys2Proof.Machine.execVtest y s
  | .vfcmpeq y => Sys2Proof.Machine.execVfcmpeq y s
  | .vfcmpne y => Sys2Proof.Machine.execVfcmpne y s
  | .vfcmplt y => Sys2Proof.Machine.execVfcmplt y s
  | .vfcmple y => Sys2Proof.Machine.execVfcmple y s
  | .vfcmpgt y => Sys2Proof.Machine.execVfcmpgt y s
  | .vfcmpge y => Sys2Proof.Machine.execVfcmpge y s
  | .vsel y => Sys2Proof.Machine.execVsel y s
  | .vcvt y => Sys2Proof.Machine.execVcvt y s
  | .vrcp y => Sys2Proof.Machine.execVrcp y s
  | .vrsq y => Sys2Proof.Machine.execVrsq y s
  | .vexp2 y => Sys2Proof.Machine.execVexp2 y s
  | .vlog2 y => Sys2Proof.Machine.execVlog2 y s
  | .vtanh y => Sys2Proof.Machine.execVtanh y s
  | .vredsum y => Sys2Proof.Machine.execVredsum y s
  | .vredmin y => Sys2Proof.Machine.execVredmin y s
  | .vredmax y => Sys2Proof.Machine.execVredmax y s
  | .vscansum y => Sys2Proof.Machine.execVscansum y s
  | .vscanmin y => Sys2Proof.Machine.execVscanmin y s
  | .vscanmax y => Sys2Proof.Machine.execVscanmax y s
  | .vcomp y => Sys2Proof.Machine.execVcomp y s
  | .vexpd y => Sys2Proof.Machine.execVexpd y s
  | .vperm y => Sys2Proof.Machine.execVperm y s
  | .vrotr y => Sys2Proof.Machine.execVrotr y s
  | .vzipl y => Sys2Proof.Machine.execVzipl y s
  | .vziph y => Sys2Proof.Machine.execVziph y s
  | .vuzpe y => Sys2Proof.Machine.execVuzpe y s
  | .vuzpo y => Sys2Proof.Machine.execVuzpo y s
  | .vsplat y => Sys2Proof.Machine.execVsplat y s
  | .viota y => Sys2Proof.Machine.execViota y s
  | .vrand y => Sys2Proof.Machine.execVrand y s
  | .vld y => Sys2Proof.Machine.execVld y s
  | .vst y => Sys2Proof.Machine.execVst y s
  | .vstm y => Sys2Proof.Machine.execVstm y s
  | .vext y => Sys2Proof.Machine.execVext y s
  | .vins y => Sys2Proof.Machine.execVins y s
  | .vmov y => Sys2Proof.Machine.execVmov y s
  | .mand y => Sys2Proof.Machine.execMand y s
  | .mor y => Sys2Proof.Machine.execMor y s
  | .mxor y => Sys2Proof.Machine.execMxor y s
  | .mandn y => Sys2Proof.Machine.execMandn y s
  | .mnot y => Sys2Proof.Machine.execMnot y s
  | .mfirst y => Sys2Proof.Machine.execMfirst y s
  | .mcnt y => Sys2Proof.Machine.execMcnt y s
  | .ppset y => Sys2Proof.Machine.execPpset y s
  | .ppdeg y => Sys2Proof.Machine.execPpdeg y s
  | .ppmul y => Sys2Proof.Machine.execPpmul y s
  | .ppmulv y => Sys2Proof.Machine.execPpmulv y s
  | .ppdiv y => Sys2Proof.Machine.execPpdiv y s
  | .ppmrg y => Sys2Proof.Machine.execPpmrg y s
  | .ppscl y => Sys2Proof.Machine.execPpscl y s
  | .pprd y => Sys2Proof.Machine.execPprd y s
  | .pprdx y => Sys2Proof.Machine.execPprdx y s
  | .pprdst y => Sys2Proof.Machine.execPprdst y s
  | .ppwr y => Sys2Proof.Machine.execPpwr y s
  | .ppaApplyFactor u pp => Sys2Proof.Machine.execPpaApplyFactor u pp s
  | .ppaApplyMerge u pp => Sys2Proof.Machine.execPpaApplyMerge u pp s
  | .ppaApplyRemove u pp => Sys2Proof.Machine.execPpaApplyRemove u pp s
  | .ppaApplySet u pp => Sys2Proof.Machine.execPpaApplySet u pp s
  | .mma q c => Sys2Proof.Machine.execMma q c s
  | .mmas q c => Sys2Proof.Machine.execMmas q c s
  | .mzero q c => Sys2Proof.Machine.execMzero q c s
  | .mload q c => Sys2Proof.Machine.execMload q c s
  | .mdrain q c => Sys2Proof.Machine.execMdrain q c s
  | .pacc q c => Sys2Proof.Machine.execPacc q c s
  | .copy q c => Sys2Proof.Machine.execCopy q c s
  | .feed q c => Sys2Proof.Machine.execFeed q c s
  | .feedm q c => Sys2Proof.Machine.execFeedm q c s
  | .send q c => Sys2Proof.Machine.execSend q c s
  | .gather q c => Sys2Proof.Machine.execGather q c s
  | .scatter q c => Sys2Proof.Machine.execScatter q c s
  | .notify q c => Sys2Proof.Machine.execNotify q c s
  | .commandComplete q => Sys2Proof.Machine.execCommandComplete q s
  | .chainTimeout q => Sys2Proof.Machine.execChainTimeout q s
  | .paccData u => Sys2Proof.Machine.execPaccData u s
  | .paccCommit u => Sys2Proof.Machine.execPaccCommit u s
  | .paccMismatch u => Sys2Proof.Machine.execPaccMismatch u s
  | .paccAbort u => Sys2Proof.Machine.execPaccAbort u s
  | .paccWithdraw u => Sys2Proof.Machine.execPaccWithdraw u s
  | .paccClosed u => Sys2Proof.Machine.execPaccClosed u s
  | .paccFaulted u => Sys2Proof.Machine.execPaccFaulted u s
  | .paccParked u => Sys2Proof.Machine.execPaccParked u s
  | .pairTimeoutLower u => Sys2Proof.Machine.execPairTimeoutLower u s
  | .pairTimeoutHigher u => Sys2Proof.Machine.execPairTimeoutHigher u s
  | .runStart u => Sys2Proof.Machine.execRunStart u s
  | .quantumEnd u => Sys2Proof.Machine.execQuantumEnd u s
  | .strandWake u k => Sys2Proof.Machine.execStrandWake u k s
  | .trapEntry u k => Sys2Proof.Machine.execTrapEntry u k s
  | .loadPerform u k => Sys2Proof.Machine.execLoadPerform u k s
  | .storeVisible u k => Sys2Proof.Machine.execStoreVisible u k s
  | .atomicPerform u k => Sys2Proof.Machine.execAtomicPerform u k s
  | .postedAtomicPerform u k => Sys2Proof.Machine.execPostedAtomicPerform u k s
  | .farStoreArrive m => Sys2Proof.Machine.execFarStoreArrive m s
  | .regionFill u region block => Sys2Proof.Machine.execRegionFill u region block s
  | .regsyncWriteback u k => Sys2Proof.Machine.execRegsyncWriteback u k s
  | .barrArrival u k => Sys2Proof.Machine.execBarrArrival u k s
  | .binitEffect u k => Sys2Proof.Machine.execBinitEffect u k s
  | .cntaddRaise u k => Sys2Proof.Machine.execCntaddRaise u k s
  | .qarmEffect u k => Sys2Proof.Machine.execQarmEffect u k s
  | .cmdareaWrite u k v => Sys2Proof.Machine.execCmdareaWrite u k v s
  | .regionEntryWrite u k region high v => Sys2Proof.Machine.execRegionEntryWrite u k region high v s
  | .mxposWrite u k v => Sys2Proof.Machine.execMxposWrite u k v s
  | .slcfgWrite u k v => Sys2Proof.Machine.execSlcfgWrite u k v s
  | .splitChangeDone c => Sys2Proof.Machine.execSplitChangeDone c s
  | .xrootWrite u k v => Sys2Proof.Machine.execXrootWrite u k v s
  | .repstatWrite u k v => Sys2Proof.Machine.execRepstatWrite u k v s
  | .groupStart c g => Sys2Proof.Machine.execGroupStart c g s
  | .groupUnpark c g => Sys2Proof.Machine.execGroupUnpark c g s
  | .groupBroken c g => Sys2Proof.Machine.execGroupBroken c g s
  | .moveAdmit u k => Sys2Proof.Machine.execMoveAdmit u k s
  | .migrationCommit move => Sys2Proof.Machine.execMigrationCommit move s
  | .migrationRelease move => Sys2Proof.Machine.execMigrationRelease move s
  | .migrationAbort move => Sys2Proof.Machine.execMigrationAbort move s
  | .budgetPeriod => Sys2Proof.Machine.execBudgetPeriod s
  | .tlbinvDispatch u k => Sys2Proof.Machine.execTlbinvDispatch u k s
  | .tlbinvAck u k n die => Sys2Proof.Machine.execTlbinvAck u k n die s
  | .sqest x w => Sys2Proof.Machine.execSqest x w s
  | .sqhold x w => Sys2Proof.Machine.execSqhold x w s
  | .sqtear x w => Sys2Proof.Machine.execSqtear x w s
  | .sqwait x w => Sys2Proof.Machine.execSqwait x w s
  | .sqjmp x w => Sys2Proof.Machine.execSqjmp x w s
  | .sqloop x w => Sys2Proof.Machine.execSqloop x w s
  | .sqsig x w => Sys2Proof.Machine.execSqsig x w s
  | .sqhalt x w => Sys2Proof.Machine.execSqhalt x w s
  | .segmentApply => Sys2Proof.Machine.execSegmentApply s
  | .leaseExpiry x h => Sys2Proof.Machine.execLeaseExpiry x h s
  | .circuitLive x h => Sys2Proof.Machine.execCircuitLive x h s
  | .laserFault port detail => Sys2Proof.Machine.execLaserFault port detail s
  | .ringTuningFault port detail crossing => Sys2Proof.Machine.execRingTuningFault port detail crossing s
  | .dbell p v => Sys2Proof.Machine.execDbell p v s
  | .launchAccept p ticket => Sys2Proof.Machine.execLaunchAccept p ticket s
  | .gangDispatch p ticket node gang place x => Sys2Proof.Machine.execGangDispatch p ticket node gang place x s
  | .instanceComplete u k => Sys2Proof.Machine.execInstanceComplete u k s
  | .launchComplete p ticket => Sys2Proof.Machine.execLaunchComplete p ticket s
  | .launchSlot e => Sys2Proof.Machine.execLaunchSlot e s
  | .preempt p ticket => Sys2Proof.Machine.execPreempt p ticket s
  | .preemptStop p ticket => Sys2Proof.Machine.execPreemptStop p ticket s
  | .restore p ticket place => Sys2Proof.Machine.execRestore p ticket place s
  | .unitpartWrite u v => Sys2Proof.Machine.execUnitpartWrite u v s
  | .oportpartWrite port v => Sys2Proof.Machine.execOportpartWrite port v s
  | .seqpartWrite sq v => Sys2Proof.Machine.execSeqpartWrite sq v s
  | .vfpartWrite vf v => Sys2Proof.Machine.execVfpartWrite vf v s
  | .policyWrite p v => Sys2Proof.Machine.execPolicyWrite p v s
  | .frtWrite p v => Sys2Proof.Machine.execFrtWrite p v s
  | .cntWrite p c v => Sys2Proof.Machine.execCntWrite p c v s
  | .qpcfgWrite p q v => Sys2Proof.Machine.execQpcfgWrite p q v s
  | .qpringWrite p q v => Sys2Proof.Machine.execQpringWrite p q v s
  | .qperrWrite p q v => Sys2Proof.Machine.execQperrWrite p q v s
  | .apertureWrite off v => Sys2Proof.Machine.execApertureWrite off v s
  | .ptctlWrite v => Sys2Proof.Machine.execPtctlWrite v s
  | .ptoffWrite v => Sys2Proof.Machine.execPtoffWrite v s
  | .ptpMessage off port => Sys2Proof.Machine.execPtpMessage off port s
  | .pcfgWrite p v => Sys2Proof.Machine.execPcfgWrite p v s
  | .kswWrite l v => Sys2Proof.Machine.execKswWrite l v s
  | .fecctlWrite l v => Sys2Proof.Machine.execFecctlWrite l v s
  | .keySlotWrite rx l slot word v => Sys2Proof.Machine.execKeySlotWrite rx l slot word v s
  | .lendingBoundary e => Sys2Proof.Machine.execLendingBoundary e s
  | .laneServe e lane => Sys2Proof.Machine.execLaneServe e lane s
  | .flitData l f => Sys2Proof.Machine.execFlitData l f s
  | .req l f => Sys2Proof.Machine.execReq l f s
  | .resp l f => Sys2Proof.Machine.execResp l f s
  | .flitAck l f => Sys2Proof.Machine.execFlitAck l f s
  | .nak l f => Sys2Proof.Machine.execNak l f s
  | .keysw l f => Sys2Proof.Machine.execKeysw l f s
  | .propose l f => Sys2Proof.Machine.execPropose l f s
  | .accept l f => Sys2Proof.Machine.execAccept l f s
  | .fecCommit l f => Sys2Proof.Machine.execFecCommit l f s
  | .decline l f => Sys2Proof.Machine.execDecline l f s
  | .flitAckTimeout l => Sys2Proof.Machine.execFlitAckTimeout l s
  | .flitPassDeadline l => Sys2Proof.Machine.execFlitPassDeadline l s
  | .fecAcceptTimeout l => Sys2Proof.Machine.execFecAcceptTimeout l s
  | .fecWaitExpiry l => Sys2Proof.Machine.execFecWaitExpiry l s
  | .linkDown l detail => Sys2Proof.Machine.execLinkDown l detail s
  | .farAccessTimeout id => Sys2Proof.Machine.execFarAccessTimeout id s
  | .uetPacket p => Sys2Proof.Machine.execUetPacket p s
  | .entryFire p => Sys2Proof.Machine.execEntryFire p s
  | .write p piece => Sys2Proof.Machine.execWrite p piece s
  | .wred p piece => Sys2Proof.Machine.execWred p piece s
  | .orderedCombine p => Sys2Proof.Machine.execOrderedCombine p s
  | .entryRetire p => Sys2Proof.Machine.execEntryRetire p s
  | .pnb p => Sys2Proof.Machine.execPnb p s
  | .ruleStart p t b u k => Sys2Proof.Machine.execRuleStart p t b u k s
  | .blockCommit p t b => Sys2Proof.Machine.execBlockCommit p t b s
  | .pnNotice p t => Sys2Proof.Machine.execPnNotice p t s
  | .pnAck p t => Sys2Proof.Machine.execPnAck p t s
  | .pnDemote p t => Sys2Proof.Machine.execPnDemote p t s
  | .pnTakeover p t => Sys2Proof.Machine.execPnTakeover p t s
  | .pnFenced p t => Sys2Proof.Machine.execPnFenced p t s
  | .stepDeadline p t step => Sys2Proof.Machine.execStepDeadline p t step s
  | .pncfgEffect u k => Sys2Proof.Machine.execPncfgEffect u k s
  | .strandEccError u k e => Sys2Proof.Machine.execStrandEccError u k e s
  | .coreEccError u e => Sys2Proof.Machine.execCoreEccError u e s
  | .dieLoss d => Sys2Proof.Machine.execDieLoss d s
  | .hostDma write addr data stale => Sys2Proof.Machine.execHostDma write addr data stale s
  | .boot b => Sys2Proof.Machine.execBoot b s
  | .clockStep watts => Sys2Proof.Machine.execClockStep watts s
  | .thermalP2 hot inlet => Sys2Proof.Machine.execThermalP2 hot inlet s
  | .trip hot lowFlow => Sys2Proof.Machine.execTrip hot lowFlow s
  | .getVersion => Sys2Proof.Machine.execGetVersion s
  | .getCapabilities => Sys2Proof.Machine.execGetCapabilities s
  | .negotiateAlgorithms offered => Sys2Proof.Machine.execNegotiateAlgorithms offered s
  | .getCertificate => Sys2Proof.Machine.execGetCertificate s
  | .challenge nonce => Sys2Proof.Machine.execChallenge nonce s
  | .getMeasurements nonce => Sys2Proof.Machine.execGetMeasurements nonce s
  | .telemetrySample watts temps flow dropped => Sys2Proof.Machine.execTelemetrySample watts temps flow dropped s
  | .pcapWrite v => Sys2Proof.Machine.execPcapWrite v s
  | .mext v => Sys2Proof.Machine.execMext v s
  | .enterP0 watts hot => Sys2Proof.Machine.execEnterP0 watts hot s
  | .memoryEccError e => Sys2Proof.Machine.execMemoryEccError e s
  | .clusterEccError c e => Sys2Proof.Machine.execClusterEccError c e s
  | .entryAckTimeout p n => Sys2Proof.Machine.execEntryAckTimeout p n s
  | .launchSlotDispatchTimeout e => Sys2Proof.Machine.execLaunchSlotDispatchTimeout e s
  | .hostCxlMemAccess write addr data => Sys2Proof.Machine.execHostCxlMemAccess write addr data s

end Sys2Proof.Machine
end

