-- ==== Sys2Proof/WellFormed.lean ====
section
/-! DEFINITION. Which instructions are well-formed: a syllable that stands alone, a command that its
queue's engine takes, a sequencer word without a reserved bit, and an event whose parameters name
something of the module. -/

namespace Sys2Proof

/-! ### Slot instructions -/

/-- A lone bundle of the syllable: its form and fields are accepted, and a blocking form names no latch
(R28, R38, R52, R72). -/
noncomputable def wfSlot (i : Instr) (maj : Nat) (y : Syl) : Bool :=
  wfSyl i maj y
    && (match lookupForm maj y.form.toNat with
      | some r => !(r.blocking && (y.s1.isLatch || y.s2.isLatch || y.s3.isLatch))
      | none => false)

/-! ### What parameters name -/

/-- A unit of R398. -/
def unitOk (u : UnitNo) : Bool := u.toNat < 560
/-- A partition of R343. -/
def partOk (p : PartNo) : Bool := p.toNat < 32
/-- An optical port of R309. -/
def portOk (p : BitVec 7) : Bool := p.toNat < 80
/-- A virtual function of R342. -/
def vfOk (v : BitVec 9) : Bool := v.toNat < 384
/-- A die with memory of its own: CD0 to CD7, FD0 and FD1 (R284). -/
def dieOk (d : BitVec 4) : Bool := d.toNat < 10
/-- A die that holds translations: those and the I/O die (R297). -/
def dirDieOk (d : BitVec 4) : Bool := d.toNat < 11
/-- A reason of R389 for which a link goes down. -/
def downOk (d : Byte) : Bool := [0x01, 0x03, 0x04, 0x08].contains d.toNat
/-- Bytes within the physical address space (R270). -/
def rangeOk (a : BitVec 52) (d : List Byte) : Bool := a.toNat + d.length ≤ 2 ^ 52
/-- An aligned word of the aperture (R345). -/
def offOk (o : BitVec 40) : Bool := o.toNat % 8 == 0
/-- A word of a key slot that holds bytes of it (R379). -/
def keyWordOk (k : BitVec 3) : Bool := k.toNat ≤ 4
/-- A payload of at most 4,096 bytes, within its message (R395). -/
def packetOk (p : UetPacket) : Bool :=
  match p with
  | .data _ _ _ _ off total bytes => bytes.length ≤ 4096 && off + bytes.length ≤ total
  | .receive _ u bar => unitOk u && bar.toNat < 512
  | .ordered _ _ | .trimmed _ _ | .ack _ _ | .error _ _ | .nack _ _ | .context _ _ _ _ _ _ _ _ => true

/-- An event's parameters. -/
def wfEvent (i : Instr) : Bool :=
  match i with
  | .ppaApplyFactor u _ => unitOk u
  | .ppaApplyMerge u _ => unitOk u
  | .ppaApplyRemove u _ => unitOk u
  | .ppaApplySet u _ => unitOk u
  | .mma q _ => unitOk q.unit
  | .mmas q _ => unitOk q.unit
  | .mzero q _ => unitOk q.unit
  | .mload q _ => unitOk q.unit
  | .mdrain q _ => unitOk q.unit
  | .pacc q _ => unitOk q.unit
  | .copy q _ => unitOk q.unit
  | .feed q _ => unitOk q.unit
  | .feedm q _ => unitOk q.unit
  | .send q _ => unitOk q.unit
  | .gather q _ => unitOk q.unit
  | .scatter q _ => unitOk q.unit
  | .notify q _ => unitOk q.unit
  | .commandComplete q => unitOk q.unit
  | .chainTimeout q => unitOk q.unit
  | .paccData u => unitOk u
  | .paccCommit u => unitOk u
  | .paccMismatch u => unitOk u
  | .paccAbort u => unitOk u
  | .paccWithdraw u => unitOk u
  | .paccClosed u => unitOk u
  | .paccFaulted u => unitOk u
  | .paccParked u => unitOk u
  | .pairTimeoutLower u => unitOk u
  | .pairTimeoutHigher u => unitOk u
  | .runStart u => unitOk u
  | .quantumEnd u => unitOk u
  | .strandWake u _ => unitOk u
  | .trapEntry u _ => unitOk u
  | .loadPerform u _ => unitOk u
  | .storeVisible u _ => unitOk u
  | .atomicPerform u _ => unitOk u
  | .postedAtomicPerform u _ => unitOk u
  | .farStoreArrive _ => true
  | .regionFill u _ _ => unitOk u
  | .regsyncWriteback u _ => unitOk u
  | .barrArrival u _ => unitOk u
  | .binitEffect u _ => unitOk u
  | .cntaddRaise u _ => unitOk u
  | .qarmEffect u _ => unitOk u
  | .cmdareaWrite u _ _ => unitOk u
  | .regionEntryWrite u _ _ _ _ => unitOk u
  | .mxposWrite u _ _ => unitOk u
  | .slcfgWrite u _ _ => unitOk u
  | .splitChangeDone _ => true
  | .xrootWrite u _ _ => unitOk u
  | .repstatWrite u _ _ => unitOk u
  | .groupStart _ _ => true
  | .groupUnpark _ _ => true
  | .groupBroken _ _ => true
  | .moveAdmit u _ => unitOk u
  | .migrationCommit _ => true
  | .migrationRelease _ => true
  | .migrationAbort _ => true
  | .budgetPeriod => true
  | .tlbinvDispatch u _ => unitOk u
  | .tlbinvAck u _ _ die => unitOk u && dirDieOk die
  | .sqest _ _ => true
  | .sqhold _ _ => true
  | .sqtear _ _ => true
  | .sqwait _ _ => true
  | .sqjmp _ _ => true
  | .sqloop _ _ => true
  | .sqsig _ _ => true
  | .sqhalt _ _ => true
  | .segmentApply => true
  | .leaseExpiry _ _ => true
  | .circuitLive _ _ => true
  | .laserFault port _ => portOk port
  | .ringTuningFault port _ _ => portOk port
  | .dbell p _ => partOk p
  | .launchAccept p _ => partOk p
  | .gangDispatch p _ _ _ place _ => partOk p && place.all unitOk
  | .instanceComplete u _ => unitOk u
  | .launchComplete p _ => partOk p
  | .launchSlot _ => true
  | .preempt p _ => partOk p
  | .preemptStop p _ => partOk p
  | .restore p _ place => partOk p && place.all unitOk
  | .unitpartWrite u _ => unitOk u
  | .oportpartWrite port _ => portOk port
  | .seqpartWrite _ _ => true
  | .vfpartWrite vf _ => vfOk vf
  | .policyWrite p _ => partOk p
  | .frtWrite p _ => partOk p
  | .cntWrite p _ _ => partOk p
  | .qpcfgWrite p _ _ => partOk p
  | .qpringWrite p _ _ => partOk p
  | .qperrWrite p _ _ => partOk p
  | .apertureWrite off _ => offOk off
  | .ptctlWrite _ => true
  | .ptoffWrite _ => true
  | .ptpMessage _ _ => true
  | .pcfgWrite _ _ => true
  | .kswWrite _ _ => true
  | .fecctlWrite _ _ => true
  | .keySlotWrite _ _ _ word _ => keyWordOk word
  | .lendingBoundary _ => true
  | .laneServe _ _ => true
  | .flitData _ _ => true
  | .req _ _ => true
  | .resp _ _ => true
  | .flitAck _ _ => true
  | .nak _ _ => true
  | .keysw _ _ => true
  | .propose _ _ => true
  | .accept _ _ => true
  | .fecCommit _ _ => true
  | .decline _ _ => true
  | .flitAckTimeout _ => true
  | .flitPassDeadline _ => true
  | .fecAcceptTimeout _ => true
  | .fecWaitExpiry _ => true
  | .linkDown _ detail => downOk detail
  | .farAccessTimeout _ => true
  | .uetPacket p => packetOk p
  | .entryFire _ => true
  | .write _ _ => true
  | .wred _ _ => true
  | .orderedCombine _ => true
  | .entryRetire _ => true
  | .pnb _ => true
  | .ruleStart p _ _ u _ => partOk p && unitOk u
  | .blockCommit p _ _ => partOk p
  | .pnNotice p _ => partOk p
  | .pnAck p _ => partOk p
  | .pnDemote p _ => partOk p
  | .pnTakeover p _ => partOk p
  | .pnFenced p _ => partOk p
  | .stepDeadline p _ _ => partOk p
  | .pncfgEffect u _ => unitOk u
  | .strandEccError u _ _ => unitOk u
  | .coreEccError u _ => unitOk u
  | .dieLoss d => dieOk d
  | .hostDma _ addr data _ => rangeOk addr data
  | .boot _ => true
  | .clockStep _ => true
  | .thermalP2 _ _ => true
  | .trip _ _ => true
  | .getVersion => true
  | .getCapabilities => true
  | .negotiateAlgorithms _ => true
  | .getCertificate => true
  | .challenge _ => true
  | .getMeasurements _ => true
  | .telemetrySample _ _ _ _ => true
  | .pcapWrite _ => true
  | .mext _ => true
  | .enterP0 _ _ => true
  | .memoryEccError _ => true
  | .clusterEccError _ _ => true
  | .entryAckTimeout _ _ => true
  | .launchSlotDispatchTimeout _ => true
  | .hostCxlMemAccess _ addr data => rangeOk addr data
  | _ => true

/-! ### The whole -/

/-- Well-formed. -/
noncomputable def Instr.wf (i : Instr) : Bool :=
  match i.syl?, i.cmd?, i.seq? with
  | some (maj, y), _, _ => wfSlot i maj y
  | none, some (op, q, c), _ => unitOk q.unit && (frameOk (q.queue.toNat % 4) (encodeCmd op c)).isNone
  | none, none, some (op, _, a) => seqFieldsOk op a
  | none, none, none => wfEvent i

end Sys2Proof
end

