-- ==== Sys2Proof/Machine/Acts.lean ====
section
/-! DEFINITION. The acts of the module: a strand issues the bundle at its pc, the members of a group issue
together, an engine takes its next command, time passes. -/

namespace Sys2Proof.Machine

/-! ### A strand issues -/

/-- What a slot does beside the others of its bundle: a WRSR FORM 7 that names, while it executes, a control
register which another slot writes raises ILLEGAL-INSTRUCTION (R28). -/
noncomputable def State.slotMeaning (s : State) (ts : List Slot) (t : Slot) (c : Ctx) : Rd Done :=
  match t.instr with
  | .wrsr y =>
    if isX y then slotWrsr y s
    else do
      let n ← crNumber s y
      if ts.any (fun q => q.cls != t.cls && q.dests.contains (1000 + n)) then .error (.trap causeIllegalInstruction 0 0)
      else slotWrsr y s
  | i => slotRun i s c

/-- A decoded slot of a bundle with its meaning. -/
noncomputable def State.slotOf (s : State) (ts : List Slot) (r : RawSyl) (t : Slot) : SlotRun :=
  mkSlot t.maj r.off t.syl (s.slotMeaning ts t)

/-- The decoded bundle of fetched syllables. -/
noncomputable def State.bundleOf (s : State) (rs : List RawSyl) (ts : List Slot) : Bundle :=
  ⟨rawLen rs, List.zipWith (s.slotOf ts) rs ts⟩

/-- The trap of a failed fetch (R291, R294, DEDUCED, log entry 21). -/
def State.fetchTrap (s : State) (e : FetchErr) : State :=
  match e with
  | .xlate f ea => s.trapHere f.cause ea f.word 0 0
  | .poison ea =>
    -- lines of another module that failed are asked for again
    let s := s.dropReqs (fun r => r.owner == some (s.curU.toNat, fetchMark) && r.fail.isSome)
    s.trapHere causePoison ea s.me.pc 0 0

/-- The acting strand executes a decoded bundle: one instruction by its own meaning, several together. -/
noncomputable def State.execBundle (s : State) (rs : List RawSyl) (ts : List Slot) : Host.Outcome State Fault Refusal :=
  match ts with
  | [t] => exec t.instr s
  | ts => .next (s.runBundle (s.bundleOf rs ts))

/-- Strand k of unit u fetches, decodes and executes the bundle at its pc (R26, R52, R53). -/
noncomputable def State.issueBundle (s : State) (u : UnitNo) (k : StrandNo) : Host.Outcome State Fault Refusal :=
  match (s.actAs u k).fetchBundle u k .demand with
  | (.error e, s1) => .next (s1.fetchTrap e)
  | (.ok rs, s1) => match decodeBundle rs with
    | .error (r, _) => .next (s1.trapHere causeIllegalInstruction 0 0 (field r.w0 9 8) r.off)
    | .ok ts => s1.execBundle rs ts

/-- What strand k of unit u does when it is its turn: the trap it is about to enter first, then a held trap,
then the end of its quantum, then its bundle (R73, R82, R122). -/
noncomputable def State.turn (s : State) (u : UnitNo) (k : StrandNo) : Host.Outcome State Fault Refusal :=
  match (s.strand u k).entering with
  | some e => .next (if (s.strand u k).entryWaits then s.tickCore u 1 else (s.actAs u k).finishTrap u k e)
  | none =>
  if s.asyncDue u k then .next ((s.actAs u k).takeAsync u k)
  else if s.quantumDue u k && (s.core u).group.isNone then .next (s.quantumEnd u k)
  else s.issueBundle u k

/-- The fetch of strand k would walk through a table page whose record is being evicted (R297). -/
def State.fetchWaits (s : State) (u : UnitNo) (k : StrandNo) : Bool :=
  let pc := (s.strand u k).pc
  s.pieceWaits (s.fetchWho u k) pc || s.pieceWaits (s.fetchWho u k) (pc + 59)

/-- The lines of other modules' memory that hold the bytes from pc on: the bundle and the one after it (R26, R380). -/
def State.fetchLines (s : State) (u : UnitNo) (k : StrandNo) : List (Nat × Nat) :=
  let pc := (s.strand u k).pc
  ((piecesOf pc 120).flatMap (fun p => match (s.translate (s.fetchWho u k) p.1 .fetch .quiet).1 with
    | .ok h => if isFar h.key then (List.range ((h.key + p.2 - 1) / 128 - h.key / 128 + 1)).map (fun i => ((h.key / 128 + i) * 128, 128))
               else []
    | .error _ => []))

/-- Of those lines, the ones that have still to be asked for. -/
def State.fetchMissing (s : State) (u : UnitNo) (k : StrandNo) : List (Nat × Nat) :=
  notAsked (s.markReqs u fetchMark) (s.fetchLines u k)

/-- A line that the fetch of strand k needs is on its way. -/
def State.fetchComing (s : State) (u : UnitNo) (k : StrandNo) : Bool :=
  (s.fetchLines u k).any (fun p => (s.markReqs u fetchMark).any (fun r => r.waits && rangesMeet p.1 p.2 r.key r.bytes))

/-- The core asks for far lines of the code of strand k, through its port (R380; DESIGN CHOICE, log entry 11). -/
def State.fetchFar (s : State) (u : UnitNo) (k : StrandNo) : State := s.bring u k fetchMark (s.strand u k).pc (s.fetchMissing u k)

/-- Strand k of unit u has the issue unit, and nothing holds its fetch back. A member of a group issues by itself only
to complete its SGRP or SGSYNC, and in the handler of its own fault hold (R257, R258). -/
def State.mayIssue (s : State) (u : UnitNo) (k : StrandNo) : Bool :=
  let c := s.core u
  (s.strand u k).run == .running && c.active == some k && !c.stoppedEngines
  && s.mayReach u (c.cycle.toNat + 1) && !s.fetchWaits u k
  && (match c.group with
    | none => true
    | some g =>
      let x := s.groupOf (unitCluster u) g.toNat
      let i := u.toNat % 16
      x.started && (!x.done.getLsbD i || x.synced.getLsbD i || x.faultHold.getLsbD i))

noncomputable def State.issueAct (s : State) (u : UnitNo) (k : StrandNo) : Host.Outcome State Fault Refusal :=
  if !s.mayIssue u k then .next s
  else if !(s.fetchMissing u k).isEmpty then .next (s.fetchFar u k)
  else if s.fetchComing u k then .next s
  else s.turn u k

/-! ### Members of a group -/

/-- The state after an outcome; a fault or refusal leaves it. -/
def afterOutcome (s : State) : Host.Outcome State Fault Refusal → State
  | .next t => t
  | _ => s

/-- The bundle at the pc of a member, none where it traps. -/
noncomputable def memberFetch : MemberRun := fun s u k =>
  match s.fetchBundle u k .demand with
  | (.error _, _) => none
  | (.ok rs, s1) => match decodeBundle rs with
    | .error _ => none
    | .ok ts => some (s1.bundleOf rs ts)

/-- The members of a group issue; where the fetch of one waits for far lines, no cycle of the group passes. -/
noncomputable def State.groupTurn (s : State) (c : ClusterNo) (g : BitVec 2) : State :=
  let ms := (s.groupOf c.toNat g.toNat).members.map (fun m => (memberUnit c.toNat m.1, (BitVec.ofNat 3 m.2 : StrandNo)))
  match ms.find? (fun m => !(s.fetchMissing m.1 m.2).isEmpty) with
  | some m => s.fetchFar m.1 m.2
  | none =>
    if ms.any (fun m => s.fetchComing m.1 m.2) then s
    else s.groupAct c g memberFetch (fun s u k => afterOutcome s (s.turn u k))

/-! ### An engine takes a command -/

/-- An idle engine takes the head command of the queue whose turn it is (R161); a busy one works on (R202). -/
noncomputable def State.engineAct (s : State) (u : UnitNo) (e : BitVec 2) : Host.Outcome State Fault Refusal :=
  if Table.has (s.core u).eng e.toNat then .next (s.writeEarly u e.toNat)
  else match s.nextQueue u e.toNat with
    | none => .next s
    | some n => match ((s.core u).queue n).entries with
      | [] => .next s
      | x :: _ => match decodeCmd ⟨u, BitVec.ofNat 5 n⟩ x.word with
        | .ok i => exec i s
        | .error _ => .next s

/-! ### An event comes about -/

/-- Between s and t a walk has read a table page whose record is being evicted: what walks waits (R297). -/
def State.walkedEvicted (s t : State) : Bool := s.evictions.any (fun e => Table.has t.homes.dir e.page)

/-- A slot instruction comes about only by issue; an event whose parameters name nothing of the module does
not come about, and one whose walk has to wait comes about later. -/
def State.eventAct (s : State) (i : Instr) : Host.Outcome State Fault Refusal :=
  if i.syl?.isNone && wfEvent i then
    match exec i s with
    | .next t => .next (if s.walkedEvicted t then s else t)
    | o => o
  else .next s

/-! ### Time (DESIGN CHOICE, log entry 24) -/

/-- How many cc may pass at a unit before something must happen there: the start of the next run (R71), or of
the group it has joined (R260). -/
def State.cycleRoom (s : State) (u : UnitNo) : Nat :=
  let c := s.core u
  let run := if c.active.isNone && s.anyReady u && !c.stoppedEngines then c.runAt - c.cycle.toNat else 2 ^ 64
  Nat.min run (match s.startLimit u with
    | some m => m - c.cycle.toNat
    | none => 2 ^ 64)

/-- The unit's member is in a fault hold of its group. -/
def State.inFaultHold (s : State) (u : UnitNo) : Bool :=
  match (s.core u).group with
  | some g => (s.groupOf (unitCluster u) g.toNat).faultHold.getLsbD (u.toNat % 16)
  | none => false

/-- n cc pass at a unit that no group holds in step, at most to the next thing that must happen there. -/
def State.cyclesAct (s : State) (u : UnitNo) (n : Nat) : State :=
  let n := Nat.min n (s.cycleRoom u)
  if n = 0 || ((s.core u).group.isSome && !s.inFaultHold u) then s else s.tickCore u n

/-- The package times at which something falls due. -/
def State.dueTimes (s : State) : List Nat :=
  s.seqs.flatMap (fun (q : Nat × Seq) => q.2.nextTime)
  ++ (s.fabricLimits ++ s.nodeLimits ++ s.slotTable.filterMap (fun (e : Nat × SlotEntry) => (s.slotLimit e.2).map (· + 1))).filter
      (fun t => s.ptime.toNat < t)
  ++ s.slotTable.filterMap (fun (e : Nat × SlotEntry) => s.slotDue e.2)
  ++ [(s.ptime.toNat / 2000 + 1) * 2000, (s.homes.period + 1) * 100000, 2 ^ 64 - 1]

/-- How far package time may move: to the next time at which something falls due. -/
def State.timeRoom (s : State) : Nat :=
  (s.dueTimes.map (fun t => t - s.ptime.toNat)).foldl Nat.min (2 ^ 64)

/-- The offset still to be made up after n ns, at 100 ppm: 1 ns in every 10,000 (R346). -/
def Clock.after (c : Clock) (n : Nat) : Clock :=
  let k := (c.frac + n) / 10000
  { c with slew := if 0 ≤ c.slew then max 0 (c.slew - (k : Nat)) else min 0 (c.slew + (k : Nat))
           frac := if c.slew = 0 then 0 else (c.frac + n) % 10000 }

/-- The copy of a move goes on for n ns, within the budget of activity 0 at both home agents; a pause is no copy
time (R281, R283). -/
def Homes.copyOn (h : Homes) (n : Nat) (m : Move) : Homes :=
  let a := homeAgent (m.oldFrame * 4096)
  let b := homeAgent (m.newFrame * 4096)
  let w := Nat.min n (Nat.min (h.budget 0 - h.used 0 a) (h.budget 0 - h.used 0 b))
  if !m.started || m.committed then h
  else
    let h1 := (h.charge 0 a w)
    let h2 := if a = b then h1 else h1.charge 0 b w
    { h2 with moves := h2.moves.map (fun x => if x.id == m.id then { x with copyNs := x.copyNs + w } else x) }

/-- The patrol scrubs for some of n ns at every home agent, within its budget (R283; DESIGN CHOICE, log entry 24). -/
def Homes.scrub (h : Homes) (n tick : Nat) : Homes :=
  h.agents.foldl (fun (h : Homes) a => h.charge 1 a (Nat.min n (Config.activityNs 1 tick))) h

/-- ns of package time pass, at most to the next time at which something falls due: before they pass, the limits
that have run out take effect; copies under way go on (R283), and what falls due in the sequencer takes effect (R318). -/
def State.advanceAct (s : State) (ns : Nat) : State :=
  let s := s.limitsOut
  let n := Nat.min ns s.timeRoom
  State.fabricDue { s with ptime := s.ptime + BitVec.ofNat 64 n
                           clock := s.clock.after n
                           homes := (s.homes.moves.foldl (fun h m => h.copyOn n m) s.homes).scrub n s.tick
                           tick := s.tick + 1 }

/-! ### The next act -/

/-- The act that comes next: the agenda's first, else one that nothing fixes (DESIGN CHOICE, log entry 10). -/
def State.nextAct (s : State) : Act × State :=
  match s.agenda with
  | a :: rest => (a, { s with agenda := rest })
  | [] => (Config.nextAct s.tick, { s with tick := s.tick + 1 })

/-- Without power nothing of the module acts; time passes, and it may boot (R436, R437). -/
def State.mayAct (s : State) (a : Act) : Bool :=
  s.service.power != .trip || (match a with
    | .advance _ | .event (.boot _) => true
    | _ => false)

noncomputable def State.act (s : State) (a : Act) : Host.Outcome State Fault Refusal :=
  if !s.mayAct a then .next s
  else match a with
  | .issue u k => if u.toNat < 560 then s.issueAct u k else .fault .noSuchUnit
  | .group c g => .next (s.groupTurn c g)
  | .engine u e => if u.toNat < 560 then s.engineAct u e else .fault .noSuchUnit
  | .event i => s.eventAct i
  | .cycles u n => .next (s.cyclesAct u n)
  | .advance ns => .next (s.advanceAct ns)

/-! ### Placing one instruction (withFetchWord) -/

/-- The frame that holds a placed instruction: the first of CD0's local aperture. -/
def placeFrame : Nat := 0x008000000000

/-- A translation that lets unit 0 fetch the page of an address from that frame. -/
def placeTlb (part : Nat) (pc : W64) : TlbEntry :=
  { part := part, base := va57 pc / 4096 * 4096, size := 4096, leaf := BitVec.ofNat 64 (placeFrame + 0x437), level := 1
    entry := 0, table := 0 }

/-- s after bring-up (R437). -/
def State.broughtUp (s : State) : State := { s with service := { s.service with booted := true } }

/-- s with bytes at the pc of strand 0 of unit 0, which is RUNNING and issues next. -/
def State.placeBundle (s : State) (data : List Byte) : State :=
  let s := s.broughtUp
  let t := s.strand 0 0
  let c := s.core 0
  let s := s.setStrand 0 0 { t with run := .running }
  let s := s.setCore 0 { c with active := some 0, tlb := placeTlb (s.unitPart 0) t.pc :: c.tlb }
  { s with mem := s.mem.writeN (placeFrame + t.pc.toNat % 4096) data, agenda := [.issue 0 0] }

/-- s with a command at the head of a queue of strand 0 of unit 0 whose engine takes it next; a command
that consumes operands finds full slots. -/
def State.placeCmd (s : State) (w : CmdWord) : State :=
  let s := s.broughtUp
  let e := ((cmdEngines (cmdOp w))[0]?).getD 0
  let c := s.core 0
  let x := c.queue e
  let q : QEntry := { num := x.nx + 1, word := w, key := 0, ctr := 0, sup := false, pkr := 0, seq := 0, pend := none
                      failed := false, promise := BitVec.allOnes 64, bad := false }
  let full : List (Nat × FSlot) := (List.range 4).map (fun k => (k, { FSlot.reset with state := .full }))
  let c := if opConsumes (cmdOp w) then { c with fifoA := full, fifoB := full } else c
  (s.setCore 0 (c.setQueue e { x with entries := [q], nx := x.nx + 1 })) |> fun s => { s with agenda := [.engine 0 (BitVec.ofNat 2 e)] }

/-- s with a circuit program of one word in context 0, at its first boundary. -/
noncomputable def State.placeSeq (s : State) (w : W64) : State :=
  match decodeSeq 0 w with
  | .ok i =>
    let q : Seq := { Seq.reset with loaded := true, prog := [w], origin := s.ptime, next := some 0 }
    { s.broughtUp.setSeq 0 q with agenda := [.event i] }
  | .error _ => s

end Sys2Proof.Machine
end

