-- ==== Sys2Proof/Machine/Step.lean ====
section
/-! DEFINITION. One step of the module, and a state in which the next step runs a given instruction. -/

namespace Sys2Proof.Machine

/-- One step: the next act of the module. -/
noncomputable def step (s : State) : Host.Outcome State Fault Refusal :=
  match s.nextAct with
  | (a, s1) => s1.act a

/-- s with the instruction whose bits are w where the next step fetches it: a command of 256 bits in a
queue, a syllable at the pc of strand 0 of unit 0 (the stop bit, which belongs to the bundle, set), or a
sequencer word in context 0 (DEDUCED, log entry 34). -/
noncomputable def State.withFetchWord (s : State) (nbits w : Nat) : State :=
  let w := w % 2 ^ nbits
  if nbits = 256 then s.placeCmd (BitVec.ofNat 256 w)
  else match tableSyl nbits w with
    | some _ => s.placeBundle (toBytes 12 (if w.testBit 2 then w else w + 4))
    | none => if nbits = 64 then s.placeSeq (BitVec.ofNat 64 w) else s.placeBundle (toBytes 12 (if w.testBit 2 then w else w + 4))

end Sys2Proof.Machine
end

