-- ==== Sys2Proof/Safety.lean ====
section
/-! DEFINITION. What counts as a safe run, and the terms in which claims are stated: when an instruction
issues, what it means that it completes, traps, blocks or stalls, and the results a slot hands over. -/

namespace Sys2Proof.Machine

/-! ### Safe runs -/

/-- A step goes on: it neither faults nor is refused. -/
def StepGoesOn (s : State) : Prop := ∃ t, step s = .next t

/-- Memory and poison marks keep their canonical form. -/
def State.Canonical (s : State) : Prop := s.mem.wf = true ∧ s.poison.wf = true

/-! ### How a slot instruction ends -/

/-- The acting strand issues i alone in its bundle: it is not passed over by a REP of 0 (R113), is no
control transfer inside a repetition (R112), stands on a unit that has its part (R397), meets no failed
load (R121), and its guard holds (R43). -/
def Issues (i : Instr) (s : State) : Prop :=
  match i.syl? with
  | some (maj, y) =>
    s.me.repSkip = false ∧ (s.me.repn = 0 ∨ maj < 0x0B ∨ 0x0F < maj) ∧ (maj = 0x6E → unitClass s.curU = 0)
      ∧ (marksBad maj y.form.toNat = true → s.me.untaken = none) ∧ guardOn s.me y.guard = true
  | none => False

/-- i completes with the result d: the next state commits a bundle of its length that hands over d. -/
def Completes (i : Instr) (s : State) (d : Done) : Prop :=
  match i.syl? with
  | some (maj, y) => exec i s = .next (s.commit y.len.bytes [(maj / 32, d)])
  | none => False

/-- i takes the synchronous trap of a cause, with FADDR and FINFO (R82, R83); behind a translation fault its walk has
set the die's bit in the records of the table pages it read, and nothing else (R297). -/
def Traps (i : Instr) (s : State) (code : BitVec 8) (faddr finfo : W64) : Prop :=
  match i.syl? with
  | some (maj, _) => exec i s = .next ((s.noteWalk (maj / 32) code faddr finfo).trapHere code faddr finfo (maj / 32) 0)
  | none => False

/-- i blocks its strand on a condition (R72). -/
def Blocks (i : Instr) (s : State) (w : Wait) : Prop := exec i s = .next (s.blockHere w)

/-- i stalls: one core cycle passes and nothing else (R71). -/
def Stalls (i : Instr) (s : State) : Prop := exec i s = .next (s.tickCore s.curU 1)

/-- i stalls, and the fills of the region blocks it needs enter the load queue (R150). -/
def Fills (i : Instr) (s : State) (fs : List (Nat × Nat × Nat × Space)) (va : List W64) : Prop :=
  exec i s = .next ((s.startFill fs va).tickCore s.curU 1)

/-! ### Results -/

/-- The w register of D and the latch, or with NWB the latch alone, receive v (R30, R42). -/
def doneW (y : Syl) (v : W32) : Done :=
  if y.nwb then { Done.plain id with latch := .word (v.setWidth 64) }
  else { Done.plain (fun t => t.setMe ((t.me.clearBad (.w y.d.toNat)).setW y.d v)) with latch := .word (v.setWidth 64) }

/-- The a register of D and the latch receive v. -/
def doneA (y : Syl) (v : W64) : Done :=
  if y.nwb then { Done.plain id with latch := .word v }
  else { Done.plain (fun t => t.setMe ((t.me.clearBad (destA y.d)).setA y.d v)) with latch := .word v }

/-- The predicate of D and the latch receive v. -/
def doneP (y : Syl) (v : Bool) : Done :=
  if y.nwb then { Done.plain id with latch := .word (if v then 1 else 0) }
  else { Done.plain (fun t => t.setMe (t.me.setP y.d v)) with latch := .word (if v then 1 else 0) }

/-- The mask register of D receives v. -/
def doneM (y : Syl) (v : MaskReg) : Done := Done.plain (fun t => t.setMe (t.me.setM y.d v))

/-- The row that D names through the window of s and the latch receive r. -/
def doneV (s : State) (y : Syl) (r : Row) : Done :=
  if y.nwb then { Done.plain id with latch := .row r }
  else { Done.plain (fun t => t.putRow (s.vKey y.d) r) with latch := .row r }

/-- The destination may be written (R120, R121). -/
def freeW (s : State) (y : Syl) : Prop := y.nwb = true ∨ s.writable (.w y.d.toNat) = .ok ()
def freeA (s : State) (y : Syl) : Prop := y.nwb = true ∨ s.writable (destA y.d) = .ok ()
def freeV (s : State) (y : Syl) : Prop := y.nwb = true ∨ s.writable (.row (s.vKey y.d)) = .ok ()

/-! ### Ends, waits and queue entries -/

/-- The instruction ends as a check or a read answered: a trap, the trap of a failed load, a stall, with
fills or not, or a wait. -/
def EndsAs (i : Instr) (s : State) : Stop → Prop
  | .trap c a n => Traps i s c a n
  | .badLoad b => match i.syl? with
    | some (maj, _) => exec i s = .next (s.trapBad b (maj / 32) 0)
    | none => False
  | .stall => Stalls i s
  | .fill fs va => Fills i s fs va
  | .block w => Blocks i s w

/-- The entries of the fills that an access starts, numbered from n on. -/
def fillItems : Nat → List (Nat × Nat × Nat × Space) → List LqItem
  | _, [] => []
  | n, (k, b, g, sp) :: rest => ⟨n + 1, .fill k b g sp false⟩ :: fillItems (n + 1) rest

/-- Both queues have room (R81.9). -/
def Room (s : State) (l q : Nat) : Prop := s.me.lqLen + l ≤ 32 ∧ s.me.sq.length + q ≤ 32

/-- The same result with a further change. -/
def Done.andThen (d : Done) (f : State → State) : Done := { d with apply := fun t => f (d.apply t) }
def Done.after (d : Done) (f : State → State) : Done := { d with apply := fun t => d.apply (f t) }

/-- The same result, which also puts one entry into the store queue. -/
def Done.alsoEnters (d : Done) : Done := { d with sqn := 1, seqn := 1 }

/-- The acting strand waits for a condition, and goes on where it holds (R72). -/
def WaitsFor (i : Instr) (s : State) (c : Prop) (w : Wait) (d : Done) : Prop :=
  (c → Completes i s d) ∧ (¬c → Blocks i s w)

/-- An entry of the store queue under the next number. -/
def queued (k : SqKind) : Done :=
  Done.enters (fun t => t.setMe { t.me with seq := t.me.seq + 1, sq := t.me.sq ++ [⟨t.me.seq + 1, k⟩] })

/-- A form whose only effect is one entry of the store queue; it stalls where that is full. -/
def QueuesStore (i : Instr) (s : State) (k : SqKind) : Prop :=
  (s.me.sq.length + 1 ≤ 32 → Completes i s (queued k)) ∧ (32 ≤ s.me.sq.length → Stalls i s)

/-! ### Engine commands -/

/-- A command that its engine takes next: the head of the queue whose turn it is, with the engine idle (R161). -/
def Takes (q : QRef) (op : Nat) (c : Cmd) (s : State) (e : QEntry) : Prop :=
  (∃ rest, ((s.core q.unit).queue q.queue.toNat).entries = e :: rest) ∧ e.word = encodeCmd op c
    ∧ Table.has (s.core q.unit).eng (q.queue.toNat % 4) = false
    ∧ s.nextQueue q.unit (q.queue.toNat % 4) = some q.queue.toNat

/-- The chain of the queue after the command, and whether the command breaks it; only the matrix engine has chains. -/
def chainOf (q : QRef) (op : Nat) (c : Cmd) (s : State) : Option (BitVec 3) × Bool :=
  if q.queue.toNat % 4 = 0 then chainStep ((s.core q.unit).queue q.queue.toNat).chain op c else (none, false)

/-- The engine has turned to the queue, and the command is about to read: nothing is noted yet of what it reaches. -/
def State.turned (s : State) (q : QRef) (op : Nat) (c : Cmd) : State :=
  let core := s.core q.unit
  let n := q.queue.toNat
  s.setCore q.unit { core.setQueue n { core.queue n with chain := (chainOf q op c s).1 } with
    served := Table.set core.served (n % 4) n
    chainLock := if n % 4 = 0 then (chainOf q op c s).1.isSome else core.chainLock
    reach := some ⟨queueMark n, [], [], []⟩ }

/-- The status that the command has before it runs: SKIPPED, FEED-FAILED, POISONED or BAD-CHAIN (R165, R175, R212, R220). -/
def preOf (q : QRef) (op : Nat) (c : Cmd) (s : State) (e : QEntry) : Option (BitVec 8) :=
  preStatus ((s.core q.unit).queue q.queue.toNat) e op (chainOf q op c s).2

/-- What the engine of a queue holds of a command that starts: its outcome at its completion, and the global ranges it
has translated. -/
def runOf (q : QRef) (op : Nat) (e : QEntry) (t : State) (out : CmdOut) : EngRun :=
  ⟨q.queue.toNat, e.num, op, (t.core q.unit).cycle, some out, none, false, ((t.core q.unit).reach.map Reach.vas).getD []⟩

/-- The command starts: of the state t that its reads leave, only its engine changes, which holds the command, and what
was noted and brought for its reads is let go. Its entry stays at the head and the timeline does not move. -/
def StartsAt (i : Instr) (s : State) (q : QRef) (op : Nat) (e : QEntry) (t : State) (out : CmdOut) : Prop :=
  exec i s = .next { (t.setCore q.unit { t.core q.unit with
      eng := Table.set (t.core q.unit).eng (q.queue.toNat % 4) (runOf q op e t out), reach := none }).dropReqs
        (fun r => r.owner == some (q.unit.toNat, queueMark q.queue.toNat)) with tick := t.tick + 1 }

/-- The command does not start yet: of what its reads did up to the state t, only the asking for far bytes stands. -/
def WaitsAt (i : Instr) (s : State) (q : QRef) (t : State) : Prop :=
  exec i s = .next (s.waitStart q.unit (BitVec.ofNat 3 (q.queue.toNat / 4)) (queueMark q.queue.toNat) (t.core q.unit).reach)

/-- The rights and the queue entry under which a command runs. -/
def ctxOf (q : QRef) (op : Nat) (c : Cmd) (s : State) (e : QEntry) : CmdCtx :=
  ⟨q.unit, q.queue.toNat, e, preOf q op c s e⟩

/-! ### Elements -/

/-- Element e of W bits of a word or a row (R14, R176). -/
def elemAt (W : Nat) {w : Nat} (x : BitVec w) (e : Nat) : Nat := x.toNat / 2 ^ (W * e) % 2 ^ W

end Sys2Proof.Machine
end

