-- ==== Sys2Proof/Certificates/Slice0/Obligations.lean ====
section
/-! DEFINITION. The statements about the model, from the rules of the spec. A statement of a result says that the
instruction completes (Completes) with it; CommitChangesOnly says what such a completion leaves unchanged. -/

namespace Sys2Proof.Machine

/-! ### Terms of the statements about scalar forms -/

/-- A form of two word operands computes each element of its result from the same elements of both (R88). -/
def WordForm2 (i : Syl → Instr) (op : ITy → Bool → Nat → Nat → Nat) : Prop :=
  ∀ (y : Syl) (s : State) (x z : W32), Issues (i y) s → readW s y.s1 = .ok x → src2W s y = .ok z → freeW s y →
    ∃ v, Completes (i y) s (doneW y v) ∧ ∀ e, e < 32 / (elemTy y.ty).width →
      elemAt (elemTy y.ty).width v e
        = op (elemTy y.ty) (satBit y.ty) (elemAt (elemTy y.ty).width x e) (elemAt (elemTy y.ty).width z e)

/-- A form of one word operand (R88). -/
def WordForm1 (i : Syl → Instr) (op : ITy → Bool → Nat → Nat) : Prop :=
  ∀ (y : Syl) (s : State) (x : W32), Issues (i y) s → readW s y.s1 = .ok x → freeW s y →
    ∃ v, Completes (i y) s (doneW y v) ∧ ∀ e, e < 32 / (elemTy y.ty).width →
      elemAt (elemTy y.ty).width v e = op (elemTy y.ty) (satBit y.ty) (elemAt (elemTy y.ty).width x e)

/-- A multiply-add: the product and the sum are exact (R94). -/
def WordMad (i : Syl → Instr) : Prop :=
  ∀ (y : Syl) (s : State) (x z c : W32), Issues (i y) s → readW s y.s1 = .ok x → src2W s y = .ok z →
    readW s y.s3 = .ok c → freeW s y →
    ∃ v, Completes (i y) s (doneW y v) ∧ ∀ e, e < 32 / (elemTy y.ty).width →
      elemAt (elemTy y.ty).width v e
        = (elemTy y.ty).fit (satBit y.ty) ((elemTy y.ty).read (elemAt (elemTy y.ty).width x e)
            * (elemTy y.ty).read (elemAt (elemTy y.ty).width z e) + (elemTy y.ty).read (elemAt (elemTy y.ty).width c e))

/-- The exact integer operation of a row of R93 or R94, saturated or wrapped. -/
def exactOp (op : ITy → Int → Int → Int) : ITy → Bool → Nat → Nat → Nat :=
  fun t sat x z => t.fit sat (op t (t.read x) (t.read z))

/-- A bitwise form of two words (R95). -/
def WordLogic (i : Syl → Instr) (op : Bool → Bool → Bool) : Prop :=
  ∀ (y : Syl) (s : State) (x z : W32), Issues (i y) s → readW s y.s1 = .ok x → src2W s y = .ok z → freeW s y →
    ∃ v : W32, Completes (i y) s (doneW y v) ∧ ∀ b, b < 32 → v.getLsbD b = op (x.getLsbD b) (z.getLsbD b)

/-- A shift: the amount is the element of Src2, or LIT in X96 (R96). -/
def WordShift (i : Syl → Instr) (op : ITy → Bool → Nat → Nat → Nat) : Prop :=
  ∀ (y : Syl) (s : State) (x z : W32), Issues (i y) s → readW s y.s1 = .ok x → src2W s y = .ok z → freeW s y →
    ∃ v, Completes (i y) s (doneW y v) ∧ ∀ e, e < 32 / (elemTy y.ty).width →
      elemAt (elemTy y.ty).width v e = op (elemTy y.ty) (satBit y.ty) (elemAt (elemTy y.ty).width x e)
        (if y.len = .x96 then y.lit.toNat else elemAt (elemTy y.ty).width z e)

/-- A compare of two words, of element mode .w, joined with the predicate of S3 (R99). -/
def WordCompare (i : Syl → Instr) (cond : ITy → W32 → W32 → Bool) : Prop :=
  ∀ (y : Syl) (s : State) (x z : W32) (j : Bool), modeWidth y.ty = 32 → Issues (i y) s → readW s y.s1 = .ok x → src2W s y = .ok z →
    readP s y.s3 = .ok j → Completes (i y) s (doneP y (cond (elemTy y.ty) x z && j))

/-- A condition on the operands as integers of the type (R99). -/
def intCond (c : Int → Int → Bool) : ITy → W32 → W32 → Bool := fun t x z => c (t.read x.toNat) (t.read z.toNat)

/-- A predicate form (R100). -/
def PredForm (i : Syl → Instr) (op : Bool → Bool → Bool) : Prop :=
  ∀ (y : Syl) (s : State) (x z : Bool), Issues (i y) s → readP s y.s1 = .ok x → readP s y.s2 = .ok z →
    Completes (i y) s (doneP y (op x z))

/-- An address form modulo 2^64 (R101). -/
def AddrForm (i : Syl → Instr) (op : Nat → Nat → Nat) : Prop :=
  ∀ (y : Syl) (s : State) (x z : W64), Issues (i y) s → readA s y.s1 = .ok x → src2A s y = .ok z → freeA s y →
    ∃ v : W64, Completes (i y) s (doneA y v) ∧ v.toNat = op x.toNat z.toNat % 2 ^ 64

/-- An address compare of natural values joined with S3 (R101). -/
def AddrCompare (i : Syl → Instr) (cond : Nat → Nat → Bool) : Prop :=
  ∀ (y : Syl) (s : State) (x z : W64) (j : Bool), Issues (i y) s → readA s y.s1 = .ok x → src2A s y = .ok z →
    readP s y.s3 = .ok j → Completes (i y) s (doneP y (cond x.toNat z.toNat && j))

/-- A rounding form of two operands; element e rounds with stream e (R102, R20). -/
def FloatForm2 (i : Syl → Instr) (op : Mode → FV → FV → FV) : Prop :=
  ∀ (y : Syl) (s : State) (x z : W32), Issues (i y) s → readW s y.s1 = .ok x → src2W s y = .ok z → freeW s y →
    ∃ v, Completes (i y) s ((doneW y v).counted (s.modeOf y.rm)) ∧ ∀ e, e < 32 / (elemFmt y.ty).width →
      elemAt (elemFmt y.ty).width v e = (elemFmt y.ty).roundTo (s.modeAt (s.modeOf y.rm) 0 e) false s.me.ftz
          (op (s.modeAt (s.modeOf y.rm) 0 e) ((elemFmt y.ty).decode (elemAt (elemFmt y.ty).width x e))
            ((elemFmt y.ty).decode (elemAt (elemFmt y.ty).width z e))) % 2 ^ (elemFmt y.ty).width

/-- A fused multiply-add: one rounding of the exact sum (R104). -/
def FloatForm3 (i : Syl → Instr) (prod add : FV → FV) : Prop :=
  ∀ (y : Syl) (s : State) (x z c : W32), Issues (i y) s → readW s y.s1 = .ok x → src2W s y = .ok z →
    readW s y.s3 = .ok c → freeW s y →
    ∃ v, Completes (i y) s ((doneW y v).counted (s.modeOf y.rm)) ∧ ∀ e, e < 32 / (elemFmt y.ty).width →
      elemAt (elemFmt y.ty).width v e = (elemFmt y.ty).roundTo (s.modeAt (s.modeOf y.rm) 0 e) false s.me.ftz
          (exactSum [prod (((elemFmt y.ty).decode (elemAt (elemFmt y.ty).width x e)).mul
              ((elemFmt y.ty).decode (elemAt (elemFmt y.ty).width z e)))]
            (add ((elemFmt y.ty).decode (elemAt (elemFmt y.ty).width c e)))) % 2 ^ (elemFmt y.ty).width

/-- A floating compare of element 0 joined with S3 (R105). -/
def FloatCompare (i : Syl → Instr) (c : Cond) : Prop :=
  ∀ (y : Syl) (s : State) (x z : W32) (j : Bool), Issues (i y) s → readW s y.s1 = .ok x → src2W s y = .ok z →
    readP s y.s3 = .ok j →
    Completes (i y) s (doneP y (fCond c ((elemFmt y.ty).decode (elemAt (elemFmt y.ty).width x 0))
      ((elemFmt y.ty).decode (elemAt (elemFmt y.ty).width z 0)) && j))

/-! ### What the number formats mean -/

/-- The formats of Table 1-2. -/
def floatFormats : List FFmt := [f32, f16, bf16, e4m3, e5m2, e2m1]

/-- The exponent of the minimum subnormal. -/
def leastExp (f : FFmt) : Int := 1 - f.bias - f.man

/-- Significand and exponent of magnitude code c; codes beyond the largest go on in an unbounded exponent range. -/
def magSig (f : FFmt) (c : Nat) : Nat := if c < 2 ^ f.man then c else 2 ^ f.man + c % 2 ^ f.man
def magExp (f : FFmt) (c : Nat) : Int := if c < 2 ^ f.man then leastExp f else leastExp f + (c / 2 ^ f.man : Nat) - 1

/-- m * 2^e in units of 2^b, b at most e. -/
def unitsOf (b : Int) (m : Nat) (e : Int) : Nat := m * 2 ^ (e - b).toNat

/-- Magnitude code c in units of 2^b. -/
def magUnits (f : FFmt) (b : Int) (c : Nat) : Nat := unitsOf b (magSig f c) (magExp f c)

/-- Of the rising magnitudes mag 0, mag 1, ..., v rounds to mag c in a mode, neg being the sign of the number (R17, R19). -/
def RoundsTo (mode : Mode) (neg : Bool) (mag : Nat → Nat) (v c : Nat) : Prop :=
  match mode with
  | .rne => (∀ d, ((mag c : Int) - v).natAbs ≤ ((mag d : Int) - v).natAbs)
      ∧ ∀ d, d ≠ c → ((mag c : Int) - v).natAbs = ((mag d : Int) - v).natAbs → c % 2 = 0
  | .rtz => mag c ≤ v ∧ v < mag (c + 1)
  | .rdn => if neg then v ≤ mag c ∧ ∀ d, d < c → mag d < v else mag c ≤ v ∧ v < mag (c + 1)
  | .rup => if neg then mag c ≤ v ∧ v < mag (c + 1) else v ≤ mag c ∧ ∀ d, d < c → mag d < v
  | .rsto r => ∃ d, mag d ≤ v ∧ v < mag (d + 1)
      ∧ c = if (v - mag d) * 2 ^ 16 / (mag (d + 1) - mag d) + r < 2 ^ 16 then d else d + 1

/-- What stands for an infinity in a format: E4M3 has none and gives NaN or 448, E2M1 gives 6, E5M2 under SAT 57,344. -/
def infinityCode (f : FFmt) (sat neg : Bool) : Nat :=
  if f = e4m3 then (if sat then f.signed neg f.maxCode else 0x7F)
  else if f = e2m1 ∨ (f = e5m2 ∧ sat = true) then f.signed neg f.maxCode
  else f.signed neg (f.maxCode + 1)

/-- The overflow value: an infinity in RNE, RSTO and in the direction of the mode, else the largest finite number. -/
def overflowCode (f : FFmt) (mode : Mode) (sat neg : Bool) : Nat :=
  if mode = .rtz ∨ (mode = .rdn ∧ neg = false) ∨ (mode = .rup ∧ neg = true) then f.signed neg f.maxCode
  else infinityCode f sat neg

/-- x lies below z, -0 below +0 (R106). -/
def FV.Below (x z : FV) : Prop :=
  (x = .inf true ∧ z ≠ .inf true) ∨ (z = .inf false ∧ x ≠ .inf false)
  ∨ (x.isFinite = true ∧ z.isFinite = true ∧ ∃ b, b ≤ x.expo ∧ b ≤ z.expo
      ∧ (x.intAt b < z.intAt b ∨ (x.intAt b = z.intAt b ∧ x.isZero = true ∧ x.signOf = true ∧ z.signOf = false)))

/-- Float of every encoding of Table 1-2 (R23): the finite codes, the infinities, and NaN. -/
def DecodesAsTabled : Prop :=
  floatFormats.map (fun f => (f.width, f.man, f.bias, f.maxCode))
      = [(32, 23, 127, 0x7F7FFFFF), (16, 10, 15, 0x7BFF), (16, 7, 127, 0x7F7F), (8, 3, 7, 0x7E), (8, 2, 15, 0x7B), (4, 1, 1, 7)]
  ∧ (∀ f ∈ floatFormats, ∀ (neg : Bool) (c : Nat), c ≤ f.maxCode →
      f.decode (f.signed neg c) = .fin neg (magSig f c) (magExp f c))
  ∧ (∀ f ∈ [f32, f16, bf16, e5m2], ∀ neg, f.decode (f.signed neg (f.maxCode + 1)) = .inf neg)
  ∧ (∀ f ∈ floatFormats, ∀ (neg : Bool) (c : Nat), f.maxCode < c → c < 2 ^ (f.width - 1) → (f = e4m3 ∨ f.maxCode + 1 < c) →
      f.decode (f.signed neg c) = .nan)

/-- RoundTo (R17 to R19): the rounded magnitude as its mode says, the overflow value beyond the largest, zero of the same
sign where a subnormal result is flushed; infinities, NaN and zeros. -/
def RoundsAsStated : Prop :=
  (∀ f ∈ floatFormats, ∀ (mode : Mode) (sat ftz neg : Bool) (m : Nat) (e b : Int), 0 < m → b ≤ e → b ≤ leastExp f →
    (∀ r, mode = .rsto r → r < 2 ^ 16) →
    ∃ c, RoundsTo mode neg (magUnits f b) (unitsOf b m e) c
      ∧ f.roundTo mode sat ftz (.fin neg m e) = if f.maxCode < c then overflowCode f mode sat neg
        else if ftz = true ∧ c < 2 ^ f.man then f.signed neg 0 else f.signed neg c)
  ∧ (∀ f ∈ floatFormats, ∀ (mode : Mode) (sat ftz neg : Bool) (e : Int),
    f.roundTo mode sat ftz (.inf neg) = infinityCode f sat neg ∧ f.roundTo mode sat ftz (.fin neg 0 e) = f.signed neg 0)
  ∧ (∀ (mode : Mode) (sat ftz : Bool), [f32, f16, bf16, e4m3, e5m2].map (fun f => f.roundTo mode sat ftz .nan)
      = [0x7FC00000, 0x7E00, 0x7FC0, 0x7F, 0x7E])
  ∧ (∀ (t : ITy) (mode : Mode) (neg : Bool) (m : Nat) (e b : Int), b ≤ e → b ≤ 0 → (∀ r, mode = .rsto r → r < 2 ^ 16) →
    ∃ c, RoundsTo mode neg (fun c => unitsOf b c 0) (unitsOf b m e) c
      ∧ (FV.fin neg m e).toInt t mode = max t.min (min t.max (if neg then -(c : Int) else c)))
  ∧ (∀ (t : ITy) (mode : Mode), FV.nan.toInt t mode = 0 ∧ (FV.inf false).toInt t mode = t.max ∧ (FV.inf true).toInt t mode = t.min)

/-- ExactSum with its zero rule, and plain addition with the sign of its exact zero (R23, R24). -/
def SumsAreExact : Prop :=
  (∀ (ps : List FV) (acc : FV),
    ((FV.nan ∈ acc :: ps ∨ (FV.inf true ∈ acc :: ps ∧ FV.inf false ∈ acc :: ps)) → exactSum ps acc = .nan)
    ∧ (∀ s, FV.inf s ∈ acc :: ps → FV.inf (!s) ∉ acc :: ps → FV.nan ∉ acc :: ps → exactSum ps acc = .inf s)
    ∧ ((∀ x ∈ acc :: ps, x.isFinite = true) → ∃ neg m e, exactSum ps acc = .fin neg m e
      ∧ (∀ b, b ≤ e → (∀ x ∈ acc :: ps, b ≤ x.expo) →
        (FV.fin neg m e).intAt b = ((acc :: ps).map (fun x => x.intAt b)).sum)
      ∧ (m = 0 → neg = (acc.isZero && acc.signOf && ps.all FV.isZero))))
  ∧ (∀ (mode : Mode) (x z : FV),
    ((x = .nan ∨ z = .nan ∨ ∃ s, x = .inf s ∧ z = .inf (!s)) → fAdd mode x z = .nan)
    ∧ (∀ s, ((x = .inf s ∧ z ≠ .nan ∧ z ≠ .inf (!s)) ∨ (z = .inf s ∧ x ≠ .nan ∧ x ≠ .inf (!s))) → fAdd mode x z = .inf s)
    ∧ (x.isFinite = true → z.isFinite = true → ∃ neg m e, fAdd mode x z = .fin neg m e
      ∧ (∀ b, b ≤ e → b ≤ x.expo → b ≤ z.expo → (FV.fin neg m e).intAt b = x.intAt b + z.intAt b)
      ∧ (m = 0 → neg = if x.isZero = true ∧ z.isZero = true ∧ x.signOf = z.signOf then x.signOf else decide (mode = .rdn))))

/-- What FABS, FNEG, FMIN and FMAX make of encodings (R103, R106): unchanged but for the flush, and the lesser or greater. -/
def SelectsAsStated : Prop :=
  (∀ f ∈ floatFormats, ∀ (ftz neg : Bool) (c : Nat), c ≤ f.maxCode →
    f.canon ftz (f.signed neg c) = if ftz = true ∧ c < 2 ^ f.man then f.signed neg 0 else f.signed neg c)
  ∧ (∀ f ∈ floatFormats, ∀ (ftz : Bool) (a b : Nat),
    (∀ takeMax, (f.decode a = .nan → f.select takeMax ftz a b = f.canon ftz b)
      ∧ (f.decode a ≠ .nan → f.decode b = .nan → f.select takeMax ftz a b = f.canon ftz a))
    ∧ (f.decode a ≠ .nan → f.decode b ≠ .nan →
      (FV.Below (f.decode b) (f.decode a) → f.select false ftz a b = f.canon ftz b)
      ∧ (¬FV.Below (f.decode b) (f.decode a) → f.select false ftz a b = f.canon ftz a)
      ∧ (FV.Below (f.decode a) (f.decode b) → f.select true ftz a b = f.canon ftz b)
      ∧ (¬FV.Below (f.decode a) (f.decode b) → f.select true ftz a b = f.canon ftz a)))

/-- FRCP and FRSQ to the bit (R108): 12 fraction bits of the exact value, toward zero; and their special operands. -/
def EstimatesAsStated : Prop :=
  (∀ (ftz neg : Bool) (m q : Nat) (e l : Int), 2 ^ 12 ≤ q → q < 2 ^ 13 → -126 ≤ l → l ≤ 127 → 0 ≤ 12 - l - e →
    q * m ≤ 2 ^ (12 - l - e).toNat → 2 ^ (12 - l - e).toNat < (q + 1) * m →
    frcp ftz (.fin neg m e) = f32.signed neg ((l + 126).toNat * 2 ^ 23 + q * 2 ^ 11))
  ∧ (∀ (ftz : Bool) (m q : Nat) (e l : Int), 2 ^ 12 ≤ q → q < 2 ^ 13 → -126 ≤ l → l ≤ 127 → 0 ≤ 24 - 2 * l - e →
    q * q * m ≤ 2 ^ (24 - 2 * l - e).toNat → 2 ^ (24 - 2 * l - e).toNat < (q + 1) * (q + 1) * m →
    frsq ftz (.fin false m e) = (l + 126).toNat * 2 ^ 23 + q * 2 ^ 11)
  ∧ (∀ (ftz neg : Bool) (m : Nat) (e : Int),
    frcp ftz .nan = 0x7FC00000 ∧ frcp ftz (.inf neg) = f32.signed neg 0 ∧ frcp ftz (.fin neg 0 e) = f32.signed neg 0x7F800000
    ∧ frsq ftz .nan = 0x7FC00000 ∧ frsq ftz (.inf false) = 0 ∧ frsq ftz (.inf true) = 0x7FC00000
    ∧ frsq ftz (.fin neg 0 e) = f32.signed neg 0x7F800000 ∧ (0 < m → frsq ftz (.fin true m e) = 0x7FC00000))

/-- The estimates of VEXP2, VLOG2 and VTANH at their special operands, and where their exact value is an FP32 number (R190). -/
def EstimatesFixedPoints : Prop :=
  (∀ (ftz neg : Bool) (k j : Nat), let n : Int := if neg then -(k : Int) else k
    (-126 ≤ n → n ≤ 127 → vexp2 ftz (.fin neg (k * 2 ^ j) (-(j : Int))) = (n + 127).toNat * 2 ^ 23)
    ∧ (128 ≤ n → vexp2 ftz (.fin neg (k * 2 ^ j) (-(j : Int))) = 0x7F800000)
    ∧ (n < -149 → vexp2 ftz (.fin neg (k * 2 ^ j) (-(j : Int))) = 0))
  ∧ (∀ (ftz : Bool) (j : Nat) (e : Int), ((j : Int) + e).natAbs < 2 ^ 12 →
    vlog2 ftz (.fin false (2 ^ j) e) = f32.roundTo .rne false ftz (FV.ofInt ((j : Int) + e)))
  ∧ (∀ (ftz neg : Bool) (m : Nat) (e : Int),
    vexp2 ftz .nan = 0x7FC00000 ∧ vexp2 ftz (.inf false) = 0x7F800000 ∧ vexp2 ftz (.inf true) = 0
    ∧ vlog2 ftz .nan = 0x7FC00000 ∧ vlog2 ftz (.inf false) = 0x7F800000 ∧ vlog2 ftz (.inf true) = 0x7FC00000
    ∧ vlog2 ftz (.fin neg 0 e) = f32.signed true 0x7F800000 ∧ (0 < m → vlog2 ftz (.fin true m e) = 0x7FC00000)
    ∧ vtanh ftz .nan = 0x7FC00000 ∧ vtanh ftz (.inf neg) = f32.signed neg 0x3F800000
    ∧ vtanh ftz (.fin neg 0 e) = f32.signed neg 0)

/-- A form that writes one word of its operands. -/
def CompletesW (i : Instr) (y : Syl) (s : State) (v : W32) : Prop := Issues i s → freeW s y → Completes i s (doneW y v)
def CompletesA (i : Instr) (y : Syl) (s : State) (v : W64) : Prop := Issues i s → freeA s y → Completes i s (doneA y v)
def CompletesP (i : Instr) (y : Syl) (s : State) (v : Bool) : Prop := Issues i s → Completes i s (doneP y v)

end Sys2Proof.Machine

open Sys2Proof Sys2Proof.Machine

/-! ### What becomes of a lone bundle -/

/-- R28, R29, R43, R71, R72, R113, R397: a slot instruction that issues commits its result, takes the trap it answers,
stalls, or blocks; one whose guard is off commits with no effect of its own. Whatever the guard, a control transfer
inside a repetition is illegal, and so is a PPA instruction on a core that has no PPA; that the trap of a failed load
is taken before a guarded-off marker too is the model's choice (log entry 40). -/
def Obligations.LoneBundleOutcomes : Prop :=
  ∀ (i : Instr) (maj : Nat) (y : Syl) (s : State), i.syl? = some (maj, y) →
    (Issues i s →
      (∀ d, slotRun i s ⟨0, y.len.bytes⟩ = .ok d → Completes i s d)
      ∧ (∀ c a n, slotRun i s ⟨0, y.len.bytes⟩ = .error (.trap c a n) → Traps i s c a n)
      ∧ (∀ b, slotRun i s ⟨0, y.len.bytes⟩ = .error (.badLoad b) → exec i s = .next (s.trapBad b (maj / 32) 0))
      ∧ (slotRun i s ⟨0, y.len.bytes⟩ = .error .stall → Stalls i s)
      ∧ (∀ w, slotRun i s ⟨0, y.len.bytes⟩ = .error (.block w) → Blocks i s w))
    ∧ (s.me.repSkip = false → (s.me.repn = 0 ∨ maj < 0x0B ∨ 0x0F < maj) → (maj = 0x6E → unitClass s.curU = 0) →
      ((marksBad maj y.form.toNat = true → s.me.untaken = none) → guardOn s.me y.guard = false →
        exec i s = .next (s.commit y.len.bytes []))
      ∧ ∀ b, marksBad maj y.form.toNat = true → s.me.untaken = some b → exec i s = .next (s.trapBad b (maj / 32) 0))
    ∧ (s.me.repSkip = false → s.me.repn ≠ 0 → 0x0B ≤ maj → maj ≤ 0x0F → Traps i s 0x01 0 0)
    ∧ (s.me.repSkip = false → maj = 0x6E → unitClass s.curU ≠ 0 → Traps i s 0x01 0 0)

/-! ### Integers -/


/-- R93, R94: the integer arithmetic of classes A and B, element by element. R88: without SAT a result wraps modulo 2^W; with SAT it is the nearest bound of the type's range. An element
reads as signed where TY[1] = 0. -/
def Obligations.IntegerArithmeticElementwise : Prop :=
  (
    (∀ i ∈ [Instr.add, Instr.addB], WordForm2 i (exactOp (fun _ x z => x + z)))
    ∧ (∀ i ∈ [Instr.sub, Instr.subB], WordForm2 i (exactOp (fun _ x z => x - z)))
    ∧ (∀ i ∈ [Instr.min, Instr.minB], WordForm2 i (exactOp (fun _ x z => if x ≤ z then x else z)))
    ∧ (∀ i ∈ [Instr.max, Instr.maxB], WordForm2 i (exactOp (fun _ x z => if x ≤ z then z else x)))
    ∧ (∀ i ∈ [Instr.absd, Instr.absdB], WordForm2 i (fun t _ x z => (t.read x - t.read z).natAbs % 2 ^ t.width))
    ∧ (∀ i ∈ [Instr.abs, Instr.absB], WordForm1 i (fun t sat x => t.fit sat (t.read x).natAbs))
    ∧ (∀ i ∈ [Instr.mul, Instr.mulB], WordForm2 i (exactOp (fun _ x z => x * z)))
    ∧ (∀ i ∈ [Instr.mulh, Instr.mulhB], WordForm2 i (exactOp (fun t x z => x * z / ((2 ^ t.width : Nat) : Int))))
    ∧ (∀ i ∈ [Instr.mad, Instr.madB], WordMad i)
  ) ∧ (
    ∀ (t : ITy) (x : Int), 0 < t.width →
      (t.fit false x : Int) = x % ((2 ^ t.width : Nat) : Int)
      ∧ t.read (t.fit true x) = max t.min (min t.max x)
      ∧ (t.signed = true → t.min = -((2 ^ (t.width - 1) : Nat) : Int) ∧ t.max = ((2 ^ (t.width - 1) : Nat) : Int) - 1)
      ∧ (t.signed = false → t.min = 0 ∧ t.max = ((2 ^ t.width : Nat) : Int) - 1)
  )

/-- R95: the bitwise forms of classes A and B. R96: shifts and rotates of classes A and B, for every amount. -/
def Obligations.LogicAndShiftsElementwise : Prop :=
  (
    (∀ i ∈ [Instr.and, Instr.andB], WordLogic i (fun x z => x && z))
    ∧ (∀ i ∈ [Instr.or, Instr.orB], WordLogic i (fun x z => x || z))
    ∧ (∀ i ∈ [Instr.xor, Instr.xorB], WordLogic i (fun x z => x != z))
    ∧ (∀ i ∈ [Instr.andn, Instr.andnB], WordLogic i (fun x z => x && !z))
    ∧ (∀ i ∈ [Instr.not, Instr.notB], ∀ (y : Syl) (s : State) (x : W32), Issues (i y) s → readW s y.s1 = .ok x →
        freeW s y → Completes (i y) s (doneW y (~~~x)))
  ) ∧ (
    (∀ i ∈ [Instr.shl, Instr.shlB], WordShift i (fun t sat x n => t.fit sat (t.read x * ((2 ^ n : Nat) : Int))))
    ∧ (∀ i ∈ [Instr.shr, Instr.shrB], WordShift i (fun t _ x n => t.fit false (t.read x / ((2 ^ n : Nat) : Int))))
    ∧ (∀ i ∈ [Instr.rol, Instr.rolB], WordShift i (fun t _ x n =>
        (x * 2 ^ (n % t.width) + x / 2 ^ (t.width - n % t.width)) % 2 ^ t.width))
    ∧ (∀ i ∈ [Instr.ror, Instr.rorB], WordShift i (fun t _ x n =>
        (x / 2 ^ (n % t.width) + x * 2 ^ (t.width - n % t.width)) % 2 ^ t.width))
  )


/-- R97, R98: bit fields and bit counts. -/
def Obligations.BitFieldsAndCounts : Prop :=
  (∀ (y : Syl) (s : State) (x f : W32), readW s y.s1 = .ok x → src2W s y = .ok f →
    CompletesW (.ext y) y s (extField x f (!bit y.ty 1))
    ∧ (s.readable (.w y.d.toNat) = .ok () → CompletesW (.ins y) y s (insField (s.me.getW y.d) x f)))
  ∧ (∀ (x f : W32) (b : Nat), b < 32 →
    (extField x f false).getLsbD b = (decide (b < fieldLen f) && x.getLsbD (fieldPos f + b))
    ∧ (extField x f true).getLsbD b
        = (if b < fieldLen f then x.getLsbD (fieldPos f + b)
           else decide (0 < fieldLen f) && x.getLsbD (fieldPos f + fieldLen f - 1)))
  ∧ (∀ (old x f : W32) (b : Nat), b < 32 →
    (insField old x f).getLsbD b
      = (if fieldPos f ≤ b ∧ b < fieldPos f + fieldLen f then x.getLsbD (b - fieldPos f) else old.getLsbD b))
  ∧ WordForm1 .clz (fun t _ x => if x = 0 then t.width else t.width - 1 - x.log2)
  ∧ WordForm1 .ctz (fun t _ x => ((List.range t.width).takeWhile (fun b => !x.testBit b)).length)
  ∧ WordForm1 .popc (fun t _ x => ((List.range t.width).filter (fun b => x.testBit b)).length)
  ∧ (∀ (y : Syl) (s : State) (x : W32), Issues (.brev y) s → readW s y.s1 = .ok x → freeW s y →
    ∃ v, Completes (.brev y) s (doneW y v) ∧ ∀ e b, e < 32 / (elemTy y.ty).width → b < (elemTy y.ty).width →
      (elemAt (elemTy y.ty).width v e).testBit b
        = (elemAt (elemTy y.ty).width x e).testBit ((elemTy y.ty).width - 1 - b))

/-! ### Predicates, moves and addresses -/

/-- R99, R100, R101, R105: the forms that write a predicate. -/
def Obligations.ComparesAndPredicateForms : Prop :=
  (∀ i ∈ [Instr.cmpeq, Instr.cmpeqB], WordCompare i (fun _ x z => x == z))
  ∧ (∀ i ∈ [Instr.cmpne, Instr.cmpneB], WordCompare i (fun _ x z => x != z))
  ∧ (∀ i ∈ [Instr.cmplt, Instr.cmpltB], WordCompare i (intCond (fun x z => x < z)))
  ∧ (∀ i ∈ [Instr.cmple, Instr.cmpleB], WordCompare i (intCond (fun x z => x ≤ z)))
  ∧ (∀ i ∈ [Instr.cmpgt, Instr.cmpgtB], WordCompare i (intCond (fun x z => z < x)))
  ∧ (∀ i ∈ [Instr.cmpge, Instr.cmpgeB], WordCompare i (intCond (fun x z => z ≤ x)))
  ∧ (∀ i ∈ [Instr.test, Instr.testB], WordCompare i (fun _ x z => x &&& z != 0))
  ∧ PredForm .pand (fun x z => x && z) ∧ PredForm .por (fun x z => x || z) ∧ PredForm .pxor (fun x z => x != z)
  ∧ PredForm .pandn (fun x z => x && !z)
  ∧ (∀ (y : Syl) (s : State) (x : Bool), readP s y.s1 = .ok x → CompletesP (.pnot y) y s (!x))
  ∧ AddrCompare .acmpeq (fun x z => x == z) ∧ AddrCompare .acmpne (fun x z => x != z)
  ∧ AddrCompare .acmplt (fun x z => x < z) ∧ AddrCompare .acmpge (fun x z => z ≤ x)
  ∧ FloatCompare .fcmpeq .eq ∧ FloatCompare .fcmpne .ne ∧ FloatCompare .fcmplt .lt ∧ FloatCompare .fcmple .le
  ∧ FloatCompare .fcmpgt .gt ∧ FloatCompare .fcmpge .ge

/-- R90 to R92: the moves, each with the value its row gives. -/
def Obligations.MovesAsTheirRowsSay : Prop :=
  (∀ (y : Syl) (s : State) (x : W32), src2W s y = .ok x →
    CompletesW (.mov y) y s x ∧ CompletesW (.movB y) y s x
    ∧ CompletesA (.sxw y) y s (x.signExtend 64) ∧ CompletesA (.zxw y) y s (x.setWidth 64)
    ∧ CompletesP (.movwp y) y s (x != 0)
    ∧ (Issues (.wrp y) s → Completes (.wrp y) s (Done.plain (fun t => t.setMe { t.me with p := x.setWidth 16 ||| 1 })))
    ∧ ∀ (p : Bool) (z : W32), readP s y.s1 = .ok p → readW s y.s3 = .ok z → CompletesW (.sel y) y s (if p then x else z))
  ∧ (∀ (y : Syl) (s : State) (x : W64), src2A s y = .ok x →
    CompletesA (.mova y) y s x ∧ CompletesW (.movaw y) y s (BitVec.ofNat 32 x.toNat)
    ∧ CompletesW (.movawh y) y s (BitVec.ofNat 32 (x.toNat / 2 ^ 32)))
  ∧ (∀ (y : Syl) (s : State), s.readable (destA y.d) = .ok () →
    CompletesA (.movha y) y s (BitVec.ofNat 64 (y.lit.toNat * 2 ^ 32 + (s.me.getA y.d).toNat % 2 ^ 32)))
  ∧ (∀ (y : Syl) (s : State) (p : Bool), readP s y.s2 = .ok p → CompletesW (.movpw y) y s (if p then 1 else 0))
  ∧ (∀ (y : Syl) (s : State), CompletesW (.rdp y) y s ((s.me.p ||| 1).setWidth 32)
    ∧ CompletesW (.movrep y) y s (if s.me.repn = 0 then 0 else s.me.repi.setWidth 32)
    ∧ CompletesA (.lea y) y s (s.me.pc + y.lit.signExtend 64))

/-- R101: address arithmetic modulo 2^64. -/
def Obligations.AddressArithmeticWraps : Prop :=
  AddrForm .aadd (fun x z => x + z) ∧ AddrForm .asub (fun x z => x + (2 ^ 64 - z)) ∧ AddrForm .aand (fun x z => x &&& z)
  ∧ (∀ (y : Syl) (s : State) (x : W64) (i : W32), Issues (.aidx y) s → readA s y.s1 = .ok x → src2W s y = .ok i →
    freeA s y → 2 ≤ y.form.toNat →
    ∃ v : W64, Completes (.aidx y) s (doneA y v)
      ∧ v = x + BitVec.ofInt 64 (i.toInt * ((2 ^ (y.form.toNat - 2) : Nat) : Int)))

/-! ### Floating point -/

/-- R103, R104: rounding arithmetic, one rounding of the exact result. R103, R106 to R108: sign forms, selection,
conversion and estimates. R17 to R19, R21, R23, R24: what rounding, exact sums, selection and the estimates are, of
every format, mode and operand. That a conversion of an infinity to its own format E5M2 with SAT clamps is the model's
choice (log entry 92). -/
def Obligations.FloatArithmeticSelectAndConvert : Prop :=
  (
    FloatForm2 .fadd fAdd ∧ FloatForm2 .fsub (fun m x z => fAdd m x z.neg) ∧ FloatForm2 .fmul (fun _ x z => x.mul z)
    ∧ FloatForm3 .fma id id ∧ FloatForm3 .fms id FV.neg ∧ FloatForm3 .fnma FV.neg id ∧ FloatForm3 .fnms FV.neg FV.neg
  ) ∧ (
    (∀ (y : Syl) (s : State) (x : W32), Issues (.fabs y) s → readW s y.s1 = .ok x → freeW s y →
      ∃ v, Completes (.fabs y) s (doneW y v) ∧ ∀ e, e < 32 / (elemFmt y.ty).width →
        elemAt (elemFmt y.ty).width v e = (elemFmt y.ty).canon s.me.ftz
          (elemAt (elemFmt y.ty).width x e % 2 ^ ((elemFmt y.ty).width - 1)) % 2 ^ (elemFmt y.ty).width)
    ∧ (∀ (y : Syl) (s : State) (x : W32), Issues (.fneg y) s → readW s y.s1 = .ok x → freeW s y →
      ∃ v, Completes (.fneg y) s (doneW y v) ∧ ∀ e, e < 32 / (elemFmt y.ty).width →
        elemAt (elemFmt y.ty).width v e = (elemFmt y.ty).canon s.me.ftz
          ((elemAt (elemFmt y.ty).width x e + 2 ^ ((elemFmt y.ty).width - 1)) % 2 ^ (elemFmt y.ty).width)
            % 2 ^ (elemFmt y.ty).width)
    ∧ (∀ (y : Syl) (s : State) (x z : W32), readW s y.s1 = .ok x → src2W s y = .ok z → freeW s y →
      (Issues (.fmin y) s → ∃ v, Completes (.fmin y) s (doneW y v) ∧ ∀ e, e < 32 / (elemFmt y.ty).width →
        elemAt (elemFmt y.ty).width v e = (elemFmt y.ty).select false s.me.ftz (elemAt (elemFmt y.ty).width x e)
          (elemAt (elemFmt y.ty).width z e) % 2 ^ (elemFmt y.ty).width)
      ∧ (Issues (.fmax y) s → ∃ v, Completes (.fmax y) s (doneW y v) ∧ ∀ e, e < 32 / (elemFmt y.ty).width →
        elemAt (elemFmt y.ty).width v e = (elemFmt y.ty).select true s.me.ftz (elemAt (elemFmt y.ty).width x e)
          (elemAt (elemFmt y.ty).width z e) % 2 ^ (elemFmt y.ty).width))
    ∧ (∀ (y : Syl) (s : State) (x : W32), readW s y.s1 = .ok x → freeW s y →
      (Issues (.cvt y) s → Completes (.cvt y) s ((doneW y
        (if isFloatCode y.ty.toNat then
          BitVec.ofNat 32 (convTo y.ty.toNat (s.modeAt (s.modeOf y.rm) 0 0) (y.form.toNat / 16 == 1) s.me.ftz
            (valOf (y.form.toNat % 16) (elemAt (codeWidth (y.form.toNat % 16)) x 0)))
        else (ityOf y.ty.toNat).extend32 (convTo y.ty.toNat (s.modeAt (s.modeOf y.rm) 0 0) (y.form.toNat / 16 == 1) s.me.ftz
            (valOf (y.form.toNat % 16) (elemAt (codeWidth (y.form.toNat % 16)) x 0))))).counted (s.modeOf y.rm)))
      ∧ (Issues (.frcp y) s → Completes (.frcp y) s (doneW y (BitVec.ofNat 32 (frcp s.me.ftz (f32.decode x.toNat)))))
      ∧ (Issues (.frsq y) s → Completes (.frsq y) s (doneW y (BitVec.ofNat 32 (frsq s.me.ftz (f32.decode x.toNat))))))
  ) ∧ DecodesAsTabled ∧ RoundsAsStated ∧ SumsAreExact ∧ SelectsAsStated ∧ EstimatesAsStated


/-! ### Control -/

/-- R51, R109, R110: a control transfer goes to its target, or traps where the target is no multiple of 4; the link is
the address of the next bundle. -/
def Obligations.ControlTransfers : Prop :=
  (∀ (y : Syl) (s : State), Issues (.nop y) s → Completes (.nop y) s (Done.plain id))
  ∧ (∀ (y : Syl) (s : State), Issues (.br y) s →
    ((s.me.pc + y.lit.signExtend 64).toNat % 4 = 0 →
      Completes (.br y) s { Done.plain id with target := some (s.me.pc + y.lit.signExtend 64) })
    ∧ ((s.me.pc + y.lit.signExtend 64).toNat % 4 ≠ 0 → Traps (.br y) s 0x03 0 0))
  ∧ (∀ (y : Syl) (s : State), Issues (.call y) s → freeA s y →
    ((s.me.pc + y.lit.signExtend 64).toNat % 4 = 0 → Completes (.call y) s
      { doneA y (s.me.pc + BitVec.ofNat 64 y.len.bytes) with target := some (s.me.pc + y.lit.signExtend 64) })
    ∧ ((s.me.pc + y.lit.signExtend 64).toNat % 4 ≠ 0 → Traps (.call y) s 0x03 0 0))
  ∧ (∀ (y : Syl) (s : State) (t : W64), readA s y.s1 = .ok t →
    (t.toNat % 4 = 0 →
      (Issues (.callr y) s → freeA s y → Completes (.callr y) s
        { doneA y (s.me.pc + BitVec.ofNat 64 y.len.bytes) with target := some t })
      ∧ (Issues (.jr y) s → Completes (.jr y) s { Done.plain id with target := some t }))
    ∧ (t.toNat % 4 ≠ 0 →
      (Issues (.callr y) s → freeA s y → Traps (.callr y) s 0x03 0 0) ∧ (Issues (.jr y) s → Traps (.jr y) s 0x03 0 0)))

/-- R111 to R113: LOOP loads a level, REP the repetition, each with the traps its rule names. -/
def Obligations.LoopAndRep : Prop :=
  (∀ (y : Syl) (s : State) (n : W32), Issues (.loop y) s → readW s y.s1 = .ok n →
    (s.me.lcnt y.d.toNat ≠ 0 → Traps (.loop y) s 0x05 0 0)
    ∧ (s.me.lcnt y.d.toNat = 0 → (s.me.pc + y.lit.signExtend 64).toNat % 4 ≠ 0 → Traps (.loop y) s 0x03 0 0)
    ∧ (s.me.lcnt y.d.toNat = 0 → (s.me.pc + y.lit.signExtend 64).toNat % 4 = 0 →
        (s.me.pc + y.lit.signExtend 64).toNat < (s.me.pc + BitVec.ofNat 64 y.len.bytes).toNat → Traps (.loop y) s 0x02 0 0)
    ∧ (s.me.lcnt y.d.toNat = 0 → (s.me.pc + y.lit.signExtend 64).toNat % 4 = 0 →
        (s.me.pc + BitVec.ofNat 64 y.len.bytes).toNat ≤ (s.me.pc + y.lit.signExtend 64).toNat →
        Completes (.loop y) s (Done.plain (fun t => t.setMe
          (if y.d = 0 then { t.me with lcnt0 := n, lbeg0 := s.me.pc + BitVec.ofNat 64 y.len.bytes
                                       lend0 := s.me.pc + y.lit.signExtend 64 }
           else { t.me with lcnt1 := n, lbeg1 := s.me.pc + BitVec.ofNat 64 y.len.bytes
                            lend1 := s.me.pc + y.lit.signExtend 64 })))))
  ∧ (∀ (y : Syl) (s : State) (n : W32), Issues (.rep y) s →
    (if y.len = .x96 then (.ok y.lit : Rd W32) else readW s y.s1) = .ok n →
    (n.toNat ≤ 65535 → s.me.atLoopEnd = false → Completes (.rep y) s (Done.plain (fun t =>
      t.setMe { t.me with repn := n.setWidth 16, repi := 0, repSkip := n == 0 })))
    ∧ (65535 < n.toNat ∨ s.me.atLoopEnd = true → Traps (.rep y) s 0x02 0 0))
  ∧ (∀ (i : Instr) (maj : Nat) (y : Syl) (s : State), i.syl? = some (maj, y) → s.me.repSkip = true →
    exec i s = .next ((s.setMe { s.me with repSkip := false, lat := []
                                           pc := s.me.pc + BitVec.ofNat 64 y.len.bytes }).tickCore s.curU 1))

/-- R114, R115: YIELD ends the run unless the next bundle reads a latch; HALT and EXIT end it, leave the strand HALTED
with TD clear, and EXIT reports its status. -/
def Obligations.YieldHaltExit : Prop :=
  (∀ (y : Syl) (s : State), Issues (.yield y) s → Completes (.yield y) s { Done.plain id with endRun := .unlessLatch })
  ∧ (∀ (y : Syl) (s : State),
    (Issues (.halt y) s → Completes (.halt y) s
      { Done.plain (fun t => t.leaveGroup.setMe { t.leaveGroup.me with run := .halted, td := false }) with endRun := .yes })
    ∧ (Issues (.exit y) s → Completes (.exit y) s
      { Done.plain (fun t => t.leaveGroup.setMe { t.leaveGroup.me with run := .halted, td := false, exitStatus := some 0 }) with
        endRun := .yes })
    ∧ ∀ v : W32, readW s y.s1 = .ok v → Issues (.exitStatus y) s → Completes (.exitStatus y) s
      { Done.plain (fun t => t.leaveGroup.setMe { t.leaveGroup.me with run := .halted, td := false, exitStatus := some v }) with
        endRun := .yes })


/-! ### Memory -/

namespace Sys2Proof.Machine

/-- A load: the fills of its access, the load under the number its latch waits for, and for an acquire a marker in
both queues (R120, R124, R150). -/
def loadDone (s : State) (x : Access) (dst : Dest) (ty : BitVec 4) (ea : W64) (acq : Bool) : Done :=
  { Done.plain (fun t =>
      let t := x.effect t
      let m := t.me.clearBad dst
      let n := m.seq + x.fills.length + 1
      t.setMe { m with
        seq := n + acq.toNat
        lq := m.lq ++ fillItems m.seq x.fills ++ ⟨n, .load x.segs x.space dst ty ea s.me.pc false []⟩
          :: (if acq then [⟨n + 1, .marker false⟩] else [])
        sq := m.sq ++ (if acq then [⟨n + 1, .marker false⟩] else []) }) with
    latch := .pending (s.me.seq + x.fills.length + 1)
    lqn := x.fills.length + 1 + acq.toNat, sqn := acq.toNat, seqn := x.fills.length + 1 + acq.toNat }

/-- A load of n bytes to dst from where its address form says. -/
def LoadsTo (i : Instr) (s : State) (loc acq : Bool) (ea : Rd W64) (n align : Nat) (dst : Dest) (ty : BitVec 4) : Prop :=
  ∀ (a : W64), Issues i s → ea = .ok a → s.writable dst = .ok () →
    (∀ x, access s loc a n align .read = .ok x → Room s (x.fills.length + 1 + acq.toNat) acq.toNat →
      Completes i s (loadDone s x dst ty a acq))
    ∧ ∀ e, access s loc a n align .read = .error e → EndsAs i s e

/-- A scalar load (Table 5-1): 8 bytes to an a register, or the bytes of its type to a w register. -/
def ScalarLoad (i : Syl → Instr) (loc acq : Bool) : Prop :=
  ∀ (y : Syl) (s : State),
    (bit y.form 0 = true → LoadsTo (i y) s loc acq (effAddr s y) 8 8 (if y.nwb then .none else destA y.d) 0)
    ∧ (bit y.form 0 = false → LoadsTo (i y) s loc acq (effAddr s y) (wordBytes y.ty) (wordBytes y.ty)
        (if y.nwb then .latW else .w y.d.toNat) y.ty)

/-- A store of listed bytes, with a marker in both queues before it for a release (R125). -/
def storeDone (x : Access) (cells : List (Nat × Byte)) (ea : W64) (rel : Bool) : Done :=
  { Done.plain (fun t =>
    let t := x.effect t
    let n := t.me.seq + rel.toNat
    t.setMe { t.me with
      seq := n + x.fills.length + 1
      lq := t.me.lq ++ (if rel then [⟨n, .marker false⟩] else []) ++ fillItems n x.fills
      sq := t.me.sq ++ (if rel then [⟨n, .marker false⟩] else [])
        ++ [⟨n + x.fills.length + 1, .store cells x.space ea x.cmp false⟩] }) with
    lqn := x.fills.length + rel.toNat, sqn := 1 + rel.toNat, seqn := x.fills.length + 1 + rel.toNat }

/-- A store of the data at the address: it enters the store queue, or ends as its access check answers. -/
def StoresAt (i : Instr) (s : State) (loc rel : Bool) (a : W64) (align : Nat) (data : List Byte)
    (cells : Access → List (Nat × Byte)) : Prop :=
  (∀ x, access s loc a data.length align .write = .ok x → Room s (x.fills.length + rel.toNat) (1 + rel.toNat) →
    Completes i s (storeDone x (cells x) a rel))
  ∧ ∀ e, access s loc a data.length align .write = .error e → EndsAs i s e

/-- A scalar store (Table 5-2): the low bytes of Src3. -/
def ScalarStore (i : Syl → Instr) (loc rel : Bool) : Prop :=
  ∀ (y : Syl) (s : State) (a : W64), Issues (i y) s → effAddr s y = .ok a →
    (∀ v : W64, bit y.form 0 = true → readA s y.s3 = .ok v →
      StoresAt (i y) s loc rel a 8 (toBytes 8 v.toNat) (fun x => List.zip (segKeys x.segs) (toBytes 8 v.toNat)))
    ∧ (∀ v : W32, bit y.form 0 = false → readW s y.s3 = .ok v →
      StoresAt (i y) s loc rel a (wordBytes y.ty) (toBytes (wordBytes y.ty) v.toNat)
        (fun x => List.zip (segKeys x.segs) (toBytes (wordBytes y.ty) v.toNat)))

/-- A form that puts a marker into both queues and does nothing else (R81.6, R128, R129). That it stalls where either
queue holds 32 entries is the model's choice (log entry 20). -/
def MarkerForm (i : Syl → Instr) (pod : Bool) : Prop :=
  ∀ (y : Syl) (s : State), Issues (i y) s →
    (Room s 1 1 → Completes (i y) s { Done.plain (fun t => t.setMe { t.me with
      seq := t.me.seq + 1
      lq := t.me.lq ++ [⟨t.me.seq + 1, .marker pod⟩]
      sq := t.me.sq ++ [⟨t.me.seq + 1, .marker pod⟩] }) with lqn := 1, sqn := 1, seqn := 1 })
    ∧ (32 ≤ s.me.lqLen → Stalls (i y) s) ∧ (32 ≤ s.me.sq.length → Stalls (i y) s)

/-- The width of an atomic operation (Table 5-3). -/
def opBytes (op : Nat) : Nat := if op = 8 ∨ op = 9 ∨ op = 10 then 8 else 4

/-- What an atomic form has read and found before it asks for its site (R130, R131). -/
structure AtomicReads (y : Syl) (s : State) (ea x y2 : W64) (acc : Access) : Prop where
  addr : effAddrPlain s y = .ok ea
  src : atomSrc s y y.s3 = .ok x
  /-- The compared value: the w register with its swizzle (R46), or the a register. -/
  cmp32 : field y.form 3 0 = 7 → ∃ v, readW s y.s2 = .ok v ∧ y2 = (swizzle v y.mod).setWidth 64
  cmp64 : field y.form 3 0 = 10 → readA s y.s2 = .ok y2
  noCmp : field y.form 3 0 ≠ 7 → field y.form 3 0 ≠ 10 → y2 = 0
  access : access s (bit y.form 4) ea (opBytes (field y.form 3 0)) (opBytes (field y.form 3 0)) .write = .ok acc

/-- The site of an atomic form (R133). -/
def siteOf (y : Syl) (acc : Access) (ea : W64) : Rd (BitVec 4) :=
  atomSite (field y.form 3 0) ((acc.segs.map (·.1)).headD 0) ea

/-- With a floating add and a dynamic mode of RSTO, an atomic traps UNSUPPORTED-TYPE (R130); where its site does not
take it, it ends as the site answers (R133). -/
def AtomicTraps (i : Syl → Instr) (y : Syl) (s : State) (acc : Access) (ea : W64) : Prop :=
  (∀ e, siteOf y acc ea = .error e → EndsAs (i y) s e)
  ∧ ∀ site, siteOf y acc ea = .ok site → field y.form 3 0 = 12 → s.modeOf y.rm = 4 → Traps (i y) s 0x08 ea 0

/-- The operation of an atomic form, with what it captures at commit (R131). -/
def atomicOpOf (y : Syl) (s : State) (dst : Dest) (ea x y2 : W64) (acc : Access) (site : BitVec 4) : AtomicOp :=
  { op := field y.form 3 0, space := acc.space, key := (acc.segs.map (·.1)).headD 0, bytes := opBytes (field y.form 3 0), x := x, y := y2
    ty := y.ty, mode := s.modeOf y.rm, ftz := s.me.ftz, dst := dst, site := site, ea := ea, pc := s.me.pc }

/-- An atomic with a result enters both queues under one number, which its latch waits for (R81.7, R131). -/
def AtomicForm (i : Syl → Instr) : Prop :=
  ∀ (y : Syl) (s : State) (ea x y2 : W64) (acc : Access) (dst : Dest),
    dst = (if opBytes (field y.form 3 0) = 8 then (if y.nwb then .none else destA y.d)
           else if y.nwb then .latW else .w y.d.toNat) →
    Issues (i y) s → AtomicReads y s ea x y2 acc → s.writable dst = .ok () →
    AtomicTraps i y s acc ea
    ∧ ∀ site, siteOf y acc ea = .ok site → (field y.form 3 0 ≠ 12 ∨ s.modeOf y.rm ≠ 4) → Room s (acc.fills.length + 1) 1 →
      Completes (i y) s { Done.plain (fun t =>
        let t := acc.effect t
        let m := t.me.clearBad dst
        let n := m.seq + acc.fills.length + 1
        t.setMe { m with
          seq := n
          lq := m.lq ++ fillItems m.seq acc.fills ++ [⟨n, .atomic⟩]
          sq := m.sq ++ [⟨n, .atomic (atomicOpOf y s dst ea x y2 acc site) false⟩] }) with
        latch := .pending (s.me.seq + acc.fills.length + 1)
        lqn := acc.fills.length + 1, sqn := 1, seqn := acc.fills.length + 1 }

/-- A posted atomic enters the store queue only (R132). -/
def PostedForm (i : Syl → Instr) : Prop :=
  ∀ (y : Syl) (s : State) (ea x y2 : W64) (acc : Access), Issues (i y) s → AtomicReads y s ea x y2 acc →
    AtomicTraps i y s acc ea
    ∧ ∀ site, siteOf y acc ea = .ok site → (field y.form 3 0 ≠ 12 ∨ s.modeOf y.rm ≠ 4) → Room s acc.fills.length 1 →
      Completes (i y) s { Done.plain (fun t =>
        let t := acc.effect t
        let n := t.me.seq + acc.fills.length + 1
        t.setMe { t.me with
          seq := n
          lq := t.me.lq ++ fillItems t.me.seq acc.fills
          sq := t.me.sq ++ [⟨n, .posted (atomicOpOf y s .none ea x y2 acc site) false⟩] }) with
        lqn := acc.fills.length, sqn := 1, seqn := acc.fills.length + 1 }

end Sys2Proof.Machine

/-- R117, R118, R200: the effective address; an access is aligned, a local one inside the 2 MiB of scratchpad, a global
one canonical, each with the trap that names what it is not; a local access to no region touches its own bytes. -/
def Obligations.AccessChecks : Prop :=
  (∀ (y : Syl) (s : State) (b : W64), readA s y.s1 = .ok b →
    (bit y.form 5 = false → y.len ≠ .x96 → effAddr s y = .ok b)
    ∧ (bit y.form 5 = false → y.len = .x96 → effAddr s y = .ok (b + y.lit.signExtend 64))
    ∧ ∀ x : W32, bit y.form 5 = true → readW s y.s2 = .ok x →
      effAddr s y = .ok (b + BitVec.ofInt 64 (x.toInt * ((2 ^ field y.form 3 2 : Nat) : Int))))
  ∧ ∀ (s : State) (ea : W64) (n align : Nat) (acc : Acc), 0 < n → 0 < align →
    (ea.toNat % align ≠ 0 → ∀ loc, access s loc ea n align acc = .error (.trap 0x07 ea 0))
    ∧ (ea.toNat % align = 0 → 2 ^ 21 < ea.toNat + n → access s true ea n align acc = .error (.trap 0x02 ea 0))
    ∧ (ea.toNat % align = 0 → ea.toNat + n ≤ 2 ^ 21 →
        (∀ b, ea.toNat / 4096 ≤ b → b ≤ (ea.toNat + n - 1) / 4096 → s.myCore.regionOf b = none) → n ≤ 4096 →
        ∃ x, access s true ea n align acc = .ok x ∧ x.segs = [(spadKey s.curU.toNat ea.toNat, n)] ∧ x.space = .loc ∧ x.fills = []
          ∧ ∀ t, x.effect t = t)
    ∧ (ea.toNat % align = 0 → canonical ea = false →
        access s false ea n align acc = .error (.trap 0x10 ea (XFault.word ⟨1, 0, acc, 0, 0⟩)))
    ∧ ∀ hs f, ea.toNat % align = 0 → canonical ea = true → canonical (ea + BitVec.ofNat 64 (n - 1)) = true →
        xlateRange s acc (piecesOf ea n) = .ok (hs, f) →
        access s false ea n align acc = .ok ⟨hitSegs hs, spaceOf hs, [], hitSegs (hs.filter (fun h => leafCmp h.1.entry.leaf)), f⟩

/-- R120, R124, R201: the loads of slots M and V. -/
def Obligations.LoadsEnterTheLoadQueue : Prop :=
  ScalarLoad .ldL true false ∧ ScalarLoad .ldAcqL true true ∧ ScalarLoad .ldG false false ∧ ScalarLoad .ldAcqG false true
  ∧ ∀ (y : Syl) (s : State), LoadsTo (.vld y) s (bit y.form 2) false (effAddrPlain s y) 256 32
      (if y.nwb then .latV else .row (s.vKey y.d)) 0

/-- R125, R201: the stores of slots M and V; VSTM stores the bytes whose mask bit is 1. -/
def Obligations.StoresEnterTheStoreQueue : Prop :=
  ScalarStore .stL true false ∧ ScalarStore .stRelL true true ∧ ScalarStore .stG false false
  ∧ ScalarStore .stRelG false true
  ∧ ∀ (y : Syl) (s : State) (a : W64) (r : Row),
    (Issues (.vst y) s → effAddrPlain s y = .ok a → readV s y.s3 = .ok r →
      StoresAt (.vst y) s (bit y.form 2) false a 32 (toBytes 256 r.toNat)
        (fun x => List.zip (segKeys x.segs) (toBytes 256 r.toNat)))
    ∧ ∀ m : MaskReg, Issues (.vstm y) s → readA s y.s1 = .ok a → readM s y.s2 = .ok m → readV s y.s3 = .ok r →
      StoresAt (.vstm y) s (bit y.form 2) false a 32 (toBytes 256 r.toNat)
        (fun x => (List.range 256).filterMap (fun k => if m.getLsbD k then
          (segKeys x.segs)[k]?.map (fun key => (key, BitVec.ofNat 8 (r.toNat / 256 ^ k))) else none))

/-- R126 to R129, R144 to R146: prefetches, QALIGN, the fences, REGSYNC and REGINV. PREF.L starts a fill of its block,
which stands among the loads; its walk waits as an access's does. That a REGINV waits for the fills of its region, that a
prefetch whose operand names no value is dropped, and that a full queue stalls a marker are the model's choices (log
entries 80, 84 and 20). -/
def Obligations.PrefetchesMarkersAndRegions : Prop :=
  (∀ (y : Syl) (s : State), effAddr s y ≠ .error .stall →
    (Issues (.prefG y) s → Completes (.prefG y) s (Done.plain id))
    ∧ (Issues (.prefwG y) s → Completes (.prefwG y) s (Done.plain id))
    ∧ (∀ a, effAddr s y = .ok a → Issues (.prefL y) s →
        (s.prefetchFill a = [] ∨ s.missWaits (s.prefetchVa a) = false → Completes (.prefL y) s { Done.plain (fun t =>
          let t := if (s.prefetchFill a).isEmpty then t else t.prefetchWalk s.who a
          t.setMe (t.me.addFills (s.prefetchFill a) true)) with seqn := (s.prefetchFill a).length })
        ∧ (s.prefetchFill a ≠ [] → s.missWaits (s.prefetchVa a) = true → Stalls (.prefL y) s))
    ∧ ((∀ a, effAddr s y ≠ .ok a) → Issues (.prefL y) s → Completes (.prefL y) s (Done.plain id)))
  ∧ (∀ (s : State) (a : W64), s.prefetchFill a ≠ [] → ∃ k b g sp, s.prefetchFill a = [(k, b, g, sp)] ∧ a.toNat < 2 ^ 21
      ∧ s.myCore.regionOf (a.toNat / 4096) = some (k, b) ∧ s.myCore.isFilled k b = false)
  ∧ MarkerForm .qalign false ∧ MarkerForm .fenceCore false ∧ MarkerForm .fenceClus false ∧ MarkerForm .fenceDie false
  ∧ MarkerForm .fencePkg false ∧ MarkerForm .fencePod true
  ∧ (∀ (y : Syl) (s : State) (k : Nat), Issues (.reginv y) s → regionNo s y = .ok k → Room s 1 1 →
    (s.fillsOf s.curU k = false → Completes (.reginv y) s { Done.plain (fun t =>
      let c := t.myCore
      (t.setMyCore (if rgnValid (c.rgnLo k) then
        { c with filled := Table.erase k c.filled, dirty := Table.erase k c.dirty } else c)).setMe
        (t.me.addMarker false)) with lqn := 1, sqn := 1, seqn := 1 })
    ∧ (s.fillsOf s.curU k = true → Stalls (.reginv y) s))
  ∧ (∀ (y : Syl) (s : State) (k : Nat) (hs : List (Hit × Nat)) (f : State → State), Issues (.regsync y) s →
      regionNo s y = .ok k →
      xlateRange s .write ((s.syncBlocks k).map (fun b => (s.myCore.blockVa k b, 4096))) = .ok (hs, f) →
      s.me.sq.length + min (s.syncBlocks k).length 32 ≤ 32 →
      Completes (.regsync y) s { Done.plain (fun t =>
        let t := f t
        let c := (s.syncBlocks k).foldl (fun c b => c.setDirty k b false) t.myCore
        (t.setMyCore c).setMe (t.me.addBlocks k (rgnBase (c.rgnLo k)) ((s.syncBlocks k).zip
          (hs.map (fun h => ([(h.1.key, h.2)], leafCmp h.1.entry.leaf)))))) with
        sqn := min (s.syncBlocks k).length 32, seqn := (s.syncBlocks k).length })
  ∧ (∀ (s : State) (k b : Nat), rgnValid (s.myCore.rgnLo k) = true → b < rgnLen (s.myCore.rgnLo k) →
      (s.myCore.isDirty k b = true ∨ ∃ q ∈ s.me.sq, ∃ a ∈ q.kind.keys, placeOf a = .spad s.curU.toNat
        ∧ (a - spadKey s.curU.toNat 0) / 4096 = rgnBase (s.myCore.rgnLo k) + b) → b ∈ s.syncBlocks k)

/-- R131 to R133: the atomics with and without a result, and where they execute. R130: the value that each operation of Table 5-3 leaves in memory. -/
def Obligations.AtomicsQueueAndCompute : Prop :=
  (
    (∀ i ∈ [Instr.atomAdd, Instr.atomAnd, Instr.atomOr, Instr.atomXor, Instr.atomMin, Instr.atomMax, Instr.atomSwp,
        Instr.atomCas, Instr.atomFadd], AtomicForm i)
    ∧ (∀ i ∈ [Instr.redAdd, Instr.redAnd, Instr.redOr, Instr.redXor, Instr.redMin, Instr.redMax, Instr.redFadd],
        PostedForm i)
    ∧ (∀ (op key : Nat) (ea : W64),
      (placeOf key = .aperture → atomSite op key ea = .error (.trap 0x08 ea 0))
      ∧ (placeOf key = .host → op = 12 → atomSite op key ea = .error (.trap 0x08 ea 0))
      ∧ (placeOf key = .host → op ≠ 12 → atomSite op key ea = .ok 0xA)
      ∧ (∀ u, placeOf key = .spad u → atomSite op key ea = .ok 0xF)
      ∧ (∀ d, placeOf key = .die d → atomSite op key ea = .ok (BitVec.ofNat 4 d)))
  ) ∧ (
    ∀ (a : AtomicOp) (old : W64),
      (a.op = 0 → (a.newValue old).toNat = (old.toNat + a.x.toNat) % 2 ^ 32)
      ∧ (∀ b, b < 32 →
          (a.op = 1 → (a.newValue old).getLsbD b = (old.getLsbD b && a.x.getLsbD b))
          ∧ (a.op = 2 → (a.newValue old).getLsbD b = (old.getLsbD b || a.x.getLsbD b))
          ∧ (a.op = 3 → (a.newValue old).getLsbD b = (old.getLsbD b != a.x.getLsbD b)))
      ∧ (a.op = 4 → (a.newValue old).setWidth 32 = (if (if a.ty.getLsbD 1 then (old.setWidth 32).ule (a.x.setWidth 32)
          else (old.setWidth 32).sle (a.x.setWidth 32)) then old.setWidth 32 else a.x.setWidth 32))
      ∧ (a.op = 5 → (a.newValue old).setWidth 32 = (if (if a.ty.getLsbD 1 then (old.setWidth 32).ule (a.x.setWidth 32)
          else (old.setWidth 32).sle (a.x.setWidth 32)) then a.x.setWidth 32 else old.setWidth 32))
      ∧ (a.op = 6 → (a.newValue old).setWidth 32 = a.x.setWidth 32)
      ∧ (a.op = 7 → (a.newValue old).setWidth 32
          = if old.setWidth 32 = a.y.setWidth 32 then a.x.setWidth 32 else old.setWidth 32)
      ∧ (a.op = 8 → (a.newValue old).toNat = (old.toNat + a.x.toNat) % 2 ^ 64)
      ∧ (a.op = 9 → a.newValue old = a.x)
      ∧ (a.op = 10 → a.newValue old = if old = a.y then a.x else old)
      ∧ (a.op = 12 → ∀ e, e < 32 / (fmtOf a.ty.toNat).width →
          elemAt (fmtOf a.ty.toNat).width (a.newValue old) e
            = (fmtOf a.ty.toNat).roundTo (mkMode a.mode 0 0 0) false a.ftz
              (fAdd (mkMode a.mode 0 0 0) ((fmtOf a.ty.toNat).decode (elemAt (fmtOf a.ty.toNat).width old e))
                ((fmtOf a.ty.toNat).decode (elemAt (fmtOf a.ty.toNat).width a.x e))) % 2 ^ (fmtOf a.ty.toNat).width)
  )


/-! ### The system instructions -/

namespace Sys2Proof.Machine

/-- The frame words that RETT reads: 8 bytes at offset o of the acting strand's trap frame (R83, R85). -/
def frameWord (s : State) (o : Nat) : Nat :=
  leNat ((List.range 8).map (fun j => s.readByte (spadKey s.curU.toNat (field s.me.tfbase 20 8 * 256 + o + j))))

/-- The control registers of the spec, and those that WRSR may write. -/
def listedCR (n : Nat) : Bool :=
  n ≤ 0x0E || (0x10 ≤ n && n ≤ 0x15) || (0x20 ≤ n && n ≤ 0x27) || (0x30 ≤ n && n ≤ 0x34) || (0x40 ≤ n && n ≤ 0x54)
    || (0x58 ≤ n && n ≤ 0x5C) || (0x60 ≤ n && n ≤ 0x63) || (0x70 ≤ n && n ≤ 0x77) || n == 0x80 || n == 0x81
    || (0x90 ≤ n && n ≤ 0x96) || (0x100 ≤ n && n < 0x160)
def writableCR (n : Nat) : Bool :=
  n ≤ 0x0C || (0x20 ≤ n && n ≤ 0x26) || n == 0x30 || n == 0x33 || n == 0x34 || n == 0x41 || n == 0x43
    || (0x45 ≤ n && n ≤ 0x54) || n == 0x60 || n == 0x90 || n == 0x93 || (0x100 ≤ n && n < 0x140)
/-- The registers that only the supervisor strand writes. -/
def supCR (n : Nat) : Bool :=
  n == 0x30 || n == 0x33 || n == 0x34 || n == 0x43 || (0x45 ≤ n && n ≤ 0x54) || n == 0x60

/-- The bits that a register holds, for those that read back what was written. -/
def keptCR : List (Nat × W64) :=
  [(0x002, BitVec.allOnes 64), (0x003, 0xFFFFFFFF), (0x004, ~~~3), (0x005, 0x1FFF00), (0x006, 0xFFFFFFFF), (0x007, ~~~3),
   (0x008, ~~~3), (0x009, 0xFFFFFFFF), (0x00A, ~~~3), (0x00B, ~~~3), (0x020, 0x1FF000001FF), (0x021, 0x3F),
   (0x022, 0xFFFFFFFFFF3F), (0x023, BitVec.allOnes 64), (0x024, BitVec.allOnes 64), (0x025, BitVec.allOnes 64),
   (0x026, BitVec.allOnes 64), (0x033, 0xFFFFFFFF), (0x034, 0xFFFFFFFF), (0x041, 0x1FF), (0x043, 1),
   (0x030, 0x1F), (0x060, 0xFFFFFFFFFF000), (0x090, 0xF), (0x093, 0x3FFFF)]
  ++ (List.range 11).map (fun k => (0x045 + k, 0xFFFFFFFFFF3FF)) ++ (List.range 5).map (fun k => (0x050 + k, 0x1FFFF))
  ++ (List.range 32).map (fun k => (0x100 + 2 * k, 0x1FF001FF003))
  ++ (List.range 32).map (fun k => (0x101 + 2 * k, 0x1FFFFFFFFFFF000))

end Sys2Proof.Machine


/-- R137, R85: RETT needs TD and a TPC that is a multiple of 4, waits for the strand's stores to scratchpad, and
returns; it is a marker in both queues. R82, R83: what taking a trap leaves. R83, R85: what trap entry writes, trap return reads back: the pc is the TPC of the frame, and the loop registers,
REPSTAT and the latches that held a value are those of before the trap. A group member keeps the issue unit in its
handler (R256, R258). That a bundle which REP of 0 was to pass over is still passed over after the return is the
model's choice (log entry 78). -/
def Obligations.TrapEntryReturnAndFrame : Prop :=
  (
    (
      ∀ (y : Syl) (s : State), Issues (.rett y) s →
        (s.me.td = false → Traps (.rett y) s 0x02 0 0)
        ∧ (s.me.td = true → s.me.localStores = true → Stalls (.rett y) s)
        ∧ (s.me.td = true → s.me.localStores = false → frameWord s 0 % 4 ≠ 0 → Traps (.rett y) s 0x03 0 0)
        ∧ (s.me.td = true → s.me.localStores = false → frameWord s 0 % 4 = 0 → Room s 1 1 →
          Completes (.rett y) s { Done.plain (fun t => t.setMe { t.me with
            seq := t.me.seq + 1, lq := t.me.lq ++ [⟨t.me.seq + 1, .marker false⟩],
            sq := t.me.sq ++ [⟨t.me.seq + 1, .marker false⟩] }) with ret := true, lqn := 1, sqn := 1, seqn := 1 })
    ) ∧ (
      ∀ (s : State) (u : UnitNo) (k : StrandNo) (i : TrapInfo), (s.strand u k).td = false →
        let t := s.strand u k
        let r := (s.enterTrap u k i).strand u k
        r.pc = t.tvec &&& ~~~3 ∧ r.td = true
        ∧ r.run = (if (s.core u).group.isSome ∧ (s.core u).active = some k then .running else .ready) ∧ r.lat = [] ∧ r.lcnt0 = 0 ∧ r.lcnt1 = 0 ∧ r.repn = 0
        ∧ r.repi = 0 ∧ r.repSkip = false ∧ r.w = t.w ∧ r.a = t.a ∧ r.p = t.p ∧ r.m = t.m ∧ r.lbeg0 = t.lbeg0 ∧ r.lend0 = t.lend0
        ∧ r.lbeg1 = t.lbeg1 ∧ r.lend1 = t.lend1 ∧ r.lq = t.lq ∧ r.sq = t.sq ∧ r.tvec = t.tvec ∧ r.tfbase = t.tfbase
        ∧ ∀ (v : UnitNo) (j : StrandNo), strandKey v j ≠ strandKey u k → (s.enterTrap u k i).strand v j = s.strand v j
    )
  ) ∧ (
    ∀ (s : State) (u : UnitNo) (k : StrandNo) (i : TrapInfo), (s.strand u k).td = false →
      (∀ n, n < 1280 → s.liveKey (spadKey u.toNat (field (s.strand u k).tfbase 20 8 * 256 + n))
        = spadKey u.toNat (field (s.strand u k).tfbase 20 8 * 256 + n)) →
      let t := s.strand u k
      let r := ((s.enterTrap u k i).returnTrap u k).strand u k
      r.pc = i.tpc ∧ r.td = false ∧ r.lcnt0 = t.lcnt0 ∧ r.lbeg0 = t.lbeg0 &&& ~~~3 ∧ r.lend0 = t.lend0 &&& ~~~3
      ∧ r.lcnt1 = t.lcnt1 ∧ r.lbeg1 = t.lbeg1 &&& ~~~3 ∧ r.lend1 = t.lend1 &&& ~~~3 ∧ r.repn = t.repn ∧ r.repi = t.repi
      ∧ r.repSkip = t.repSkip ∧ r.w = t.w ∧ r.a = t.a ∧ r.p = t.p ∧ r.m = t.m
      ∧ ∀ n, n < 4 → r.latch n = match t.latch n with
        | .word v => .word v
        | .row x => .row x
        | _ => .invalid
  )


/-- R69, R138: RDSR and WRSR; a number of no register, a write to a register marked RO and a nonzero write to
sys.REPSTAT raise ILLEGAL-OPERAND. R69, R138: a register reads back what was written, its reserved bits 0. That a
reserved rounding mode written to sys.FPCR leaves the old one is the model's choice (log entry 42), and so is that 0
written to sys.REPSTAT inside a repeated bundle reads back 0 (log entry 39). -/
def Obligations.ControlRegistersReadAndWrite : Prop :=
  (
    (∀ (y : Syl) (s : State) (n : Nat),
      (if y.len = .x96 then (.ok y.lit : Rd W32) else readW s y.s2) = .ok (BitVec.ofNat 32 n) → n < 4096 →
      (Issues (.rdsr y) s →
        (∀ v, readCR s n = .ok v → freeA s y → Completes (.rdsr y) s (doneA y v))
        ∧ ∀ e, readCR s n = .error e → EndsAs (.rdsr y) s e)
      ∧ ∀ v : W64, Issues (.wrsr y) s → readA s y.s1 = .ok v →
        (∀ f, writeCR s n v = .ok f → Completes (.wrsr y) s (Done.plain f))
        ∧ ∀ e, writeCR s n v = .error e → EndsAs (.wrsr y) s e)
    ∧ (∀ (s : State) (n : Nat), n < 4096 →
      (listedCR n = false → readCR s n = .error (.trap 0x02 0 0))
      ∧ (listedCR n = true → n ≠ 0x10 → ∃ v, readCR s n = .ok v)
      ∧ ∀ v, (writableCR n = false → writeCR s n v = .error (.trap 0x02 0 0))
        ∧ (supCR n = true → s.sup = false → writeCR s n v = .error (.trap 0x02 0 0))
        ∧ (n = 0x00C → v ≠ 0 → writeCR s n v = .error (.trap 0x02 0 0)))
  ) ∧ (
    (∀ (s : State) (n : Nat) (m v : W64) (f : State → State), (n, m) ∈ keptCR → writeCR s n v = .ok f →
      readCR (f s) n = .ok (v &&& m))
    ∧ (∀ (s : State) (v : W64) (f : State → State), writeCR s 0x000 v = .ok f →
      (f s).me = { s.me with td := v.getLsbD 15 })
    ∧ (∀ (s : State) (v : W64) (f : State → State), writeCR s 0x001 v = .ok f →
      readCR (f s) 0x001 = .ok (if v.toNat % 8 ≤ 4 then v &&& 0xF else (v &&& 8) ||| (s.me.rm.setWidth 64)))
    ∧ (∀ (s : State) (f : State → State), writeCR s 0x00C 0 = .ok f → readCR (f s) 0x00C
        = .ok (if s.me.repn = 0 then BitVec.ofNat 64 (s.me.repi.toNat * 2 ^ 16) else 0))
  )


/-- R143, R157, R169: SLEEPTO with its promise check, and VWIN. R139, R304: the reads of time and of the protection keys. -/
def Obligations.SleepWindowAndTimeReads : Prop :=
  (
    (∀ (y : Syl) (s : State) (t : W64), Issues (.sleepto y) s → readA s y.s1 = .ok t →
      WaitsFor (.sleepto y) s (t.toNat ≤ s.myCore.cycle.toNat) (.cycle t) (Done.plain id))
    ∧ (∀ (y : Syl) (s : State) (t n : W64), readA s y.s1 = .ok t → readA s y.s2 = .ok n →
      ∀ p ∈ [(Instr.sleeptoCp0 y, 1), (Instr.sleeptoCp1 y, 2)], Issues p.1 s →
        (s.myCore.cycle.toNat < t.toNat → Blocks p.1 s (.cycle t))
        ∧ (t.toNat ≤ s.myCore.cycle.toNat → n.toNat ≤ (s.myCore.tlSeen (4 * s.curK.toNat + p.2)).toNat →
          Completes p.1 s (Done.plain id))
        ∧ (t.toNat ≤ s.myCore.cycle.toNat → (s.myCore.tlSeen (4 * s.curK.toNat + p.2)).toNat < n.toNat →
          Traps p.1 s 0x09 0 (BitVec.ofNat 64 (n.toNat % 2 ^ 60 + (p.2 - 1) * 2 ^ 60))))
    ∧ (∀ (y : Syl) (s : State), Issues (.vwin y) s →
      Completes (.vwin y) s (Done.plain (fun t => t.setMe { t.me with vwin := BitVec.ofNat 3 (fieldNo y.s1) })))
    ∧ (∀ (y : Syl) (s : State) (v : W32), Issues (.vwinReg y) s → src2W s y = .ok v →
      (v.toNat < 8 → Completes (.vwinReg y) s (Done.plain (fun t => t.setMe { t.me with vwin := v.setWidth 3 })))
      ∧ (8 ≤ v.toNat → Traps (.vwinReg y) s 0x02 0 0))
  ) ∧ (
    (∀ (y : Syl) (s : State), CompletesA (.rdtime y) y s s.ptime ∧ CompletesA (.rdcyc y) y s s.myCore.cycle ∧ CompletesA (.rpkr y) y s s.me.pkr)
  )

/-- R171, R172: the barrier instructions. A remote arrival from a unit of no cluster names unit 1023, which is absent
(the model's choice, log entry 35). R158, R159, R167: reads of tile status and of timelines. R162: a read or a check
finds timelines and barriers as they stood before its cc; as the cycle passes, it finds what the cc changed. -/
def Obligations.BarriersTimelinesAndStatus : Prop :=
  (
    (∀ (y : Syl) (s : State) (v : W32), Issues (.binit y) s → barSpec s y 0xFE00 = .ok v →
      (v.toNat / 2 ^ 16 ≠ 0 → QueuesStore (.binit y) s (.binit (v.toNat % 512) (v.toNat / 2 ^ 16)))
      ∧ (v.toNat / 2 ^ 16 = 0 → Traps (.binit y) s 0x02 0 0))
    ∧ (∀ (y : Syl) (s : State) (v : W32), Issues (.barr y) s → barSpec s y 0xE0FE00 = .ok v →
      (v.getLsbD 20 = false → QueuesStore (.barr y) s (.barr s.curU.toNat (v.toNat % 512) (v.toNat / 2 ^ 24 + 1)))
      ∧ (v.getLsbD 20 = true → s.curU.toNat < 512 → QueuesStore (.barr y) s
        (.barr (s.curU.toNat / 16 * 16 + v.toNat / 2 ^ 16 % 16) (v.toNat % 512) (v.toNat / 2 ^ 24 + 1)))
      ∧ (v.getLsbD 20 = true → 512 ≤ s.curU.toNat → QueuesStore (.barr y) s
        (.barr 1023 (v.toNat % 512) (v.toNat / 2 ^ 24 + 1))))
    ∧ (∀ (y : Syl) (s : State) (v : W32), barSpec s y 0xFFFFFC00 = .ok v →
      (Issues (.bwait y) s → WaitsFor (.bwait y) s ((s.myCore.barSeen (v.toNat % 512)).phn.getLsbD 0 ≠ v.getLsbD 9)
        (.barrier (v.toNat % 512) (v.getLsbD 9)) (Done.plain id))
      ∧ CompletesP (.btest y) y s ((s.myCore.barSeen (v.toNat % 512)).phn.getLsbD 0 != v.getLsbD 9)
      ∧ CompletesW (.brd y) y s (BitVec.ofNat 32 ((s.myCore.barSeen (v.toNat % 512)).arrived.toNat
          + 2 ^ 16 * ((s.myCore.barSeen (v.toNat % 512)).phn.toNat % 2 ^ 16))))
    ∧ (∀ (y : Syl) (s : State) (m : Nat),
      (y.len = .x96 → barSpec s y m = .ok y.lit)
      ∧ (y.len ≠ .x96 → ∀ v, src2W s y = .ok v →
        barSpec s y m = if v.toNat &&& m = 0 then .ok v else .error (.trap 0x02 0 0)))
  ) ∧ (
    (∀ (y : Syl) (s : State) (q : Nat), queueSpec s y = .ok q →
      CompletesA (.tlrd y) y s (s.myCore.tlSeen q)
      ∧ (∀ n : W64, Issues (.tlwait y) s → readA s y.s1 = .ok n →
        WaitsFor (.tlwait y) s (n.toNat ≤ (s.myCore.tlSeen q).toNat) (.timeline q n) (Done.plain id))
      ∧ CompletesA (.tlflt y) y s (s.myCore.queue q).fault
      ∧ (Issues (.tlfltc y) s → q / 4 = s.curK.toNat → freeA s y →
        Completes (.tlfltc y) s ((doneA y (s.myCore.queue q).fault).andThen (fun t => t.setMyCore (t.myCore.clearFault q))))
      ∧ (Issues (.tlfltc y) s → q / 4 ≠ s.curK.toNat → Traps (.tlfltc y) s 0x02 0 0))
    ∧ (∀ (c : Core) (q p : Nat), ((c.clearFault q).queue q).fault = 0 ∧ ((c.clearFault q).queue q).tl = (c.queue q).tl
      ∧ ((c.clearFault q).queue q).entries = (c.queue q).entries ∧ (p ≠ q → (c.clearFault q).queue p = c.queue p))
    ∧ (∀ (c : Core) (q b : Nat) (x : Queue) (z : Barrier),
      (c.changeQueue q x).tlSeen q = c.tlSeen q ∧ (c.changeQueue q x).queue q = x
      ∧ (c.changeBarrier b z).barSeen b = c.barSeen b ∧ (c.changeBarrier b z).barrier b = z)
    ∧ (∀ (s : State) (u : UnitNo) (n q b : Nat),
      ((s.tickCore u n).core u).tlSeen q = ((s.core u).queue q).tl
      ∧ ((s.tickCore u n).core u).barSeen b = (s.core u).barrier b)
    ∧ (∀ (y : Syl) (s : State),
      (y.form = 9 → CompletesP (.statrd y) y s (s.myCore.reflect.tileStat (fieldNo y.s1)).nan)
      ∧ (y.form ≠ 9 → CompletesW (.statrd y) y s (s.myCore.reflect.tileStat (fieldNo y.s1)).word)
      ∧ (Issues (.statrdc y) s → freeW s y → ∃ f : State → State,
        Completes (.statrdc y) s ((doneW y (s.myCore.reflect.tileStat (fieldNo y.s1)).word).andThen f)
        ∧ ∀ t, ((f t).myCore.tileStat (fieldNo y.s1)).nan = false ∧ ((f t).myCore.tileStat (fieldNo y.s1)).ovf = false
          ∧ ((f t).myCore.tileStat (fieldNo y.s1)).dcnt = (t.myCore.reflect.tileStat (fieldNo y.s1)).dcnt
          ∧ (f t).me = t.me))
    ∧ (∀ x : TileStat, x.word.getLsbD 0 = x.nan ∧ x.word.getLsbD 1 = x.ovf ∧ x.word.toNat / 2 ^ 16 = x.dcnt.toNat
      ∧ x.word.toNat / 4 % 2 ^ 14 = 0)
  )


/-- R164, R166, R220: what ENQ puts into a queue, and where it blocks or raises BAD-COMMAND. -/
def Obligations.EnqueueCommits : Prop :=
  (∀ (y : Syl) (s : State) (cx : Ctx) (e : Nat) (a : W64) (w : CmdWord), e < 4 → cmdOp w ≠ 0x12 →
    (s.myCore.cmdAddrOk a = false ∨ (frameOk e w).isSome = true ∨ (e = 0 ∧ unitClass s.curU ≠ 0) →
      enqueue y s cx e a w = .error (.trap 0x04 0 0))
    ∧ (s.myCore.cmdAddrOk a = true → (frameOk e w).isSome = false → (e ≠ 0 ∨ unitClass s.curU = 0) →
      (16 ≤ (s.myCore.queue (4 * s.curK.toNat + e)).entries.length →
        enqueue y s cx e a w = .error (.block (.queueFull (4 * s.curK.toNat + e))))
      ∧ ((s.myCore.queue (4 * s.curK.toNat + e)).entries.length < 16 → freeA s y →
        enqueue y s cx e a w = .ok { (doneA y ((s.myCore.queue (4 * s.curK.toNat + e)).nx + 1)).andThen (fun t =>
            (t.setMe { t.me with promise := promiseOf s.myCore.cycle (s.myCore.queue (4 * s.curK.toNat + e)) (resolveRm s w)
              }).pushCommand (4 * s.curK.toNat + e) (resolveRm s w) s.me.srkey
              (s.me.srctr + BitVec.ofNat 32 cx.ctr) s.me.seq none
              (promiseOf s.myCore.cycle (s.myCore.queue (4 * s.curK.toNat + e)) (resolveRm s w))) with
          ctr := takesCounter (resolveRm s w) })))
  ∧ (∀ (y : Syl) (s : State) (cx : Ctx) (e : Nat) (a : W64) (w f : CmdWord), e < 4 → cmdOp w = 0x12 →
    s.myCore.cmdAddrOk a = true → (frameOk e w).isSome = false → unitClass s.curU = 0 → followOn s w = .ok f →
    let q := 4 * s.curK.toNat + e
    let x := s.myCore.queue q
    (16 ≤ x.entries.length ∨ 16 ≤ (s.myCore.queue (4 * s.curK.toNat)).entries.length →
      enqueue y s cx e a w = .error (.block (.queuesFull q (4 * s.curK.toNat))))
    ∧ (x.entries.length < 16 → (s.myCore.queue (4 * s.curK.toNat)).entries.length < 16 → freeA s y →
      enqueue y s cx e a w = .ok { (doneA y (x.nx + 1)).andThen (fun t =>
          let p := promiseOf s.myCore.cycle x (resolveRm s w)
          let t := (t.setMe { t.me with promise := p }).pushCommand q (resolveRm s w) s.me.srkey
            (s.me.srctr + BitVec.ofNat 32 cx.ctr) s.me.seq none p
          t.pushCommand (4 * t.curK.toNat) f s.me.srkey (s.me.srctr + BitVec.ofNat 32 cx.ctr) s.me.seq
            (some (q, x.nx + 1)) (BitVec.allOnes 64)) with
        ctr := takesCounter (resolveRm s w) || takesCounter f }))
  ∧ (∀ (y : Syl) (s : State) (a : W64) (w : CmdWord) (d : Done),
    (if y.len = .x96 then (.ok (y.lit.setWidth 64) : Rd W64) else readA s y.s1) = .ok a →
    s.myCore.cmdAddrOk a = true → readCommand s a.toNat = .ok w →
    enqueue y s ⟨0, y.len.bytes⟩ (y.form.toNat % 4) a w = .ok d →
    Issues (.enq y) s → Completes (.enq y) s d)
  ∧ (∀ (y : Syl) (s : State) (w w1 w2 : CmdWord) (d : Done),
    s.myCore.cmdAddrOk (BitVec.ofNat 64 (field y.lit 20 5 * 32)) = true → readCommand s (field y.lit 20 5 * 32) = .ok w →
    applyPatch s w (bit y.lit 29) (bit y.lit 24) (field y.lit 23 21) y.s2 = .ok w1 →
    applyPatch s w1 (bit y.lit 30) (bit y.lit 28) (field y.lit 27 25) y.s3 = .ok w2 →
    enqueue y s ⟨0, y.len.bytes⟩ (y.form.toNat % 4) (BitVec.ofNat 64 (field y.lit 20 5 * 32)) w2 = .ok d →
    Issues (.enqp y) s → Completes (.enqp y) s d)
  ∧ (∀ (s : State) (q : Nat) (w : CmdWord) (key : W64) (ctr : W32) (seq : Nat) (pend : Option (Nat × W64)) (pr : W64),
    let x := (s.pushCommand q w key ctr seq pend pr).myCore.queue q
    x.nx = (s.myCore.queue q).nx + 1 ∧ x.tl = (s.myCore.queue q).tl ∧ x.fault = (s.myCore.queue q).fault
    ∧ x.entries = (s.myCore.queue q).entries
        ++ [⟨(s.myCore.queue q).nx + 1, w, key, ctr, s.sup, s.me.pkr, seq, pend, false, pr, false⟩]
    ∧ ∀ p, p ≠ q → (s.pushCommand q w key ctr seq pend pr).myCore.queue p = s.myCore.queue p)
  ∧ (∀ (w : CmdWord) (j v b : Nat), j < 8 → b < 256 →
    (patchWord w j 1 v).getLsbD b = (if 32 * j ≤ b ∧ b < 32 * j + 32 then v.testBit (b - 32 * j) else w.getLsbD b)
    ∧ (j % 2 = 0 → (patchWord w j 2 v).getLsbD b
        = (if 32 * j ≤ b ∧ b < 32 * j + 64 then v.testBit (b - 32 * j) else w.getLsbD b)))

/-- R256, R259 to R261: the group instructions. A core belongs to one group at most: a join by another strand of a core
that has joined traps, whatever slot it names; a join of a slot whose group, of the same mask, is under way blocks. -/
def Obligations.GroupInstructions : Prop :=
  (∀ (y : Syl) (s : State), s.myCore.group = none →
    (∀ i ∈ [Instr.sgleave y, Instr.sgsync y, Instr.sgrd y], Issues i s → Traps i s 0x02 0 0))
  ∧ (∀ (y : Syl) (s : State) (g : BitVec 2), s.myCore.group = some g →
    (Issues (.sgleave y) s → Completes (.sgleave y) s (Done.plain State.leaveGroup))
    ∧ CompletesA (.sgrd y) y s (s.groupOf (unitCluster s.curU) g.toNat).scnt
    ∧ (Issues (.sgsync y) s → (s.groupOf (unitCluster s.curU) g.toNat).synced.getLsbD (s.curU.toNat % 16) = false →
      Blocks (.sgsync y) s (.sync g.toNat))
    ∧ (Issues (.sgsync y) s → (s.groupOf (unitCluster s.curU) g.toNat).synced.getLsbD (s.curU.toNat % 16) = true →
      Completes (.sgsync y) s (Done.plain (fun t =>
        let x := t.groupOf (unitCluster t.curU) g.toNat
        t.setGroup (unitCluster t.curU) g.toNat
          { x with synced := x.synced &&& ~~~(BitVec.twoPow 16 (t.curU.toNat % 16)) }))))
  ∧ (∀ (s : State), (State.leaveGroup s).myCore.group = none)
  ∧ (∀ (y : Syl) (s : State) (v : W32), Issues (.sgrp y) s → groupSpec s y = .ok v →
    let g := field v 17 16
    let x := s.groupOf (unitCluster s.curU) g
    let me := s.curU.toNat % 16
    let mine := x.joined.getLsbD me = true ∧ Table.get 8 x.strands me = s.curK.toNat ∧ x.mask = v.setWidth 16
      ∧ x.done.getLsbD me = false
    let joinedAny := ∃ p ∈ (s.cluster (unitCluster s.curU)).groups, p.2.joined.getLsbD me = true
    (mine → WaitsFor (.sgrp y) s (x.started = true) (.group g (v.setWidth 16)) (Done.plain (fun t =>
        let x := t.groupOf (unitCluster t.curU) g
        t.setGroup (unitCluster t.curU) g { x with done := x.done ||| BitVec.twoPow 16 (t.curU.toNat % 16) })))
    ∧ (¬mine →
      (v.getLsbD me = true → s.maskPresent (v.setWidth 16) = true → s.myCore.group = none → ¬joinedAny →
        (x.joined = 0 ∨ x.mask = v.setWidth 16) → Blocks (.sgrp y) s (.group g (v.setWidth 16)))
      ∧ ((v.getLsbD me = false ∨ s.maskPresent (v.setWidth 16) = false ∨ s.myCore.group ≠ none ∨ joinedAny
          ∨ (x.joined ≠ 0 ∧ x.mask ≠ v.setWidth 16)) → Traps (.sgrp y) s 0x02 0 0)))
  ∧ (∀ (s : State) (g : Nat) (mask : BitVec 16), g < 4 →
    let n := unitCluster s.curU
    let x := s.groupOf n g
    let me := s.curU.toNat % 16
    (x.started = false → x.joined.getLsbD me = false →
      let x' := (s.blockHere (.group g mask)).groupOf n g
      x'.mask = mask ∧ x'.joined = x.joined ||| BitVec.twoPow 16 me ∧ Table.get 8 x'.strands me = s.curK.toNat
      ∧ x'.started = false)
    ∧ ((x.started = true ∨ x.joined.getLsbD me = true) → (s.blockHere (.group g mask)).groupOf n g = x))

/-- R282, R299 to R304: the instructions of translation and MIGHINT. TLBINV and TLBWAIT find sys.IVTL as it stood before
their cc. R141: LOCQ returns the locality word and traps on
nothing but its base; its walk counts to activity 3 at the home agents of the table pages it reads. That LOCQ and XLAT
trap where an operand names no value, and that XLAT raises POISON where a table entry it reads has an uncorrectable
error, are the model's choices (log entry 84); so are that XLAT does not wait behind markers (log entry 47), and how long a
walk works at a home agent, which R283 leaves open (log entry 24). -/
def Obligations.TranslationInstructions : Prop :=
  (
    (∀ (y : Syl) (s : State) (va page : W64), ∀ p ∈ [(Instr.tlbinvVa y, 0, va, page), (.tlbinvTbl y, 1, 0, page), (.tlbinvAll y, 2, 0, 0)],
      Issues p.1 s →
      (p.2.1 = 0 → readA s y.s1 = .ok va ∧ readA s y.s2 = .ok page) → (p.2.1 = 1 → readA s y.s1 = .ok page) →
      ((s.sup = false ∨ p.2.2.2.toNat % 2 ^ 12 ≠ 0 ∨ 2 ^ 52 ≤ p.2.2.2.toNat ∨ (p.2.1 = 0 ∧ canonical va = false)) →
        Traps p.1 s 0x02 0 0)
      ∧ (s.sup = true → p.2.2.2.toNat % 2 ^ 12 = 0 → p.2.2.2.toNat < 2 ^ 52 → (p.2.1 = 0 → canonical va = true) →
        (s.me.ivnx - s.myIvtl = 8 → Stalls p.1 s)
        ∧ (s.me.ivnx - s.myIvtl ≠ 8 → Room s 0 1 → freeA s y →
          Completes p.1 s (((doneA y (s.me.ivnx + 1)).andThen (fun t => t.setMe { t.me with
            ivnx := s.me.ivnx + 1, seq := t.me.seq + 1,
            sq := t.me.sq ++ [⟨t.me.seq + 1, .tlbinv (s.me.ivnx + 1) p.2.1 p.2.2.1 p.2.2.2⟩] })).alsoEnters))))
    ∧ (∀ (y : Syl) (s : State) (n : W64), Issues (.tlbwait y) s → readA s y.s1 = .ok n →
      (s.me.ivnx.toNat < n.toNat → Traps (.tlbwait y) s 0x02 0 0)
      ∧ (n.toNat ≤ s.me.ivnx.toNat →
        WaitsFor (.tlbwait y) s (n.toNat ≤ s.myIvtl.toNat) (.tlbinv n) (Done.plain id)))
    ∧ (∀ (y : Syl) (s : State) (ea : W64), effAddrPlain s y = .ok ea → freeA s y →
      ∀ p ∈ [(Instr.xlat y, Acc.read), (.xlatW y, .write), (.xlatX y, .fetch)], Issues p.1 s →
        ((((s.tlbFind s.who ea).isSome = true ∨ s.walkWaits s.myPart ea = false) →
          (∀ f, (s.translate s.who ea p.2 .probe).1 = .error f → f.isPoison = false) →
          Completes p.1 s ((doneA y (match (s.translate s.who ea p.2 .probe).1 with
            | .ok h => h.physical ea
            | .error f => f.word)).after (fun t => (t.translate s.who ea p.2 .probe).2)))
        ∧ (((s.tlbFind s.who ea).isSome = true ∨ s.walkWaits s.myPart ea = false) →
          ∀ f, (s.translate s.who ea p.2 .probe).1 = .error f → f.isPoison = true → Traps p.1 s f.cause ea f.word)
        ∧ ((s.tlbFind s.who ea).isSome = false → s.walkWaits s.myPart ea = true → Stalls p.1 s)))
    ∧ (∀ (y : Syl) (s : State) (v : W64), y.len ≠ .x96 → readA s y.s1 = .ok v → Issues (.wpkr y) s →
      Completes (.wpkr y) s (Done.plain (fun t => t.setMe { t.me with pkr := v })))
    ∧ (∀ (y : Syl) (s : State) (v : W32), y.len = .x96 → readW s y.s1 = .ok v → Issues (.wpkr y) s →
      (4 ≤ v.toNat → Traps (.wpkr y) s 0x02 0 0)
      ∧ (v.toNat < 4 → y.lit.toNat < 32 → ∃ f : W64 → W64,
        Completes (.wpkr y) s (Done.plain (fun t => t.setMe { t.me with pkr := f t.me.pkr }))
        ∧ ∀ x b, b < 64 → (f x).getLsbD b
          = if b / 2 = y.lit.toNat then v.getLsbD (b % 2) else x.getLsbD b))
    ∧ (∀ (y : Syl) (s : State) (ea : W64) (h : W32), Issues (.mighint y) s → readA s y.s1 = .ok ea →
      (if y.len = .x96 then (.ok y.lit : Rd W32) else readW s y.s2) = .ok h →
      (y.len ≠ .x96 → 16 ≤ h.toNat → Traps (.mighint y) s 0x02 0 0)
      ∧ (h.toNat < 16 → s.writable (if y.nwb then .latW else .w y.d.toNat) = .ok () →
        Completes (.mighint y) s { Done.plain (fun t =>
          let m := t.me.clearBad (if y.nwb then .latW else .w y.d.toNat)
          t.setMe { m with seq := m.seq + 1
                           hints := m.hints ++ [⟨m.seq + 1, (if y.nwb then .latW else .w y.d.toNat), ea, h.setWidth 4,
                             s.sup, s.me.pkr⟩] }) with
          latch := .pending (s.me.seq + 1), seqn := 1 }))
  ) ∧ (
    (∀ (y : Syl) (s : State) (ea : W64), Issues (.locq y) s → effAddrPlain s y = .ok ea → freeA s y →
      let homes := s.walkHomes s.myPart ea
      ((s.tlbFind s.who ea).isSome = true → Completes (.locq y) s (doneA y (s.localityWord ea)))
      ∧ ((s.tlbFind s.who ea).isSome = false → s.homes.spent 3 homes = false → s.walkWaits s.myPart ea = false →
          Completes (.locq y) s ((doneA y (s.localityWord ea)).andThen
            (fun t => (t.translate s.who ea .read .quiet).2.spend 3 homes)))
      ∧ ((s.tlbFind s.who ea).isSome = false → (s.homes.spent 3 homes = true ∨ s.walkWaits s.myPart ea = true) →
          Stalls (.locq y) s))
    ∧ ∀ (s : State) (ea : W64) (e : XFault), (s.translate s.who ea .read .quiet).1 = .error e →
      s.localityWord ea = BitVec.ofNat 64 (3 * 2 ^ 2 + 7 * 2 ^ 16)
  )

/-- R331 to R333, R355, R358: circuits and launches as strands see them. -/
def Obligations.CircuitAndLaunchInstructions : Prop :=
  (∀ (y : Syl) (s : State) (h g : Nat), handleNo s y = .ok h → Issues (.circwait y) s →
    (if 2 ≤ y.form.toNat % 4 then ∃ v, readW s y.s3 = .ok v ∧ g = v.toNat else g = 1) →
    let x := s.mySeq.handle h
    (¬((g ≤ x.gen.toNat ∧ x.state ≠ .settling) ∨ s.mySeq.status ≠ 0) → Blocks (.circwait y) s (.circuit h g))
    ∧ (((g ≤ x.gen.toNat ∧ x.state ≠ .settling) ∨ s.mySeq.status ≠ 0) →
      Completes (.circwait y) s (doneP y (decide (x.state = .live ∧ g ≤ x.gen.toNat)))))
  ∧ (∀ (y : Syl) (s : State) (h : Nat), handleNo s y = .ok h → CompletesA (.circq y) y s (s.mySeq.handle h).word)
  ∧ (∀ (y : Syl) (s : State) (v : W32), (if y.len = .x96 then (.ok y.lit : Rd W32) else readW s y.s2) = .ok v →
    handleNo s y = if v.toNat < 256 ∧ s.me.circctx.getLsbD 3 = false then .ok v.toNat else .error (.trap 0x02 0 0))
  ∧ (∀ (y : Syl) (s : State) (desc : W64) (arg : Option W64), readA s y.s1 = .ok desc →
    (if y.form = 1 then ∃ v, readA s y.s3 = .ok v ∧ arg = some v else arg = none) → Issues (.launch y) s →
    let x := s.partOf s.myPart
    (desc.toNat % 64 ≠ 0 → Traps (.launch y) s 0x07 desc 0)
    ∧ (desc.toNat % 64 = 0 → 256 ≤ (x.launches.filter (fun l => !l.complete)).length → Stalls (.launch y) s)
    ∧ (desc.toNat % 64 = 0 → (x.launches.filter (fun l => !l.complete)).length < 256 → Room s 0 1 → freeA s y →
      Completes (.launch y) s (((doneA y (x.ltick + 1)).andThen (fun t =>
        let r := t.addLaunch s.myPart (fun n =>
          newLaunch s.myPart n desc arg t.sup t.me.pkr (some t.curU.toNat) none none t.ptime false)
        r.setMe { r.me with seq := r.me.seq + 1
                            sq := r.me.sq ++ [⟨r.me.seq + 1, .launch (x.ltick + 1) desc arg t.sup t.me.pkr⟩] })).alsoEnters)))
  ∧ (∀ (y : Syl) (s : State) (t : W64), readA s y.s1 = .ok t →
    CompletesA (.lnstat y) y s (match (s.partOf s.myPart).findLaunch t with
      | none => 3
      | some l => if l.complete then 2 else if l.nodes.any (fun n => !n.gangs.isEmpty) then 1 else 0))

/-- R399, R412 to R415, R430 to R432: queue pairs, counters and parameter nodes as strands use them. -/
def Obligations.PairCounterAndNodeInstructions : Prop :=
  (∀ (y : Syl) (s : State) (c : Nat), counterSpec s y = .ok c →
    CompletesA (.cntrd y) y s (Table.get 0 s.fabric.counters c)
    ∧ ∀ v : W64, readA s y.s1 = .ok v →
      (Issues (.cntwait y) s → WaitsFor (.cntwait y) s (v.toNat ≤ (Table.get 0 s.fabric.counters c).toNat) (.counter c v)
        (Done.plain id))
      ∧ (Issues (.cntadd y) s → QueuesStore (.cntadd y) s (.cntadd c v)))
  ∧ (∀ (y : Syl) (s : State) (no : Nat) (n : W64), pairSpec s y = .ok no → readA s y.s1 = .ok n → Issues (.qarm y) s →
    ((s.pairOf no).posted.toNat < n.toNat → Traps (.qarm y) s 0x02 0 0)
    ∧ (n.toNat ≤ (s.pairOf no).posted.toNat → QueuesStore (.qarm y) s (.qarm (no / 64) (no % 64) n)))
  ∧ (∀ (y : Syl) (s : State) (no : Nat) (ea : W64) (bytes : List Byte) (f : State → State), pairSpec s y = .ok no →
    readA s y.s1 = .ok ea → Issues (.qpost y) s → readLocalNow s ea 64 64 = .ok (bytes, f) →
    let p := s.pairOf no
    let e0 : Entry := BitVec.ofNat 512 (leNat bytes)
    let e1 := if e0.rm = 7 then e0.put 18 16 s.me.rm.toNat else e0
    let e2 := if p.mode = 0 ∧ e1.ord = false then e1.put 367 352 s.curU.toNat else e1
    (s.entryOk p.mode e1 = false → Traps (.qpost y) s 0x04 0 0)
    ∧ (s.entryOk p.mode e1 = true → p.rsize ≤ (p.posted - p.retired).toNat → Stalls (.qpost y) s)
    ∧ (s.entryOk p.mode e1 = true → (p.posted - p.retired).toNat < p.rsize → freeA s y →
      Completes (.qpost y) s (((doneA y (p.posted + 1)).after f).andThen (fun t =>
        let t := t.writeNat (p.slotKey no (p.posted + 1).toNat) 64 e2.toNat
        let p := t.pairOf no
        t.setPair no { p with
          posted := (s.pairOf no).posted + 1
          caps := Table.set p.caps ((s.pairOf no).posted + 1).toNat
            { sup := s.sup, pkr := s.me.pkr, unit := s.curU.toNat, strand := s.curK.toNat, seq := s.me.seq } }))))
  ∧ (∀ (y : Syl) (s : State) (v : W32), (if y.len = .x96 then (.ok y.lit : Rd W32) else readW s y.s2) = .ok v →
    (counterSpec s y = if v.toNat < 2 ^ 14 ∧ s.counterPart v.toNat = s.myPart then .ok v.toNat else .error (.trap 0x02 0 0))
    ∧ (pairSpec s y = if v.toNat < 2 ^ 10 ∧ s.pairValid (64 * (v.toNat % 16) + v.toNat / 16) = true
        ∧ s.pairPart (64 * (v.toNat % 16) + v.toNat / 16) = s.myPart
      then .ok (64 * (v.toNat % 16) + v.toNat / 16) else .error (.trap 0x02 0 0)))
  ∧ (∀ (y : Syl) (s : State) (ea : W64) (n : Nat), readA s y.s1 = .ok ea → cntSpec s y 8 = .ok n → Issues (.pncfg y) s →
    ((s.sup = false ∨ ea.toNat % 32 ≠ 0 ∨ 2 ^ 21 ≤ ea.toNat + 127) → Traps (.pncfg y) s 0x02 0 0)
    ∧ (s.sup = true → ea.toNat % 32 = 0 → ea.toNat + 127 < 2 ^ 21 → ∀ bytes f, readLocalNow s ea 128 32 = .ok (bytes, f) →
      s.writable (if y.nwb then .latW else .w y.d.toNat) = .ok () → Room s 0 1 →
      Completes (.pncfg y) s { Done.plain (fun t =>
        let t := f t
        let m := t.me.clearBad (if y.nwb then .latW else .w y.d.toNat)
        t.setMe { m with
          seq := m.seq + 1
          sq := m.sq ++ [⟨m.seq + 1, .pncfg n bytes (if y.nwb then .latW else .w y.d.toNat) t.sup t.me.pkr⟩] }) with
        latch := .pending (s.me.seq + 1), sqn := 1, seqn := 1 }))
  ∧ (∀ (y : Syl) (s : State) (v : Nat), cntSpec s y 20 = .ok v → v < 2 ^ 20 →
    let x := s.tensor s.myPart (v % 256)
    ((x.valid = false ∨ (v / 2 ^ 18 = 1 ∧ x.nblk ≤ v / 2 ^ 8 % 2 ^ 10)) → Issues (.pnstat y) s → Traps (.pnstat y) s 0x02 0 0)
    ∧ (x.valid = true → (v / 2 ^ 18 = 1 → v / 2 ^ 8 % 2 ^ 10 < x.nblk) →
      CompletesA (.pnstat y) y s (x.stat (v / 2 ^ 18) (v / 2 ^ 8 % 2 ^ 10))))

/-! ### Vectors -/

namespace Sys2Proof.Machine

/-- A form of two rows, lane by lane (R184). -/
def RowForm2 (i : Syl → Instr) (op : ITy → Bool → Nat → Nat → Nat) : Prop :=
  ∀ (y : Syl) (s : State) (x z : Row), Issues (i y) s → readV s y.s1 = .ok x →
    src2V s y (elemTy y.ty).width = .ok z → freeV s y →
    ∃ r, Completes (i y) s (doneV s y r) ∧ ∀ j, j < 2048 / (elemTy y.ty).width →
      elemAt (elemTy y.ty).width r j
        = op (elemTy y.ty) (satBit y.ty) (elemAt (elemTy y.ty).width x j) (elemAt (elemTy y.ty).width z j)

/-- A shift of rows: lane j of Src2, or LIT for every lane (R185). -/
def RowShift (i : Syl → Instr) (op : ITy → Bool → Nat → Nat → Nat) : Prop :=
  ∀ (y : Syl) (s : State) (x z : Row), Issues (i y) s → readV s y.s1 = .ok x →
    (y.len ≠ .x96 → src2V s y (elemTy y.ty).width = .ok z) → freeV s y →
    ∃ r, Completes (i y) s (doneV s y r) ∧ ∀ j, j < 2048 / (elemTy y.ty).width →
      elemAt (elemTy y.ty).width r j = op (elemTy y.ty) (satBit y.ty) (elemAt (elemTy y.ty).width x j)
        (if y.len = .x96 then y.lit.toNat else elemAt (elemTy y.ty).width z j)

/-- A bitwise form of rows (R185). -/
def RowLogic (i : Syl → Instr) (op : Bool → Bool → Bool) : Prop :=
  ∀ (y : Syl) (s : State) (x z : Row), Issues (i y) s → readV s y.s1 = .ok x →
    src2V s y (modeWidth y.ty) = .ok z → freeV s y →
    ∃ r : Row, Completes (i y) s (doneV s y r) ∧ ∀ b, b < 2048 → r.getLsbD b = op (x.getLsbD b) (z.getLsbD b)

/-- A rounding form of two rows; lane j rounds with stream j (R181, R183). -/
def RowFloat2 (i : Syl → Instr) (op : Mode → FV → FV → FV) : Prop :=
  ∀ (y : Syl) (s : State) (x z : Row), Issues (i y) s → readV s y.s1 = .ok x →
    src2V s y (elemFmt y.ty).width = .ok z → freeV s y →
    ∃ r, Completes (i y) s ((doneV s y r).counted (s.modeOf y.rm)) ∧ ∀ j, j < 2048 / (elemFmt y.ty).width →
      elemAt (elemFmt y.ty).width r j = (elemFmt y.ty).roundTo (s.modeAt (s.modeOf y.rm) 0 j) false s.me.ftz
          (op (s.modeAt (s.modeOf y.rm) 0 j) ((elemFmt y.ty).decode (elemAt (elemFmt y.ty).width x j))
            ((elemFmt y.ty).decode (elemAt (elemFmt y.ty).width z j))) % 2 ^ (elemFmt y.ty).width

/-- A fused multiply-add of rows (R183). -/
def RowFloat3 (i : Syl → Instr) (prod add : FV → FV) : Prop :=
  ∀ (y : Syl) (s : State) (x z c : Row), Issues (i y) s → readV s y.s1 = .ok x →
    src2V s y (elemFmt y.ty).width = .ok z → readV s y.s3 = .ok c → freeV s y →
    ∃ r, Completes (i y) s ((doneV s y r).counted (s.modeOf y.rm)) ∧ ∀ j, j < 2048 / (elemFmt y.ty).width →
      elemAt (elemFmt y.ty).width r j = (elemFmt y.ty).roundTo (s.modeAt (s.modeOf y.rm) 0 j) false s.me.ftz
          (exactSum [prod (((elemFmt y.ty).decode (elemAt (elemFmt y.ty).width x j)).mul
              ((elemFmt y.ty).decode (elemAt (elemFmt y.ty).width z j)))]
            (add ((elemFmt y.ty).decode (elemAt (elemFmt y.ty).width c j)))) % 2 ^ (elemFmt y.ty).width

/-- A form of one row of the float formats, with no rounding (R183). -/
def RowFloat1 (i : Syl → Instr) (op : FFmt → Bool → Nat → Nat) : Prop :=
  ∀ (y : Syl) (s : State) (x : Row), Issues (i y) s → readV s y.s1 = .ok x → freeV s y →
    ∃ r, Completes (i y) s (doneV s y r) ∧ ∀ j, j < 2048 / (elemFmt y.ty).width →
      elemAt (elemFmt y.ty).width r j
        = op (elemFmt y.ty) s.me.ftz (elemAt (elemFmt y.ty).width x j) % 2 ^ (elemFmt y.ty).width

/-- A selection between two rows (R106, R183). -/
def RowSelect (i : Syl → Instr) (takeMax : Bool) : Prop :=
  ∀ (y : Syl) (s : State) (x z : Row), Issues (i y) s → readV s y.s1 = .ok x →
    src2V s y (elemFmt y.ty).width = .ok z → freeV s y →
    ∃ r, Completes (i y) s (doneV s y r) ∧ ∀ j, j < 2048 / (elemFmt y.ty).width →
      elemAt (elemFmt y.ty).width r j = (elemFmt y.ty).select takeMax s.me.ftz (elemAt (elemFmt y.ty).width x j)
        (elemAt (elemFmt y.ty).width z j) % 2 ^ (elemFmt y.ty).width

/-- A compare of rows into a mask: every bit of a lane has the lane's condition, joined with the mask of S3 where
FORM[4] = 1 (R180, R186). -/
def RowCompare (i : Syl → Instr) (width : BitVec 4 → Nat) (cond : BitVec 4 → Nat → Nat → Bool) : Prop :=
  ∀ (y : Syl) (s : State) (x z : Row) (m : MaskReg), 8 ≤ width y.ty → width y.ty ∣ 2048 → Issues (i y) s →
    readV s y.s1 = .ok x → src2V s y (width y.ty) = .ok z → (bit y.form 4 = true → readM s y.s3 = .ok m) →
    ∃ v : MaskReg, Completes (i y) s (doneM y v) ∧ ∀ b, b < 256 → v.getLsbD b
      = (cond y.ty (elemAt (width y.ty) x (b / (width y.ty / 8))) (elemAt (width y.ty) z (b / (width y.ty / 8)))
        && (!bit y.form 4 || laneOn (width y.ty) m (b / (width y.ty / 8))))

/-- A form of FP32 lanes computed to the bit (R190). -/
def RowEstimate (i : Syl → Instr) (f : Bool → FV → Nat) : Prop :=
  ∀ (y : Syl) (s : State) (x : Row), Issues (i y) s → readV s y.s1 = .ok x → freeV s y →
    ∃ r, Completes (i y) s (doneV s y r) ∧ ∀ j, j < 64 →
      elemAt 32 r j = f s.me.ftz (f32.decode (elemAt 32 x j)) % 2 ^ 32

/-- A bitwise form of masks (R203). -/
def MaskForm (i : Syl → Instr) (op : Bool → Bool → Bool) : Prop :=
  ∀ (y : Syl) (s : State) (x z : MaskReg), Issues (i y) s → readM s y.s1 = .ok x → readM s y.s2 = .ok z →
    ∃ v : MaskReg, Completes (i y) s (doneM y v) ∧ ∀ b, b < 256 → v.getLsbD b = op (x.getLsbD b) (z.getLsbD b)

/-- Node j of level k of the fixed tree over the lanes l (Table 1-6). -/
def treeNode (op : Nat → Nat → Nat) (l : Nat → Nat) : Nat → Nat → Nat
  | 0, j => l j
  | k + 1, j => op (treeNode op l k (2 * j)) (treeNode op l k (2 * j + 1))

/-- s_j of a scan (R192). -/
def scanAt {α : Type} (op : Nat → α → α → α) (e : α) (l : Nat → α) : Nat → α
  | 0 => op 0 e (l 0)
  | j + 1 => op (j + 1) (scanAt op e l j) (l (j + 1))

/-- Lane j is active: always, or as the mask of S3 says with FORM[4] = 1. -/
def activeAt (y : Syl) (W : Nat) (m : MaskReg) (j : Nat) : Bool := !bit y.form 4 || laneOn W m j

/-- Lane j as a reduction takes it: an inactive lane enters as the identity (R191). -/
def fltEntry (o : RedOp) (y : Syl) (x : Row) (m : MaskReg) (j : Nat) : Nat :=
  if activeAt y (elemFmt y.ty).width m j then elemAt (elemFmt y.ty).width x j else redIdFlt o (elemFmt y.ty)
def intEntry (o : RedOp) (y : Syl) (x : Row) (m : MaskReg) (j : Nat) : Int :=
  if activeAt y (elemTy y.ty).width m j then (elemTy y.ty).read (elemAt (elemTy y.ty).width x j) else redIdInt o (elemTy y.ty)

/-- A reduction (R191): the fixed tree of 64 or 128 lanes, or the exact integer result wrapped or saturated once. -/
def Reduction (i : Syl → Instr) (o : RedOp) : Prop :=
  ∀ (y : Syl) (s : State) (x : Row) (m : MaskReg), Issues (i y) s → readV s y.s1 = .ok x →
    (bit y.form 4 = true → readM s y.s3 = .ok m) → freeW s y →
    (bit y.form 2 = false → ∀ k, 2 ^ k = 2048 / (elemFmt y.ty).width → k ≤ 7 →
      Completes (i y) s ((doneW y (BitVec.ofNat 32 (treeNode
        (redFlt o (elemFmt y.ty) (s.modeAt (s.modeOf y.rm) 0 0) s.me.ftz) (fltEntry o y x m) k 0))).counted (s.modeOf y.rm)))
    ∧ (bit y.form 2 = true → Completes (i y) s (doneW y ((elemTy y.ty).extend32 ((elemTy y.ty).fit (satBit y.ty)
        (((List.range (2048 / (elemTy y.ty).width)).map (intEntry o y x m)).foldl (redInt o) (redIdInt o (elemTy y.ty)))))))

/-- A scan (R192). -/
def Scan (i : Syl → Instr) (o : RedOp) : Prop :=
  ∀ (y : Syl) (s : State) (x : Row) (m : MaskReg), Issues (i y) s → readV s y.s1 = .ok x →
    (bit y.form 4 = true → readM s y.s3 = .ok m) → freeV s y →
    (bit y.form 2 = false → ∃ r, Completes (i y) s ((doneV s y r).counted (s.modeOf y.rm))
      ∧ ∀ j, j < 2048 / (elemFmt y.ty).width → elemAt (elemFmt y.ty).width r j
        = scanAt (fun j => redFlt o (elemFmt y.ty) (s.modeAt (s.modeOf y.rm) 0 j) s.me.ftz) (redIdFlt o (elemFmt y.ty))
          (fltEntry o y x m) j % 2 ^ (elemFmt y.ty).width)
    ∧ (bit y.form 2 = true → ∃ r, Completes (i y) s (doneV s y r)
      ∧ ∀ j, j < 2048 / (elemTy y.ty).width → elemAt (elemTy y.ty).width r j
        = (elemTy y.ty).fit (satBit y.ty) (scanAt (fun _ => redInt o) (redIdInt o (elemTy y.ty)) (intEntry o y x m) j))

/-- A permute of the lanes of two rows (R195). -/
def RowPermute (i : Syl → Instr) (pick : Nat → (Nat → Nat) → (Nat → Nat) → Nat → Nat) : Prop :=
  ∀ (y : Syl) (s : State) (x z : Row), Issues (i y) s → readV s y.s1 = .ok x →
    src2V s y (modeWidth y.ty) = .ok z → freeV s y →
    ∃ r, Completes (i y) s (doneV s y r) ∧ ∀ j, j < 2048 / modeWidth y.ty →
      elemAt (modeWidth y.ty) r j
        = pick (2048 / modeWidth y.ty) (elemAt (modeWidth y.ty) x) (elemAt (modeWidth y.ty) z) j

end Sys2Proof.Machine

/-- R184: the integer forms of rows, lane by lane. R185: bitwise forms and shifts of rows. -/
def Obligations.VectorIntegerAndLogicLanes : Prop :=
  (
    RowForm2 .vadd (exactOp (fun _ x z => x + z)) ∧ RowForm2 .vsub (exactOp (fun _ x z => x - z))
    ∧ RowForm2 .vmin (exactOp (fun _ x z => if x ≤ z then x else z))
    ∧ RowForm2 .vmax (exactOp (fun _ x z => if x ≤ z then z else x))
    ∧ RowForm2 .vmul (exactOp (fun _ x z => x * z))
    ∧ RowForm2 .vmulh (exactOp (fun t x z => x * z / ((2 ^ t.width : Nat) : Int)))
    ∧ RowForm2 .vabsd (fun t _ x z => (t.read x - t.read z).natAbs % 2 ^ t.width)
    ∧ (∀ (y : Syl) (s : State) (x z c : Row), Issues (.vmad y) s → readV s y.s1 = .ok x →
      src2V s y (elemTy y.ty).width = .ok z → readV s y.s3 = .ok c → freeV s y →
      ∃ r, Completes (.vmad y) s (doneV s y r) ∧ ∀ j, j < 2048 / (elemTy y.ty).width →
        elemAt (elemTy y.ty).width r j = (elemTy y.ty).fit (satBit y.ty)
          ((elemTy y.ty).read (elemAt (elemTy y.ty).width x j) * (elemTy y.ty).read (elemAt (elemTy y.ty).width z j)
            + (elemTy y.ty).read (elemAt (elemTy y.ty).width c j)))
    ∧ (∀ (y : Syl) (s : State) (x : Row), Issues (.vabs y) s → readV s y.s1 = .ok x → freeV s y →
      ∃ r, Completes (.vabs y) s (doneV s y r) ∧ ∀ j, j < 2048 / (elemTy y.ty).width →
        elemAt (elemTy y.ty).width r j
          = (elemTy y.ty).fit (satBit y.ty) ((elemTy y.ty).read (elemAt (elemTy y.ty).width x j)).natAbs)
  ) ∧ (
    RowLogic .vand (fun x z => x && z) ∧ RowLogic .vor (fun x z => x || z) ∧ RowLogic .vxor (fun x z => x != z)
    ∧ RowLogic .vandn (fun x z => x && !z)
    ∧ (∀ (y : Syl) (s : State) (x : Row), Issues (.vnot y) s → readV s y.s1 = .ok x → freeV s y →
      ∃ r : Row, Completes (.vnot y) s (doneV s y r) ∧ ∀ b, b < 2048 → r.getLsbD b = !x.getLsbD b)
    ∧ RowShift .vshl (fun t sat x n => t.fit sat (t.read x * ((2 ^ n : Nat) : Int)))
    ∧ RowShift .vshr (fun t _ x n => t.fit false (t.read x / ((2 ^ n : Nat) : Int)))
    ∧ RowShift .vrol (fun t _ x n => (x * 2 ^ (n % t.width) + x / 2 ^ (t.width - n % t.width)) % 2 ^ t.width)
    ∧ RowShift .vror (fun t _ x n => (x / 2 ^ (n % t.width) + x * 2 ^ (t.width - n % t.width)) % 2 ^ t.width)
  )


/-- R181, R183: the floating forms of rows. -/
def Obligations.VectorFloatLanes : Prop :=
  RowFloat2 .vfadd fAdd ∧ RowFloat2 .vfsub (fun m x z => fAdd m x z.neg) ∧ RowFloat2 .vfmul (fun _ x z => x.mul z)
  ∧ RowFloat3 .vfma id id ∧ RowFloat3 .vfms id FV.neg ∧ RowFloat3 .vfnma FV.neg id ∧ RowFloat3 .vfnms FV.neg FV.neg
  ∧ RowFloat1 .vfabs (fun f ftz x => f.canon ftz (x % 2 ^ (f.width - 1)))
  ∧ RowFloat1 .vfneg (fun f ftz x => f.canon ftz ((x + 2 ^ (f.width - 1)) % 2 ^ f.width))
  ∧ RowSelect .vfmin false ∧ RowSelect .vfmax true

/-- R180, R186, R203: compares of rows, VSEL and the mask forms. -/
def Obligations.VectorComparesAndMasks : Prop :=
  RowCompare .vcmpeq modeWidth (fun ty x z => (elemTy ty).read x == (elemTy ty).read z)
  ∧ RowCompare .vcmpne modeWidth (fun ty x z => (elemTy ty).read x != (elemTy ty).read z)
  ∧ RowCompare .vcmplt modeWidth (fun ty x z => (elemTy ty).read x < (elemTy ty).read z)
  ∧ RowCompare .vcmple modeWidth (fun ty x z => (elemTy ty).read x ≤ (elemTy ty).read z)
  ∧ RowCompare .vcmpgt modeWidth (fun ty x z => (elemTy ty).read z < (elemTy ty).read x)
  ∧ RowCompare .vcmpge modeWidth (fun ty x z => (elemTy ty).read z ≤ (elemTy ty).read x)
  ∧ RowCompare .vtest modeWidth (fun _ x z => x &&& z != 0)
  ∧ (∀ p ∈ [(Instr.vfcmpeq, Cond.eq), (.vfcmpne, .ne), (.vfcmplt, .lt), (.vfcmple, .le), (.vfcmpgt, .gt), (.vfcmpge, .ge)],
    RowCompare p.1 (fun ty => (elemFmt ty).width)
      (fun ty x z => fCond p.2 ((elemFmt ty).decode x) ((elemFmt ty).decode z)))
  ∧ (∀ (y : Syl) (s : State) (m : MaskReg) (x z : Row), Issues (.vsel y) s → readM s y.s1 = .ok m →
    src2V s y (modeWidth y.ty) = .ok x → readV s y.s3 = .ok z → freeV s y →
    ∃ r, Completes (.vsel y) s (doneV s y r) ∧ ∀ j, j < 2048 / modeWidth y.ty → elemAt (modeWidth y.ty) r j
      = if laneOn (modeWidth y.ty) m j then elemAt (modeWidth y.ty) x j else elemAt (modeWidth y.ty) z j)
  ∧ MaskForm .mand (fun x z => x && z) ∧ MaskForm .mor (fun x z => x || z) ∧ MaskForm .mxor (fun x z => x != z)
  ∧ MaskForm .mandn (fun x z => x && !z)
  ∧ (∀ (y : Syl) (s : State) (x : MaskReg), Issues (.mnot y) s → readM s y.s1 = .ok x → Completes (.mnot y) s (doneM y (~~~x)))
  ∧ (∀ (y : Syl) (s : State) (k : W32), 8 ≤ modeWidth y.ty → Issues (.mfirst y) s → src2W s y = .ok k →
    ∃ v : MaskReg, Completes (.mfirst y) s (doneM y v)
      ∧ ∀ b, b < 256 → v.getLsbD b = decide (b / (modeWidth y.ty / 8) < k.toNat))
  ∧ (∀ (y : Syl) (s : State) (m : MaskReg), readM s y.s1 = .ok m → CompletesW (.mcnt y) y s
    (BitVec.ofNat 32 ((List.range (2048 / modeWidth y.ty)).countP (fun j => laneOn (modeWidth y.ty) m j))))

/-- R187 to R190: conversions of rows, and the estimates. R190: the special operands of VEXP2, VLOG2 and VTANH, and the
operands whose exact result is an FP32 number. That a conversion which never rounds takes a counter value in RSTO is the
model's choice (log entry 90). -/
def Obligations.VectorConvertAndEstimate : Prop :=
  (∀ (y : Syl) (s : State) (x old : Row), Issues (.vcvt y) s → readV s y.s1 = .ok x → freeV s y →
    let src := y.form.toNat % 16
    let dst := y.ty.toNat
    let p := fieldNo y.s2
    let ns := cvtCount src
    let nd := cvtCount dst
    let m := s.modeOf y.rm
    let conv := fun j v => vconv dst (s.modeAt m 0 j) (y.form.toNat / 16 == 1) s.me.ftz v
    (nd ≤ ns → dst ≠ 5 → ∃ r, Completes (.vcvt y) s ((doneV s y r).counted m) ∧ ∀ j, j < nd →
      elemAt (codeWidth dst) r j = conv j (rowElem src x (p * nd + j)) % 2 ^ codeWidth dst)
    ∧ (ns < nd → dst ≠ 5 → p * ns + ns ≤ nd → readRowKey s (s.vKey y.d) = .ok old →
      ∃ r, Completes (.vcvt y) s ((doneV s y r).counted m) ∧ ∀ j, j < nd → elemAt (codeWidth dst) r j
        = if p * ns ≤ j ∧ j < p * ns + ns then conv j (rowElem src x (j - p * ns)) % 2 ^ codeWidth dst
          else elemAt (codeWidth dst) old j)
    ∧ (dst = 5 → (ns = 64 ∨ ns = 128) → p * ns + ns ≤ 256 → readRowKey s (s.vKey y.d) = .ok old →
      ∃ r, Completes (.vcvt y) s ((doneV s y r).counted m)
        ∧ (∀ b, p * ns / 32 ≤ b → b < (p * ns + ns) / 32 →
          let blk := mxBlock (fun k => s.modeAt m 0 (32 * b + k)) (y.form.toNat / 16 == 1) s.me.ftz
            ((List.range 32).map (fun k => (rowElem src x (32 * b - p * ns + k)).fv))
          elemAt 8 r (128 + b) = blk.1 % 256 ∧ ∀ k, k < 32 → elemAt 4 r (32 * b + k) = lane blk.2 k % 16)
        ∧ (∀ k, k < 256 → ¬(p * ns ≤ k ∧ k < p * ns + ns) → elemAt 4 r k = elemAt 4 old k)
        ∧ (∀ k, 128 ≤ k → k < 256 → ¬(p * ns / 32 ≤ k - 128 ∧ k - 128 < (p * ns + ns) / 32) → elemAt 8 r k = elemAt 8 old k)))
  ∧ RowEstimate .vrcp frcp ∧ RowEstimate .vrsq frsq ∧ RowEstimate .vexp2 vexp2 ∧ RowEstimate .vlog2 vlog2
  ∧ RowEstimate .vtanh vtanh ∧ EstimatesFixedPoints

/-- R191, R192: reductions and scans. -/
def Obligations.VectorReductionsAndScans : Prop :=
  Reduction .vredsum .sum ∧ Reduction .vredmin .min ∧ Reduction .vredmax .max
  ∧ Scan .vscansum .sum ∧ Scan .vscanmin .min ∧ Scan .vscanmax .max

/-- R193 to R199: packing, permutes, generators and moves. -/
def Obligations.VectorPackPermuteMove : Prop :=
  (∀ (y : Syl) (s : State) (x : Row) (m : MaskReg), Issues (.vcomp y) s → readV s y.s1 = .ok x → readM s y.s3 = .ok m →
    freeV s y → s.writable (.w (fieldNo y.s2 % 64)) = .ok () →
    let W := modeWidth y.ty
    let below := fun j => (List.range j).countP (fun k => laneOn W m k)
    ∃ r, Completes (.vcomp y) s ((doneV s y r).andThen (fun t => t.setMe
        ((t.me.clearBad (.w (fieldNo y.s2 % 64))).setW (BitVec.ofNat 6 (fieldNo y.s2)) (BitVec.ofNat 32 (below (2048 / W))))))
      ∧ (∀ j, j < 2048 / W → laneOn W m j = true → elemAt W r (below j) = elemAt W x j)
      ∧ (∀ c, below (2048 / W) ≤ c → c < 2048 / W → elemAt W r c = 0))
  ∧ (∀ (y : Syl) (s : State) (x : Row) (m : MaskReg), Issues (.vexpd y) s → readV s y.s1 = .ok x → readM s y.s3 = .ok m →
    freeV s y →
    let W := modeWidth y.ty
    ∃ r, Completes (.vexpd y) s (doneV s y r) ∧ ∀ j, j < 2048 / W → elemAt W r j
      = if laneOn W m j then elemAt W x ((List.range j).countP (fun k => laneOn W m k)) else 0)
  ∧ RowPermute .vperm (fun n x z j => x (z j % n))
  ∧ RowPermute .vzipl (fun _ x z j => if j % 2 = 0 then x (j / 2) else z (j / 2))
  ∧ RowPermute .vziph (fun n x z j => if j % 2 = 0 then x (n / 2 + j / 2) else z (n / 2 + j / 2))
  ∧ RowPermute .vuzpe (fun n x z j => if j < n / 2 then x (2 * j) else z (2 * (j - n / 2)))
  ∧ RowPermute .vuzpo (fun n x z j => if j < n / 2 then x (2 * j + 1) else z (2 * (j - n / 2) + 1))
  ∧ (∀ (y : Syl) (s : State) (x : Row) (k : W32), Issues (.vrotr y) s → readV s y.s1 = .ok x → src2W s y = .ok k →
    freeV s y → ∃ r, Completes (.vrotr y) s (doneV s y r) ∧ ∀ j, j < 2048 / modeWidth y.ty →
      elemAt (modeWidth y.ty) r j = elemAt (modeWidth y.ty) x ((j + k.toNat) % (2048 / modeWidth y.ty)))
  ∧ (∀ (y : Syl) (s : State) (v : W32), src2W s y = .ok v → freeV s y →
    (Issues (.vsplat y) s → ∃ r, Completes (.vsplat y) s (doneV s y r) ∧ ∀ j, j < 2048 / modeWidth y.ty →
      elemAt (modeWidth y.ty) r j = v.toNat % 2 ^ modeWidth y.ty)
    ∧ (Issues (.viota y) s → ∃ r, Completes (.viota y) s (doneV s y r) ∧ ∀ j, j < 2048 / modeWidth y.ty →
      elemAt (modeWidth y.ty) r j = (v.toNat + j) % 2 ^ modeWidth y.ty))
  ∧ (∀ (y : Syl) (s : State) (key : W64) (first ctr : W32), Issues (.vrand y) s → readA s y.s1 = .ok key →
    readW s y.s2 = .ok first → readW s y.s3 = .ok ctr → freeV s y →
    ∃ r, Completes (.vrand y) s (doneV s y r) ∧ ∀ j, j < 64 →
      elemAt 32 r j = (genG key ((first.toNat + j) % 2 ^ 32) ctr.toNat).toNat % 2 ^ 32)
  ∧ (∀ (y : Syl) (s : State) (x : Row) (k : W32), readV s y.s1 = .ok x → src2W s y = .ok k →
    (k.toNat < 2048 / modeWidth y.ty → CompletesW (.vext y) y s
      ((elemTy y.ty).extend32 (elemAt (modeWidth y.ty) x k.toNat)))
    ∧ (2048 / modeWidth y.ty ≤ k.toNat → Issues (.vext y) s → Traps (.vext y) s 0x02 0 0))
  ∧ (∀ (y : Syl) (s : State) (v k : W32) (old : Row), readW s y.s1 = .ok v → src2W s y = .ok k → Issues (.vins y) s →
    (2048 / modeWidth y.ty ≤ k.toNat → Traps (.vins y) s 0x02 0 0)
    ∧ (k.toNat < 2048 / modeWidth y.ty → readRowKey s (s.vKey y.d) = .ok old → freeV s y →
      ∃ r, Completes (.vins y) s (doneV s y r) ∧ ∀ j, j < 2048 / modeWidth y.ty → elemAt (modeWidth y.ty) r j
        = if j = k.toNat then v.toNat % 2 ^ modeWidth y.ty else elemAt (modeWidth y.ty) old j))
  ∧ (∀ (y : Syl) (s : State) (z : Row), Issues (.vmov y) s → src2V s y (modeWidth y.ty) = .ok z → freeV s y →
    Completes (.vmov y) s (doneV s y z))

/-! ### The product-polynomial accumulator -/

namespace Sys2Proof.Machine

/-- The instruction appends an operation to the accumulator of D, with what it captures, and stalls while that queue
is full (R233). -/
def Appends (i : Instr) (y : Syl) (s : State) (kind : PpKind) (mode : BitVec 3) : Prop :=
  ((s.myCore.acc y.d.toNat).ops.length < 4 → Completes i s ((Done.plain (fun t =>
    let x := t.myCore.acc y.d.toNat
    t.setMyCore (t.myCore.setAcc y.d.toNat { x with
      ops := x.ops ++ [⟨kind, mode, s.me.ftz, s.me.srkey, s.me.srctr⟩] }))).counted mode))
  ∧ (4 ≤ (s.myCore.acc y.d.toNat).ops.length → Stalls i s)

end Sys2Proof.Machine

/-- R233, R241 to R249: the instructions of the PPA. -/
def Obligations.AccumulatorInstructions : Prop :=
  (∀ (y : Syl) (s : State) (v : W32), src2W s y = .ok v →
    (Issues (.ppset y) s → Appends (.ppset y) y s (.const v) 0)
    ∧ (Issues (.ppscl y) s → Appends (.ppscl y) y s (.scale v) 0)
    ∧ (Issues (.ppdeg y) s → (63 < v.toNat → Traps (.ppdeg y) s 0x02 0 0)
      ∧ (v.toNat ≤ 63 → Appends (.ppdeg y) y s (.degree (v.setWidth 6)) 0))
    ∧ ∀ a : W32, readW s y.s1 = .ok a →
      (Issues (.ppmul y) s → Appends (.ppmul y) y s (.factors [(0, a.toNat, v.toNat)]) (s.modeOf y.rm))
      ∧ (Issues (.ppdiv y) s → Appends (.ppdiv y) y s (.remove a.toNat v.toNat) (s.modeOf y.rm)))
  ∧ (∀ (y : Syl) (s : State) (a b : Row) (m : MaskReg), Issues (.ppmulv y) s → readV s y.s1 = .ok a →
    src2V s y (if y.ty = 0 then 32 else 16) = .ok b → readM s y.s3 = .ok m →
    Appends (.ppmulv y) y s (.factors (((List.range (2048 / (if y.ty = 0 then 32 else 16))).filter
      (laneOn (if y.ty = 0 then 32 else 16) m)).map (fun j => if y.ty = 0 then (j, elemAt 32 a j, elemAt 32 b j)
        else (j, elemAt 16 a j * 2 ^ 16, elemAt 16 b j * 2 ^ 16)))) (s.modeOf y.rm))
  ∧ (∀ (y : Syl) (s : State), Issues (.ppmrg y) s →
    ((s.myCore.acc (fieldNo y.s1)).ops ≠ [] → Stalls (.ppmrg y) s)
    ∧ ((s.myCore.acc (fieldNo y.s1)).ops = [] →
      Appends (.ppmrg y) y s (.merge (BitVec.ofNat 3 (fieldNo y.s1))) (s.modeOf y.rm)))
  ∧ (∀ (y : Syl) (s : State) (row : Row) (scl st : W32), Issues (.ppwr y) s → readV s y.s1 = .ok row →
    src2W s y = .ok scl → readW s y.s3 = .ok st →
    (st.toNat / 64 % 4 ≠ 0 ∨ 2 ^ 12 ≤ st.toNat → Traps (.ppwr y) s 0x02 0 0)
    ∧ (st.toNat / 64 % 4 = 0 → st.toNat < 2 ^ 12 → Appends (.ppwr y) y s (.load row scl st) 0))
  ∧ (∀ (y : Syl) (s : State), let x := s.myCore.acc (fieldNo y.s1)
    (x.ops ≠ [] → ∀ i ∈ [Instr.pprd y, .pprdx y, .pprdst y], Issues i s → Stalls i s)
    ∧ (x.ops = [] → x.psn = true → ∀ i ∈ [Instr.pprd y, .pprdx y], Issues i s →
        Traps i s 0x19 0 (BitVec.ofNat 64 (fieldNo y.s1)))
    ∧ (x.ops = [] → CompletesW (.pprdst y) y s x.status)
    ∧ (x.ops = [] → x.psn = false → CompletesW (.pprdx y) y s x.scl)
    ∧ (x.ops = [] → x.psn = false → Issues (.pprd y) s → freeV s y → ∃ r, Completes (.pprd y) s (doneV s y r)
      ∧ ∀ k, k < 64 → elemAt 32 r k = if k ≤ x.deg.toNat then (Table.get 0 x.c k).toNat else 0))

/-! ### The accumulators of the PPA, and the engines -/

namespace Sys2Proof.Machine

/-- The head of accumulator n's queue is o, and no merge of another queue still has to read the accumulator (R233,
R246). -/
def PpNext (s : State) (u : UnitNo) (n : Nat) (o : PpOp) (rest : List PpOp) : Prop :=
  ((s.core u).acc n).ops = o :: rest ∧ (s.core u).mergePending n = false

/-- The event leaves the accumulator as x with these operations, and nothing else of the state changes. -/
def PpApplies (i : Instr) (s : State) (u : UnitNo) (n : Nat) (x : PpAcc) (ops : List PpOp) : Prop :=
  exec i s = .next (s.setCore u ((s.core u).setAcc n { x with ops := ops }))

/-- A command whose entry brings a status completes with it and does nothing else. -/
def PreStatusEnds (i : QRef → Cmd → Instr) (op : Nat) : Prop :=
  ∀ (q : QRef) (c : Cmd) (s : State) (e : QEntry) (st : BitVec 8), Takes q op c s e → preOf q op c s e = some st →
    StartsAt (i q c) s q op e (s.turned q op c) (CmdOut.plain st 0)

/-- A matrix step of K products, or 2K in sparse form (R207, R208, R210, R211). -/
def MatrixStep (i : QRef → Cmd → Instr) (op : Nat) (sparse : Bool) : Prop :=
  ∀ (q : QRef) (c : Cmd) (s : State) (e : QEntry), Takes q op c s e →
    let core := s.core q.unit
    let a := core.slotA (rpA core)
    let b (k : Nat) : FSlot := core.slotB (rpB core + k)
    let tile := field c.pay 2 0
    ∃ out, StartsAt (i q c) s q op e (s.turned q op c) out
      ∧ out.release = some (if bit c.pay 3 then 0 else if sparse then 2 else 1)
      ∧ out.status = (preOf q op c s e).getD (stepStatus c core sparse)
      ∧ (out.status ≠ stOk → out.rows = [])
      ∧ (out.status = stOk → ∀ r j, r < 64 → j < 64 → ∃ row, (rowKey tile r, BitVec.allOnes 256, row) ∈ out.rows
        ∧ elemAt 32 row j = f32.roundTo (mkMode c.rm e.key e.ctr.toNat (r * 64 + j)) false c.ftz
            (exactSum
              (List.zipWith FV.mul (if sparse then a.expanded r else a.line r)
                (if sparse then (b 0).line j ++ (b 1).line j else (b 0).line j))
              (if bit c.pay 7 then .fin false 0 0 else f32.decode (elemAt 32 (core.row (rowKey tile r)) j))) % 2 ^ 32)

/-- A command that memory makes fail ends with the failure, or, where something holds its accesses back or it waits for
bytes of another module, does not start. -/
def FailsOrWaits (i : Instr) (s : State) (q : QRef) (op : Nat) (e : QEntry) (x : CmdErr) (t : State) (out : CmdOut) : Prop :=
  (x.status ≠ stWait → StartsAt i s q op e t out) ∧ (x.status = stWait → WaitsAt i s q t)

/-- The ranges of a window of a tensor: its rows, and for MXFP4 the scale bytes of the same rows. -/
def Window.reach (w : Window) (t : Tens) : List (W64 × Nat) :=
  t.ranges w.row0 w.nr w.col0 w.nc ++ t.scaleRanges w.row0 w.nr w.col0 w.nc

/-- Segments of row r of the window, and of its scale bytes. -/
def Window.rowSegs (_ : Window) (segs : List (List Seg)) (r : Nat) : List Seg := (segs[r]?).getD []
def Window.scaleSegs (w : Window) (t : Tens) (segs : List (List Seg)) (r : Nat) : List Seg :=
  if t.fmt = 5 then (segs[w.nr + r]?).getD [] else []

/-- Element (r, k) of the window as MLOAD converts it (R216). -/
def loadedElem (w : Window) (t : Tens) (c : Cmd) (e : QEntry) (s : State) (u : UnitNo) (segs : List (List Seg)) (r k : Nat) : Nat :=
  vconv w.tty (mkMode c.rm e.key e.ctr.toNat ((w.trow0 + r) * 64 + w.tcol0 + k)) c.sat c.ftz
    (tensorVal t (s.engNat u (w.rowSegs segs r) / 2 ^ (t.width * k) % 2 ^ t.width)
      (if t.fmt = 5 then s.engNat u (w.scaleSegs t segs r) / 2 ^ (8 * (k / 32)) % 256 else 0)) % 2 ^ w.width

/-- Tile row r of the window as MLOAD writes it. -/
def LoadedRow (w : Window) (t : Tens) (c : Cmd) (e : QEntry) (s : State) (u : UnitNo) (segs : List (List Seg)) (r : Nat)
    (x : Nat × MaskReg × Row) : Prop :=
  x.1 = rowKey w.tile (w.trow0 + r) ∧ x.2.1 = w.mask
    ∧ ∀ k, k < w.nc → elemAt w.width x.2.2 (w.tcol0 + k) = loadedElem w t c e s u segs r k

/-- The number n holds tensor row r as MDRAIN converts it, and m its scale bytes: an element each, or a block of 32 for
an MXFP4 tensor (R216, R22). -/
def DrainedRow (w : Window) (t : Tens) (c : Cmd) (e : QEntry) (core : Core) (r n m : Nat) : Prop :=
  let mode := fun k => mkMode c.rm e.key e.ctr.toNat ((w.trow0 + r) * 64 + w.tcol0 + k)
  (t.fmt ≠ 5 → ∀ k v, (w.vals core r)[k]? = some v →
    n / 2 ^ (t.width * k) % 2 ^ t.width = vconv t.fmt (mode k) c.sat c.ftz (scaleDown t.tsc v) % 2 ^ t.width)
  ∧ (t.fmt = 5 → ∀ b, b < w.nc / 32 →
    let blk := mxBlock (fun k => mode (32 * b + k)) c.sat c.ftz
      ((((w.vals core r).map (fun v => (scaleDown t.tsc v).fv)).drop (32 * b)).take 32)
    m / 2 ^ (8 * b) % 256 = blk.1 % 256 ∧ ∀ k, k < 32 → n / 2 ^ (4 * (32 * b + k)) % 16 = lane blk.2 k % 16)

/-- The conversion of a finite element overflows, saturates or wraps (R217). -/
def Overflows (fmt : Nat) (m : Mode) (v : Val) : Prop :=
  match v with
  | .flt x => x.isFinite = true ∧ (if isFloatCode fmt then ((fmtOf fmt).decode ((fmtOf fmt).roundTo m false false x)).isFinite = false
      else x.toInt (ityOf fmt) m ≠ roundedInt m x)
  | .int x => if isFloatCode fmt then ((fmtOf fmt).decode ((fmtOf fmt).roundTo m false false (FV.ofInt x))).isFinite = false
      else x < (ityOf fmt).min ∨ (ityOf fmt).max < x

end Sys2Proof.Machine

/-- R233, R236 to R238, R240, R242, R243, R247, R249, R250: the operation at the head of an accumulator's queue is applied;
a PPMULV has one factor applied at a time. Rescaling moves the whole
accumulator by 2^64 either way, at most once. -/
def Obligations.PpaOperationsApplyInQueueOrder : Prop :=
  (∀ (u : UnitNo) (pp : BitVec 3) (s : State) (o : PpOp) (rest : List PpOp), PpNext s u pp.toNat o rest →
    let x := (s.core u).acc pp.toNat
    (∀ j a b fs, o.kind = .factors ((j, a, b) :: fs) →
      PpApplies (.ppaApplyFactor u pp) s u pp.toNat
        (if x.psn then x else x.factor (fun k => mkMode o.mode o.key o.ctr.toNat (64 * j + k)) o.ftz a b)
        (if fs = [] then rest else { o with kind := .factors fs } :: rest))
    ∧ (∀ src, o.kind = .merge src → PpApplies (.ppaApplyMerge u pp) s u pp.toNat
        (if x.psn then x else if ((s.core u).acc src.toNat).psn then { x with psn := true }
          else x.merge ((s.core u).acc src.toNat) (fun k => mkMode o.mode o.key o.ctr.toNat k) o.ftz) rest)
    ∧ (∀ a b, o.kind = .remove a b → PpApplies (.ppaApplyRemove u pp) s u pp.toNat
        (if x.psn then x else x.remove (fun k => mkMode o.mode o.key o.ctr.toNat k) o.ftz a b) rest)
    ∧ (∀ v, o.kind = .const v → PpApplies (.ppaApplySet u pp) s u pp.toNat (x.setConst v) rest)
    ∧ (∀ n, o.kind = .degree n → PpApplies (.ppaApplySet u pp) s u pp.toNat (if x.psn then x else x.setDegree n) rest)
    ∧ (∀ k, o.kind = .scale k → PpApplies (.ppaApplySet u pp) s u pp.toNat (if x.psn then x else x.addScl k.toInt) rest)
    ∧ ∀ row scl st, o.kind = .load row scl st → PpApplies (.ppaApplySet u pp) s u pp.toNat (x.load row scl st) rest)
  ∧ (∀ (x : PpAcc) (mode : Nat → Mode) (ftz : Bool) (a b : Nat), ∃ y : PpAcc, x.factor mode ftz a b = y.rescale ftz
    ∧ y.deg = x.deg ∧ y.scl = x.scl ∧ y.trunc = (x.trunc || !((f32.decode b).mul (x.val x.deg.toNat)).isZero)
    ∧ ∀ k, k ≤ x.deg.toNat → (y.coef k).toNat = f32.roundTo (mode k) false ftz
        (exactSum [(f32.decode a).mul (x.val k)] ((f32.decode b).mul (if k = 0 then .fin false 0 0 else x.val (k - 1)))) % 2 ^ 32)
  ∧ (∀ (x p : PpAcc) (mode : Nat → Mode) (ftz : Bool), ∃ y : PpAcc, x.merge p mode ftz = (y.addScl p.scl.toInt).rescale ftz
    ∧ y.deg = x.deg ∧ y.scl = x.scl
    ∧ ∀ k, k ≤ x.deg.toNat → (y.coef k).toNat = f32.roundTo (mode k) false ftz
        (exactSum ((List.range (k + 1)).map (fun i => (x.val i).mul (p.val (k - i)))) (.fin false 0 0)) % 2 ^ 32)
  ∧ (∀ (x : PpAcc) (mode : Nat → Mode) (ftz : Bool) (a b : Nat),
    ((f32.decode a).isFinite = false ∨ (f32.decode b).isFinite = false
        ∨ (∃ k, k ≤ x.deg.toNat ∧ (x.val k).isFinite = false)
        ∨ ((f32.decode a).isZero = true ∧ (f32.decode b).isZero = true)
        ∨ (a % 2 ^ 31 < b % 2 ^ 31 ∧ x.trunc = true)) → x.remove mode ftz a b = { x with unstable := true })
  ∧ (∀ (x : PpAcc) (v : W32), (x.setConst v).scl = 0 ∧ (x.setConst v).deg = x.deg ∧ (x.setConst v).psn = false
    ∧ (x.setConst v).trunc = false ∧ (x.setConst v).coef 0 = (if (f32.decode v.toNat).isNan then 0x7FC00000 else v)
    ∧ ∀ k, 0 < k → (x.setConst v).coef k = 0)
  ∧ (∀ (x : PpAcc) (n : BitVec 6), (x.setDegree n).deg = n
    ∧ ∀ k, (x.setDegree n).coef k = if k ≤ n.toNat then x.coef k else 0)
  ∧ (∀ (x : PpAcc) (row : Row) (scl st : W32), (x.load row scl st).scl = scl ∧ (x.load row scl st).deg = st.setWidth 6
    ∧ (x.load row scl st).psn = false
    ∧ ∀ k, k ≤ field st 5 0 → ((x.load row scl st).coef k).toNat = elemAt 32 row k)
  ∧ (
    ∀ (x : PpAcc) (ftz : Bool),
      let big := ∃ k, k ≤ x.deg.toNat ∧ magBelow (x.val k) 64 = false
      let small := (∀ k, k ≤ x.deg.toNat → magBelow (x.val k) (-64) = true)
        ∧ ∃ k, k ≤ x.deg.toNat ∧ (x.val k).isNan = false ∧ (x.val k).isZero = false
      (big → (∀ k, k ≤ x.deg.toNat → ((x.rescale ftz).coef k).toNat
          = f32.roundTo .rne false ftz ((x.val k).scale (-64)) % 2 ^ 32)
        ∧ (x.scl.toInt + 64 < 2 ^ 31 → (x.rescale ftz).scl.toInt = x.scl.toInt + 64))
      ∧ (¬big → small → (∀ k, k ≤ x.deg.toNat → ((x.rescale ftz).coef k).toNat
          = f32.roundTo .rne false ftz ((x.val k).scale 64) % 2 ^ 32)
        ∧ (-(2 ^ 31) ≤ x.scl.toInt - 64 → (x.rescale ftz).scl.toInt = x.scl.toInt - 64))
      ∧ (¬big → ¬small → x.rescale ftz = x)
  )

/-- R210 to R217: the matrix commands at their start; each completes with the outcome it starts with
(CommandsComplete). A poisoned MLOAD or MDRAIN writes rows that no poison touches, and no others; which of them is free.
That a command reads at its start and writes at its completion, and which rows a failing one writes, are the model's
choices (log entries 7, 50, 54 and 81). -/
def Obligations.MatrixCommandsRun : Prop :=
  MatrixStep .mma 0x01 false ∧ MatrixStep .mmas 0x02 true
  ∧ (∀ (c : Cmd) (core : Core) (sparse : Bool), stepStatus c core sparse = stOk ↔
    c.sat = false ∧ bit c.pay 6 = false ∧ field c.pay 127 8 = 0 ∧ (core.slotA (rpA core)).state ≠ .failed
    ∧ (core.slotA (rpA core)).bad = false ∧ (core.slotA (rpA core)).spr = sparse
    ∧ (∀ k, k < (if sparse then 2 else 1) → (core.slotB (rpB core + k)).state ≠ .failed
      ∧ (core.slotB (rpB core + k)).bad = false
      ∧ slotClass (core.slotB (rpB core + k)).fmt = slotClass (core.slotA (rpA core)).fmt)
    ∧ (bit c.pay 7 = false → ∀ r, r < 64 → core.rowBad (rowKey (field c.pay 2 0) r) = false)
    ∧ (sparse = true → slotClass (core.slotA (rpA core)).fmt ≠ 2 ∧ (core.slotA (rpA core)).sparseOk = true))
  ∧ PreStatusEnds .mzero 0x03 ∧ PreStatusEnds .mload 0x04
  ∧ (∀ (q : QRef) (c : Cmd) (s : State) (e : QEntry), Takes q 0x03 c s e → preOf q 0x03 c s e = none →
    ((field c.pay 31 3 ≠ 0 ∨ field c.pay 127 64 ≠ 0) →
      StartsAt (.mzero q c) s q 0x03 e (s.turned q 0x03 c) (CmdOut.plain stBadField 0))
    ∧ (field c.pay 31 3 = 0 → field c.pay 127 64 = 0 → ∃ out, StartsAt (.mzero q c) s q 0x03 e (s.turned q 0x03 c) out
      ∧ out.status = stOk ∧ out.cells = [] ∧ ∀ r, r < 64 → ∃ row,
        (rowKey (field c.pay 2 0) r, BitVec.allOnes 256, row) ∈ out.rows ∧ ∀ j, j < 64 → elemAt 32 row j = field c.pay 63 32))
  ∧ (∀ (q : QRef) (c : Cmd) (s : State) (e : QEntry), Takes q 0x04 c s e → preOf q 0x04 c s e = none →
    let w := windowOf c
    let t := (s.core q.unit).tens w.tid
    let st := windowStatus (s.core q.unit) w c true
    let s0 := s.turned q 0x04 c
    let who := s0.cmdWho (ctxOf q 0x04 c s e)
    (st ≠ stOk → StartsAt (.mload q c) s q 0x04 e s0 (CmdOut.plain st 0))
    ∧ (st = stOk →
      (∀ x s1, s0.touchAll who (!t.glob) .read (w.reach t) = (.error x, s1) →
        FailsOrWaits (.mload q c) s q 0x04 e x s1 (CmdOut.failed x))
      ∧ ∀ segs s1, s0.touchAll who (!t.glob) .read (w.reach t) = (.ok segs, s1) →
        let bad := fun r => s1.engPoison (keysOfSegs (w.rowSegs segs r ++ w.scaleSegs t segs r))
        ∃ out, StartsAt (.mload q c) s q 0x04 e s1 out ∧ out.cells = [] ∧ out.drain = none
          ∧ (∀ x ∈ out.rows, ∃ r, r < w.nr ∧ bad r = false ∧ LoadedRow w t c e s1 q.unit segs r x)
          ∧ ((∃ r, r < w.nr ∧ bad r = true) → out.status = stPoisoned)
          ∧ ((∀ r, r < w.nr → bad r = false) → out.status = stOk
            ∧ ∀ r, r < w.nr → ∃ x ∈ out.rows, LoadedRow w t c e s1 q.unit segs r x)))
  ∧ (∀ (q : QRef) (c : Cmd) (s : State) (e : QEntry), Takes q 0x05 c s e →
    let core := s.core q.unit
    let w := windowOf c
    let t := core.tens w.tid
    let st := (preOf q 0x05 c s e).getD (windowStatus core w c false)
    let s0 := s.turned q 0x05 c
    let who := s0.cmdWho (ctxOf q 0x05 c s e)
    let fails := fun (o : CmdOut) => { o with drain := some (w.tile, false, false) }
    (st ≠ stOk → StartsAt (.mdrain q c) s q 0x05 e s0 (fails (CmdOut.plain st 0)))
    ∧ (st = stOk →
      (∀ x s1, s0.touchAll who (!t.glob) .write (w.reach t) = (.error x, s1) →
        FailsOrWaits (.mdrain q c) s q 0x05 e x s1 (fails (CmdOut.failed x)))
      ∧ ∀ segs s1, s0.touchAll who (!t.glob) .write (w.reach t) = (.ok segs, s1) →
        ∃ out, StartsAt (.mdrain q c) s q 0x05 e s1 out ∧ ∃ n m : Nat → Nat, (∀ r, r < w.nr → DrainedRow w t c e core r (n r) (m r))
          ∧ (let cells := fun r => segCells (w.rowSegs segs r) (n r) ++ segCells (w.scaleSegs t segs r) (m r)
            ((∃ r, r < w.nr ∧ w.rowBad core r = true) → out.status = stPoisoned ∧ out.rows = []
              ∧ out.drain = some (w.tile, false, false)
              ∧ ∀ cell ∈ out.cells, ∃ r, r < w.nr ∧ w.rowBad core r = false ∧ cell ∈ cells r)
            ∧ ((∀ r, r < w.nr → w.rowBad core r = false) → out.status = stOk
              ∧ (∀ cell, cell ∈ out.cells ↔ ∃ r, r < w.nr ∧ cell ∈ cells r)
              ∧ (∃ nan ovf, out.drain = some (w.tile, nan, ovf)
                ∧ (nan = true ↔ ∃ r, r < w.nr ∧ ∃ v ∈ w.vals core r, v.isNan = true)
                ∧ (ovf = true ↔ t.fmt ≠ 5 ∧ ∃ r, r < w.nr ∧ ∃ k v, (w.vals core r)[k]? = some v
                  ∧ Overflows t.fmt (mkMode c.rm e.key e.ctr.toNat ((w.trow0 + r) * 64 + w.tcol0 + k)) (scaleDown t.tsc v)))
              ∧ (w.dz = false → out.rows = [])
              ∧ (w.dz = true → ∀ r, r < w.nr → ∃ row, (rowKey w.tile (w.trow0 + r), w.mask, row) ∈ out.rows
                ∧ ∀ k, k < w.nc → elemAt w.width row (w.tcol0 + k) = 0)))))

/-! ### The copy and gather engines, and completion -/

namespace Sys2Proof.Machine

/-- FEED and FEEDM: the stream tests come first, and a feed that passes them takes its slots (R219, R220). -/
def FeedStarts (i : QRef → Cmd → Instr) (op : Nat) (feedm : Bool) : Prop :=
  ∀ (q : QRef) (c : Cmd) (s : State) (e : QEntry), Takes q op c s e →
    let a := feedArgs c
    let core := s.core q.unit
    let pre := preOf q op c s e
    let s0 := s.turned q op c
    let stale := 2 ^ 31 ≤ (a.pos + 2 ^ 32 - (if a.fb then rpB core else rpA core)) % 2 ^ 32
    let busy := ∃ k ∈ a.slots, (core.fifo a.fb k).state ≠ .empty
    let st := pre.getD (feedStatus core a c feedm)
    let takenAs (y : SlotState) : State := s0.setCore q.unit ((s0.core q.unit).setFifos a.fb
      ((List.range a.ns).map (fun k => ((a.pos + k) % 4, feedSlot (core.tens a.tid) a k y 0 0))))
    (stale → StartsAt (i q c) s q op e s0 (CmdOut.plain (if pre = some stSkipped then stSkipped else stStreamStale) 0))
    ∧ (¬stale → busy → StartsAt (i q c) s q op e s0
        (CmdOut.plain (if pre = some stSkipped then stSkipped else stStreamDup) 0))
    ∧ (¬stale → ¬busy → st ≠ stOk → StartsAt (i q c) s q op e (takenAs .failed) (CmdOut.plain st 0))
    ∧ (¬stale → ¬busy → st = stOk → ∀ out s1, (takenAs .filling).feedFill (ctxOf q op c s e) a = (out, s1) →
        (out.status ≠ stWait → StartsAt (i q c) s q op e s1 out) ∧ (out.status = stWait → WaitsAt (i q c) s q s1))

/-- GATHER and SCATTER: the checks in the model's order (log entries 94 and 95), then element by element (R224, R225). -/
def GatherStarts (i : QRef → Cmd → Instr) (op : Nat) (scatter : Bool) : Prop :=
  PreStatusEnds i op
  ∧ ∀ (q : QRef) (c : Cmd) (s : State) (e : QEntry), Takes q op c s e → preOf q op c s e = none →
    let a := gaArgs c
    let s0 := s.turned q op c
    let who := s0.cmdWho (ctxOf q op c s e)
    let ends (t : State) (st : BitVec 8) (ea : W64) := StartsAt (i q c) s q op e t (CmdOut.plain st ea)
    let fails (t : State) (x : CmdErr) := FailsOrWaits (i q c) s q op e x t (CmdOut.failed x)
    let reserved := field c.pay 63 58 ≠ 0 ∨ field c.pay 127 120 ≠ 0
    let skew := a.base % Nat.min a.size 32 ≠ 0 ∨ a.dl % Nat.min a.size 32 ≠ 0 ∨ a.idx % a.idxBytes ≠ 0
    let beyond := 2 ^ 21 < a.idx + a.n * a.idxBytes ∨ 2 ^ 21 < a.dl + a.n * a.size
    (reserved → ends s0 stBadField 0)
    ∧ (¬reserved → skew → ends s0 stCopyAlign 0)
    ∧ (¬reserved → ¬skew → beyond → ends s0 stSpadRange 0)
    ∧ (¬reserved → ¬skew → ¬beyond →
      (∀ x s1, s0.touch who true .read (BitVec.ofNat 64 a.idx) (a.n * a.idxBytes) = (.error x, s1) → fails s1 x)
      ∧ ∀ isegs s1, s0.touch who true .read (BitVec.ofNat 64 a.idx) (a.n * a.idxBytes) = (.ok isegs, s1) →
        let good := s1.goodIndices q.unit a [] a.n (keysOfSegs isegs)
        let far := a.bsp = true ∧ ∃ k ∈ good, 2 ^ 21 < a.base + (k + 1) * a.size
        (far → ends s1 stSpadRange 0)
        ∧ (¬far →
          (∀ x s2, s1.touch who true (if scatter then .read else .write) (BitVec.ofNat 64 a.dl) (a.n * a.size)
              = (.error x, s2) → fails s2 x)
          ∧ ∀ dsegs s2, s1.touch who true (if scatter then .read else .write) (BitVec.ofNat 64 a.dl) (a.n * a.size)
              = (.ok dsegs, s2) →
            (∀ x s3, s2.touchAll who a.bsp (if scatter then .write else .read) (good.map (fun k => (a.addr k, a.size)))
                = (.error x, s3) → fails s3 x)
            ∧ ∀ esegs s3, s2.touchAll who a.bsp (if scatter then .write else .read)
                (good.map (fun k => (a.addr k, a.size))) = (.ok esegs, s3) →
              ∃ out, StartsAt (i q c) s q op e s3 out
                ∧ (let moves := ((List.range good.length).zip esegs).map (fun (p : Nat × List Seg) =>
                    let here := ((keysOfSegs dsegs).drop (p.1 * a.size)).take a.size
                    if scatter then (keysOfSegs p.2, here) else (here, keysOfSegs p.2))
                  let r := s3.moveElems q.unit moves []
                  out.cells = r.2.reverse
                    ∧ out.status = if r.1 = true ∧ good.length = a.n then stOk else stPoisoned)))

end Sys2Proof.Machine

/-- R219 to R222: COPY, FEED and FEEDM at their start. R224 to R226, R334 to R337: GATHER, SCATTER, NOTIFY and SEND at
their start. That a command reads at its start and writes at its completion, which pieces a failing one has written, the
order of COPY's and GATHER's tests and of their translations are the model's choices (log entries 7, 54, 81, 93, 94, 95). -/
def Obligations.CopyFeedGatherAndNotifyCommandsRun : Prop :=
  (
    PreStatusEnds .copy 0x10
    ∧ (∀ (q : QRef) (c : Cmd) (s : State) (e : QEntry), Takes q 0x10 c s e → preOf q 0x10 c s e = none →
      let n := 32 * (64 * field c.pay 63 58 + field c.pay 127 122 + 1)
      let sa := field c.pay 56 0
      let da := field c.pay 120 64
      let ssp := bit c.pay 57
      let dsp := bit c.pay 121
      let s0 := s.turned q 0x10 c
      let who := s0.cmdWho (ctxOf q 0x10 c s e)
      let src := if ssp then BitVec.ofNat 64 sa else addr57 sa
      let dst := if dsp then BitVec.ofNat 64 da else addr57 da
      let ends (t : State) (st : BitVec 8) (ea : W64) := StartsAt (.copy q c) s q 0x10 e t (CmdOut.plain st ea)
      let fails (t : State) (x : CmdErr) := FailsOrWaits (.copy q c) s q 0x10 e x t (CmdOut.failed x)
      let beyond := (ssp = true ∧ 2 ^ 21 < sa + n) ∨ (dsp = true ∧ 2 ^ 21 < da + n)
      let skew := sa % 32 ≠ 0 ∨ da % 32 ≠ 0
      let meet := ssp = dsp ∧ sa < da + n ∧ da < sa + n
      (beyond → ends s0 stSpadRange 0)
      ∧ (¬beyond → skew → ends s0 stCopyAlign 0)
      ∧ (¬beyond → ¬skew → meet → ends s0 stOverlap 0)
      ∧ (¬beyond → ¬skew → ¬meet →
        (∀ x s1, s0.touch who ssp .read src n = (.error x, s1) → fails s1 x)
        ∧ ∀ from_ s1, s0.touch who ssp .read src n = (.ok from_, s1) →
          (∀ x s2, s1.touch who dsp .write dst n = (.error x, s2) → fails s2 x)
          ∧ ∀ into s2, s1.touch who dsp .write dst n = (.ok into, s2) →
            let all := List.zipWith (fun d k => (d, s2.engByte q.unit k)) (keysOfSegs into) (keysOfSegs from_)
            (s2.engPoison (keysOfSegs from_) = false → ∃ out, StartsAt (.copy q c) s q 0x10 e s2 out
              ∧ out.status = stOk ∧ out.cells = all)
            ∧ (s2.engPoison (keysOfSegs from_) = true → ∃ out, StartsAt (.copy q c) s q 0x10 e s2 out
              ∧ out.status = stPoisoned ∧ ∀ cell ∈ out.cells, cell ∈ all)))
    ∧ FeedStarts .feed 0x11 false ∧ FeedStarts .feedm 0x12 true
    ∧ (∀ (s : State) (x : CmdCtx) (a : FeedArgs),
      let t := (s.core x.unit).tens a.tid
      let m := (s.core x.unit).tens a.mtid
      let K := slotK (BitVec.ofNat 4 t.fmt)
      let n := a.ns * K
      let data := if a.tr then t.ranges a.row0 n a.col0 64 else t.ranges a.row0 64 a.col0 n
      let side := if a.spr then m.ranges a.row0 64 (a.col0 / 4) (n / 4) else t.scaleRanges a.row0 64 a.col0 n
      let failed (o : CmdOut) : CmdOut := { o with
        fills := (List.range a.ns).map (fun i => (a.fb, (a.pos + i) % 4, feedSlot t a i .failed 0 0)) }
      (∀ e s1, s.touchAll (s.cmdWho x) (!t.glob) .read data = (.error e, s1) → s.feedFill x a = (failed (CmdOut.failed e), s1))
      ∧ ∀ d s1, s.touchAll (s.cmdWho x) (!t.glob) .read data = (.ok d, s1) →
        (∀ e s2, s1.touchAll (s.cmdWho x) (if a.spr then !m.glob else !t.glob) .read side = (.error e, s2) →
          s.feedFill x a = (failed (CmdOut.failed e), s2))
        ∧ ∀ g s2, s1.touchAll (s.cmdWho x) (if a.spr then !m.glob else !t.glob) .read side = (.ok g, s2) →
          ((∃ r ∈ d ++ g, s2.engPoison (keysOfSegs r) = true) → s.feedFill x a = (failed (CmdOut.plain stPoisoned 0), s2))
          ∧ ((∀ r ∈ d ++ g, s2.engPoison (keysOfSegs r) = false) → 2 ≤ t.fmt → t.fmt ≤ 5 →
            ∃ out, s.feedFill x a = (out, s2) ∧ out.status = stOk ∧ out.cells = []
              ∧ ∀ i, i < a.ns → ∃ f : FSlot, (a.fb, (a.pos + i) % 4, f) ∈ out.fills
                ∧ f.state = .full ∧ f.pos = BitVec.ofNat 32 (a.pos + i) ∧ f.spr = a.spr ∧ f.bad = false
                ∧ ∀ l k, l < 64 → k < K → f.data.toNat / 2 ^ (384 * l + t.width * k) % 2 ^ t.width
                  = (if a.tr then s2.engNat x.unit ((d[i * K + k]?).getD []) / 2 ^ (t.width * l)
                     else s2.engNat x.unit ((d[l]?).getD []) / 2 ^ (t.width * (i * K + k))) % 2 ^ t.width))
  ) ∧ (
    GatherStarts .gather 0x20 false ∧ GatherStarts .scatter 0x21 true
    ∧ (∀ (s : State) (u : UnitNo) (moves : List (List Nat × List Nat)),
      (∀ m ∈ moves, ∀ k ∈ m.2, s.engPoison [k] = false ∧ ∀ m' ∈ moves, k ∉ m'.1) →
      s.moveElems u moves []
        = (true, (moves.flatMap (fun m => List.zipWith (fun d k => (d, s.engByte u k)) m.1 m.2)).reverse))
    ∧ PreStatusEnds .notify 0x3F
    ∧ (∀ (q : QRef) (c : Cmd) (s : State) (e : QEntry), Takes q 0x3F c s e → preOf q 0x3F c s e = none →
      let flag := field c.pay 56 0
      let s0 := s.turned q 0x3F c
      let wrong := field c.pay 63 58 ≠ 0 ∨ flag % 8 ≠ 0 ∨ (bit c.pay 57 = false ∧ c.pay ≠ 0)
      (wrong → StartsAt (.notify q c) s q 0x3F e s0 (CmdOut.plain stBadField 0))
      ∧ (¬wrong → bit c.pay 57 = false → StartsAt (.notify q c) s q 0x3F e s0 (CmdOut.plain stOk 0))
      ∧ (¬wrong → bit c.pay 57 = true →
        (∀ x s1, s0.touch (s0.cmdWho (ctxOf q 0x3F c s e)) false .write (addr57 flag) 8 = (.error x, s1) →
          FailsOrWaits (.notify q c) s q 0x3F e x s1 (CmdOut.failed x))
        ∧ ∀ segs s1, s0.touch (s0.cmdWho (ctxOf q 0x3F c s e)) false .write (addr57 flag) 8 = (.ok segs, s1) →
          ∃ out, StartsAt (.notify q c) s q 0x3F e s1 out ∧ out.status = stOk
            ∧ out.cells = (keysOfSegs segs).zip (toBytes 8 (field c.pay 127 64))))
    ∧ (∀ (x : Queue) (e : QEntry) (b : Bool), e.failed = false → e.bad = false → preStatus x e 0x3F b = if b then some stBadChain else none)
    ∧ PreStatusEnds .send 0x13
    ∧ (∀ (q : QRef) (c : Cmd) (s : State) (e : QEntry), Takes q 0x13 c s e → preOf q 0x13 c s e = none →
      let src := field c.pay 20 0
      let n := 32 * (field c.pay 49 40 + 1)
      let da := field c.pay 120 64
      let dsp := bit c.pay 50
      let dsig := bit c.pay 30
      let circctx := (s.strand q.unit (BitVec.ofNat 3 (q.queue.toNat / 4))).circctx
      let h := field c.pay 39 32
      let hd := (s.seqOf (field circctx 2 0)).handle h
      let die := portDie hd.dport.toNat
      let dest := dieUnit die (field c.pay 52 51) (field c.pay 56 53)
      let s0 := s.turned q 0x13 c
      let who := s0.cmdWho (ctxOf q 0x13 c s e)
      let ends (t : State) (st : BitVec 8) (ea : W64) := StartsAt (.send q c) s q 0x13 e t (CmdOut.plain st ea)
      let reserved := bit c.pay 31 = true ∨ field c.pay 63 57 ≠ 0 ∨ field c.pay 127 121 ≠ 0 ∨ circctx.getLsbD 3 = true
      let skew := src % 32 ≠ 0 ∨ da % 32 ≠ 0
      let beyond := 2 ^ 21 < src + n ∨ (dsp = true ∧ 2 ^ 21 < da + n)
      let odd := 8 ≤ die ∧ (field c.pay 52 51 ≠ 0 ∨ (dsp = false ∧ dsig = true))
      let wrongEnd := portDie hd.sport.toNat ≠ dirDie q.unit ∨ ((dsp = true ∨ dsig = true) ∧ s0.unitPresent dest = false)
      let pages := piecesOf (addr57 da) n
      let walks := dsp = false ∧ ∃ p ∈ pages, s0.pieceWaits who p.1 = true
      let elsewhere := dsp = false ∧ s0.wrongHome who die (addr57 da) n = true
      (reserved → ends s0 stBadField 0)
      ∧ (¬reserved → skew → ends s0 stCopyAlign 0)
      ∧ (¬reserved → ¬skew → beyond → ends s0 stSpadRange 0)
      ∧ (¬reserved → ¬skew → ¬beyond → hd.state ≠ .live →
        ∃ t : State, exec (.send q c) s = .next (t.engineFault q.unit q.queue.toNat clsCircNotLive h e.num 0)
          ∧ ((t.core q.unit).queue q.queue.toNat).circHeld = true
          ∧ ((t.core q.unit).queue q.queue.toNat).fault = faultWord stCircNotLive 0x13 e.num
          ∧ ((t.core q.unit).queue q.queue.toNat).entries = ((s.core q.unit).queue q.queue.toNat).entries
          ∧ Table.has (t.core q.unit).eng (q.queue.toNat % 4) = false ∧ t.mem = s.mem)
      ∧ (¬reserved → ¬skew → ¬beyond → hd.state = .live →
        (odd → ends s0 stBadField 0)
        ∧ (¬odd → wrongEnd → ends s0 stWrongEnd 0)
        ∧ (¬odd → ¬wrongEnd → walks → WaitsAt (.send q c) s q s0)
        ∧ (¬odd → ¬wrongEnd → ¬walks → elsewhere → ends (s0.walkAll who pages) stWrongEnd 0)
        ∧ (¬odd → ¬wrongEnd → ¬walks → ¬elsewhere → ∀ into s1,
          (if dsp then (.ok [⟨spadKey dest da, n, false, BitVec.ofNat 64 da⟩], s0)
            else s0.touch who false .write (addr57 da) n) = ((.ok into : Except CmdErr (List Seg)), s1) →
          ∀ from_ s2, s1.touch who true .read (BitVec.ofNat 64 src) n = (.ok from_, s2) →
          s2.engPoison (keysOfSegs from_) = false →
          ∃ out, StartsAt (.send q c) s q 0x13 e s2 out ∧ out.status = stOk
            ∧ out.cells = List.zipWith (fun d k => (d, s2.engByte q.unit k)) (keysOfSegs into) (keysOfSegs from_)
            ∧ out.circ = some (field circctx 2 0, h, hd.gen.toNat)
            ∧ out.signal = if dsig then some (dest, field c.pay 29 21) else none)))
  )


/-- R162, R165, R207, R212, R217: what the completion of a command does, after its writes: tile rows and slots take their
contents, the entry leaves the queue, TL is its number and the arrival that RSK raises is made; a failure writes FAULT
and routes one fault, with the translation fault word of an XLATE-FAULT (R294; where the queue and the
routed record keep it is the model's choice, log entry 82). Nothing of a completion happens while its queue is frozen, its
writes are held or the egress queues have no room; bytes of a lost die are not written and the command is POISONED (R284),
and bytes beyond a pinned storage that has shrunk make it an XLATE-FAULT (R252). An open chain whose next command is late
leaves the engine to the other queues. That a completion writes what the start read, that an arrival may have been made
early, that a frozen queue keeps its engine and that a completion waits for room are the model's choices (log entries 7,
102 and 22); the repeats that a SEND counts at its completion are Config.resends (log entry 88). -/
def Obligations.CommandsComplete : Prop :=
  (∀ (q : QRef) (s : State) (e : QEntry) (rest : List QEntry) (r : EngRun) (o : CmdOut),
    let n := q.queue.toNat
    ((s.core q.unit).queue n).entries = e :: rest → ((s.core q.unit).queue n).frozen = false →
    (s.core q.unit).eng.find? (fun (p : Nat × EngRun) => p.2.queue == n) = some (n % 4, r) → r.queue = n → r.out = some o →
    s.completionWaits q.unit o = false → s.outFull q.unit (BitVec.ofNat 3 (n / 4)) o = false → s.lostCheck o = o →
    (∀ cell ∈ o.cells, s.homeLost cell.1 = false ∧ s.pinGone cell.1 = false) →
    let s1 := s.commandWrites q.unit (BitVec.ofNat 3 (n / 4)) o
    let s2 := s1.setCore q.unit ((s1.core q.unit).applyOut o)
    let s3 := if o.circ.isSome then (s2.commandFault q.unit r o).countResends else s2.commandFault q.unit r o
    let s4 := s3.setCore q.unit ((s3.core q.unit).retire r (o.status == stOk))
    exec (.commandComplete q) s = .next { (if (parseCmd e.word).rsk = 1 ∧ r.rung = false then s4.arrive q.unit (parseCmd e.word).rsb.toNat 1 else s4)
      with tick := s4.tick + 1 })
  ∧ (∀ s : State, s.countResends.optics.resent.toNat = Nat.min (s.optics.resent.toNat + Config.resends s.tick) 0xFFFF
    ∧ s.countResends.mem = s.mem ∧ s.countResends.units = s.units ∧ s.countResends.strands = s.strands)
  ∧ (∀ (q : QRef) (s : State) (r : EngRun) (o : CmdOut),
    (s.core q.unit).eng.find? (fun (p : Nat × EngRun) => p.2.queue == q.queue.toNat) = some (q.queue.toNat % 4, r) → r.out = some o →
    (((s.core q.unit).queue q.queue.toNat).frozen = true ∨ s.completionWaits q.unit o = true
      ∨ s.outFull q.unit (BitVec.ofNat 3 (q.queue.toNat / 4)) o = true) →
    exec (.commandComplete q) s = .next s)
  ∧ (∀ (s : State) (o : CmdOut), (∃ cell ∈ o.cells, s.homeLost cell.1 = true) →
    (s.dieCheck o).status ≠ stOk ∧ (o.status = stOk → (s.dieCheck o).status = stPoisoned) ∧ (s.dieCheck o).signal = none
    ∧ ∀ cell, cell ∈ (s.dieCheck o).cells ↔ cell ∈ o.cells ∧ s.homeLost cell.1 = false)
  ∧ (∀ (s : State) (u : UnitNo) (e : QEntry) (o : CmdOut), (∃ cell ∈ o.cells, s.pinGone cell.1 = true) →
    (s.pinCheck u e o).status ≠ stOk ∧ (o.status = stOk → (s.pinCheck u e o).status = stXlateFault)
    ∧ (s.pinCheck u e o).signal = none ∧ ∀ cell, cell ∈ (s.pinCheck u e o).cells ↔ cell ∈ o.cells ∧ s.pinGone cell.1 = false)
  ∧ (∀ (s : State) (u : UnitNo) (r : EngRun) (o : CmdOut),
    ((o.status = stOk ∨ o.status = stSkipped) → s.commandFault u r o = s)
    ∧ (o.status ≠ stOk → o.status ≠ stSkipped →
      ∃ t : State, s.commandFault u r o = t.engineFault u r.queue (if o.status = stCircLost then clsCircLost else clsEngine)
          (if o.status = stCircLost then (o.circ.map (fun p => p.2.1)).getD 0 else o.status.toNat) r.num o.faddr
        ∧ ((t.core u).queue r.queue).fault = (if ((s.core u).queue r.queue).fault = 0
            then faultWord o.status r.op r.num else ((s.core u).queue r.queue).fault)
        ∧ (((s.core u).queue r.queue).fault = 0 → ((t.core u).queue r.queue).xword = o.xword)
        ∧ (o.status = stXlateFault → ∃ x : XRecord, (t.partOf (s.unitPart u)).xrecs = (s.partOf (s.unitPart u)).xrecs ++ [x]
          ∧ x.faddr = o.faddr ∧ x.word = o.xword)
        ∧ t.mem = s.mem ∧ t.strands = s.strands))
  ∧ (∀ (c : Core) (r : EngRun) (ok : Bool),
    ((c.retire r ok).queue r.queue).tl = r.num
    ∧ ((c.retire r ok).queue r.queue).head = (c.queue r.queue).head + 1
    ∧ ((c.retire r ok).queue r.queue).entries.map (·.num) = ((c.queue r.queue).entries.drop 1).map (·.num)
    ∧ ((c.retire r ok).queue r.queue).fault = (c.queue r.queue).fault
    ∧ Table.has (c.retire r ok).eng (r.queue % 4) = false
    ∧ ∀ p, p ≠ r.queue → ((c.retire r ok).queue p).tl = (c.queue p).tl
      ∧ ((c.retire r ok).queue p).entries.map (·.num) = (c.queue p).entries.map (·.num))
  ∧ (∀ (c : Core) (r : EngRun) (ok : Bool),
    ((c.retire r ok).queue r.queue).doneFault = (c.queue r.queue).fault ∧ (c.retire r ok).tlSeen r.queue = c.tlSeen r.queue)
  ∧ (∀ (c : Core) (o : CmdOut) (tile : Nat) (nan ovf : Bool), o.drain = some (tile, nan, ovf) → o.release = none → o.fills = [] →
    (c.applyOut o).statEv = c.statEv ++ [{ cc := c.cycle, tile := tile, nan := nan, ovf := ovf }])
  ∧ (∀ (c : Core) (o : CmdOut) (k : Nat), o.release = some k → k ≤ 2 → o.drain = none → o.fills = [] →
    rpA (c.applyOut o) = (rpA c + 1) % 2 ^ 32 ∧ rpB (c.applyOut o) = (rpB c + k) % 2 ^ 32
    ∧ ((c.applyOut o).slotA (rpA c)).state = .empty ∧ ∀ i, i < k → ((c.applyOut o).slotB (rpB c + i)).state = .empty)
  ∧ (∀ (c : Core) (o : CmdOut) (rows : List (Nat × Row)), o.rows = rows.map (fun p => (p.1, BitVec.allOnes 256, p.2)) →
    o.release = none → o.drain = none → o.fills = [] → (rows.map Prod.fst).Nodup →
    (∀ p ∈ rows, (c.applyOut o).row p.1 = p.2) ∧ ∀ k, k ∉ rows.map Prod.fst → (c.applyOut o).row k = c.row k)
  ∧ (∀ (q : QRef) (s : State), (s.core q.unit).chainLock = true → Table.get 0 (s.core q.unit).served 0 = q.queue.toNat →
    Table.has (s.core q.unit).eng 0 = false → 64 ≤ ((s.core q.unit).cycle - (s.core q.unit).chainAt).toNat →
    s.cmdReady q.unit q.queue.toNat = false →
    exec (.chainTimeout q) s = .next (s.setCore q.unit { s.core q.unit with chainLock := false }))

/-! ### Paired accumulate -/

namespace Sys2Proof.Machine

/-- A message of kind k, the oldest of its sender in the inbox of a unit that is not saved; s0 is the state without it. -/
def Delivers (s : State) (u : UnitNo) (k : PairKind) (m : PairMsg) (s0 : State) : Prop :=
  nextMsg k [] (s.core u).pair.inbox = some m ∧ (s.core u).pair.saved = false
    ∧ s0 = s.setPairUnit u.toNat { (s.core u).pair with inbox := (s.core u).pair.inbox.erase m }

/-- The unit's PACC is decided with outcome o. -/
def State.decided (s : State) (u : UnitNo) (o : CmdOut) : State := s.setCore u ((s.core u).decide o)

end Sys2Proof.Machine

/-- R263 to R266: a PACC sends its tile and is decided by the messages of its partner; both sides form the same sum. Which
messages an error brings about (FAULTED in place of DATA, FAULTED after DATA at a COMMIT with a poisoned buffer, a COMMIT
that stands although the side that sent it ends POISONED), for which queues a half is kept until FAULT is cleared, and that
a DATA waits while the buffer is full are the model's choices (log entry 53); so is the name of the partner and TAG in the
fault record (Config.pairName, log entry 19). -/
def Obligations.PairedAccumulate : Prop :=
  (∀ (q : QRef) (c : Cmd) (s : State) (e : QEntry), Takes q 0x06 c s e → preOf q 0x06 c s e = none → q.queue.toNat % 4 = 0 →
    let u := q.unit
    let v := paccPartner c
    let s0 := s.turned q 0x06 c
    let there := s.unitPresent v = true ∧ s.unitPart (BitVec.ofNat 10 v) = s.unitPart u
    let poisoned := ∃ r, r < 64 ∧ (s.core u).rowBad (rowKey (field c.pay 2 0) r) = true
    let held := (v, paccTag c) ∈ (s.core u).pair.heldAborts
    (paccBadField u c = true → StartsAt (.pacc q c) s q 0x06 e s0 (paccOut stBadField v (paccTag c)))
    ∧ (paccBadField u c = false → ¬there → StartsAt (.pacc q c) s q 0x06 e s0 (paccOut stPartnerFault v (paccTag c)))
    ∧ (paccBadField u c = false → there → poisoned → ¬held → StartsAt (.pacc q c) s q 0x06 e
        (s0.sendPair v (pairMsg .faulted u.toNat (paccTag c))) (paccOut stPoisoned v (paccTag c)))
    ∧ (paccBadField u c = false → there → ¬poisoned → ¬held → ∃ d : PairMsg,
      d.kind = .data ∧ d.src = u.toNat ∧ d.tag = paccTag c ∧ d.rm = c.rm ∧ d.ftz = c.ftz ∧ d.tty.toNat = field c.pay 7 4
      ∧ (∀ r, r < 64 → Table.get 0 d.rows r = (s.core u).row (rowKey (field c.pay 2 0) r))
      ∧ let t := (s0.setPairUnit u.toNat { (s0.core u).pair with
          pausedAt := if (s0.core (BitVec.ofNat 10 v)).pair.saved then some (s0.core u).cycle else none }).sendPair v d
        exec (.pacc q c) s = .next (State.decideLower { (t.setCore u { t.core u with
          eng := Table.set (t.core u).eng 0 ⟨q.queue.toNat, e.num, 0x06, (t.core u).cycle, none, some d, false, []⟩
          reach := none }).dropReqs (fun r => r.owner == some (u.toNat, queueMark q.queue.toNat)) with
          tick := t.tick + 1 } u)))
  ∧ (∀ (s : State) (u : UnitNo),
    ((s.core u).openPacc = none ∨ (s.core u).pair.buf = none → s.decideLower u = s)
    ∧ ∀ (r : EngRun) (cmd : Cmd) (own d : PairMsg), (s.core u).openPacc = some (r, cmd) → r.own = some own →
      (s.core u).pair.buf = some d →
      (lowerSide u.toNat (paccPartner cmd) = false → s.decideLower u = s)
      ∧ (d.src = paccPartner cmd → lowerSide u.toNat (paccPartner cmd) = true →
        (pairEqual own d = true → (s.core u).pair.bad = true → s.decideLower u
          = (s.decided u (paccOut stPoisoned d.src own.tag)).sendPair d.src (pairMsg .commit u.toNat own.tag))
        ∧ (pairEqual own d = true → (s.core u).pair.bad = false → ∃ c1, c1 = (s.core u).decide (paccSum own d true)
          ∧ s.decideLower u = (s.setCore u { c1 with pair := { c1.pair with buf := none } }).sendPair d.src
              (pairMsg .commit u.toNat own.tag))
        ∧ (pairEqual own d = false → s.decideLower u = (s.decided u (paccOut stPairMismatch d.src own.tag)).sendPair d.src
              (pairMsg .mismatch u.toNat own.tag))))
  ∧ (∀ (a b : PairMsg), pairEqual a b = true → (∀ i, i < 64 → ∃ row, (rowKey a.tile.toNat i, BitVec.allOnes 256, row)
        ∈ (paccSum a b true).rows ∧ (rowKey b.tile.toNat i, BitVec.allOnes 256, row) ∈ (paccSum b a false).rows
        ∧ ∀ j, j < 64 → elemAt 32 row j = (if a.tty = 8 then elemAt 32 (Table.get 0 a.rows i) j + elemAt 32 (Table.get 0 b.rows i) j
            else faddElem f32 (mkMode a.rm 0 0 0) a.ftz false (elemAt 32 (Table.get 0 a.rows i) j)
              (elemAt 32 (Table.get 0 b.rows i) j)) % 2 ^ 32))
  ∧ (∀ (c : Core) (r : EngRun) (cmd : Cmd) (o : CmdOut), c.openPacc = some (r, cmd) →
    (0, { r with out := some o }) ∈ (c.decide o).eng ∧ (c.decide o).queues = c.queues ∧ (c.decide o).rows = c.rows
    ∧ (c.decide o).pair = { c.pair with withdrawn := false })
  ∧ (∀ (c : Core) (r : EngRun) (ok : Bool), r.op = 0x06 →
    (c.retire r ok).pair = { c.pair with keptFor := if ok then [] else r.queue :: c.pair.keptFor })
  ∧ (∀ (c : Core) (q : Nat), ((c.clearFault q).queue q).fault = 0
    ∧ (q ∈ c.pair.keptFor → (c.clearFault q).pair = { c.pair with buf := none, bad := false, keptFor := [] })
    ∧ (q ∉ c.pair.keptFor → (c.clearFault q).pair = c.pair))
  ∧ (∀ (u : UnitNo) (s s0 : State) (m : PairMsg),
    (Delivers s u .data m s0 → lowerSide u.toNat m.src = true → m.tag ∈ (s.core u).pair.aborted →
      exec (.paccData u) s = .next s0)
    ∧ (Delivers s u .data m s0 → (lowerSide u.toNat m.src = false ∨ m.tag ∉ (s.core u).pair.aborted) →
      (s.core u).pair.buf = none → exec (.paccData u) s
        = .next (State.decideLower (s0.setPairUnit u.toNat { (s0.core u).pair with buf := some m, bad := false }) u))
    ∧ (∀ r cmd own d, (s.core u).openPacc = some (r, cmd) → paccPartner cmd = m.src → r.own = some own →
      (Delivers s u .commit m s0 → (s.core u).pair.buf = some d → d.src = m.src → (s.core u).pair.bad = false →
        ∃ c1, c1 = (s0.core u).decide (paccSum own d false)
          ∧ exec (.paccCommit u) s = .next (s0.setCore u { c1 with pair := { c1.pair with buf := none } }))
      ∧ (Delivers s u .commit m s0 → (s.core u).pair.buf = some d → d.src = m.src → (s.core u).pair.bad = true →
        exec (.paccCommit u) s = .next ((s0.decided u (paccOut stPoisoned m.src own.tag)).sendPair m.src
          (faultedAfter u.toNat own.tag)))
      ∧ (Delivers s u .mismatch m s0 → exec (.paccMismatch u) s = .next (s0.decided u (paccOut stPairMismatch m.src m.tag)))
      ∧ (Delivers s u .abort m s0 → own.tag = m.tag → ∃ t : State,
          t = s0.setCore u ({ s0.core u with pair := (s0.core u).pair.dropFrom m.src }.decide (paccOut stPartnerLate m.src m.tag))
          ∧ exec (.paccAbort u) s = .next (t.sendPair m.src (pairMsg .closed u.toNat m.tag)))
      ∧ (Delivers s u .faulted m s0 → (lowerSide u.toNat m.src = false ∨ m.after = false
            ∨ ∃ d, (s.core u).pair.buf = some d ∧ d.src = m.src) →
          exec (.paccFaulted u) s = .next (s0.decided u (paccOut stPartnerFault m.src m.tag))))
    ∧ (Delivers s u .faulted m s0 → lowerSide u.toNat m.src = true → (s.core u).openPacc = none →
        m.tag ∈ (s.core u).pair.aborted → exec (.paccFaulted u) s = .next s0)
    ∧ (Delivers s u .faulted m s0 → lowerSide u.toNat m.src = true → m.after = true →
        (∀ d, (s.core u).pair.buf = some d → d.src ≠ m.src) → exec (.paccFaulted u) s = .next s0)
    ∧ (Delivers s u .abort m s0 → (s.core u).openPacc = none → ∃ p : PairUnit, exec (.paccAbort u) s = .next (s0.setPairUnit u.toNat p)
        ∧ p.heldAborts = (m.src, m.tag) :: (s.core u).pair.heldAborts ∧ p.aborted = (s.core u).pair.aborted)
    ∧ (∀ d, Delivers s u .withdraw m s0 → (s.core u).pair.buf = some d → d.src = m.src → m.tag ∉ (s.core u).pair.aborted →
        ∃ p : PairUnit, exec (.paccWithdraw u) s = .next ((s0.setPairUnit u.toNat p).sendPair m.src (pairMsg .abort u.toNat m.tag))
          ∧ p.buf = none ∧ p.aborted = m.tag :: (s.core u).pair.aborted)
    ∧ (Delivers s u .closed m s0 → ∃ p : PairUnit, exec (.paccClosed u) s = .next (s0.setPairUnit u.toNat p)
        ∧ p.buf = (s.core u).pair.buf ∧ ∀ g, g ∈ p.aborted ↔ g ∈ (s.core u).pair.aborted ∧ g ≠ m.tag)
    ∧ (Delivers s u .parked m s0 → ((s.core (BitVec.ofNat 10 m.src)).pair.saved = false ∨ (s.core u).openWith m = none) →
        exec (.paccParked u) s = .next s0)
    ∧ (Delivers s u .parked m s0 → (s.core (BitVec.ofNat 10 m.src)).pair.saved = true → (s.core u).openWith m ≠ none → ∃ p : PairUnit, exec (.paccParked u) s = .next (s0.setPairUnit u.toNat p)
        ∧ p.pausedAt = some ((s.core u).pair.pausedAt.getD (s.core u).cycle) ∧ p.buf = (s.core u).pair.buf))
  ∧ (∀ (u : UnitNo) (s : State) (r : EngRun) (cmd : Cmd), (s.core u).openPacc = some (r, cmd) →
    (s.core u).pair.pausedAt = none → (s.core u).pair.saved = false →
    (s.cluster (unitCluster u)).pairto.toNat ≤ ((s.core u).cycle - r.cc).toNat →
    (lowerSide u.toNat (paccPartner cmd) = true → ∃ c : Core, c = (s.core u).decide (paccOut stPartnerLate (paccPartner cmd) (paccTag cmd))
      ∧ exec (.pairTimeoutLower u) s = .next ((s.setCore u { c with pair := { c.pair with
          aborted := paccTag cmd :: c.pair.aborted } }).sendPair (paccPartner cmd) (pairMsg .abort u.toNat (paccTag cmd))))
    ∧ (lowerSide u.toNat (paccPartner cmd) = false → (s.core u).pair.withdrawn = false →
      exec (.pairTimeoutHigher u) s = .next ((s.setPairUnit u.toNat { (s.core u).pair with withdrawn := true }).sendPair
        (paccPartner cmd) (pairMsg .withdraw u.toNat (paccTag cmd)))))

/-! ### Runs, queues and groups by themselves -/

namespace Sys2Proof.Machine

/-- Entry seq leaves both queues of the strand, and what markers then stand at the heads are passed. -/
def LoadHead (s : State) (u : UnitNo) (k : StrandNo) (seq : Nat) (g : LqKind) : Prop :=
  ∃ rest, (s.strand u k).lq = ⟨seq, g⟩ :: rest
def StoreHead (s : State) (u : UnitNo) (k : StrandNo) (seq : Nat) (g : SqKind) : Prop :=
  ∃ rest, (s.strand u k).sq = ⟨seq, g⟩ :: rest

/-- Bytes of this module that a read, or a write, through a space need not wait for: no held page, no change of a split,
and no local block being filled. -/
def ReadsNow (s : State) (u : UnitNo) (sp : Space) (keys : List Nat) : Prop :=
  ∀ a ∈ keys, isFar a = false ∧ s.readHeld a = false ∧ (sp = .loc → s.fillHolds u a = false)
def WritesNow (s : State) (u : UnitNo) (sp : Space) (keys : List Nat) : Prop :=
  ∀ a ∈ keys, isFar a = false ∧ s.writeHeld a = false ∧ (sp = .loc → s.fillHolds u a = false)

/-- Strand k is one of those among which the next run is chosen: READY, and of those that ended the core's idling if any is. -/
def MayRunNext (s : State) (u : UnitNo) (k : StrandNo) : Prop :=
  (s.strand u k).run = .ready
    ∧ (k.toNat ∈ (s.core u).woken ∨ ∀ j : StrandNo, (s.strand u j).run = .ready → j.toNat ∉ (s.core u).woken)

/-- A running strand writes v to register n (R138); not while it is about to enter a trap (the model's choice, log
entry 74). -/
def WritesCR (i : Instr) (u : UnitNo) (k : StrandNo) (n : Nat) (v : W64) : Prop :=
  ∀ s : State, (s.strand u k).run = .running → ((s.strand u k).entering ≠ none → exec i s = .next s) ∧
    ((s.strand u k).entering = none → (∀ f, writeCR (s.actAs u k) n v = .ok f → exec i s = .next (f (s.actAs u k)))
    ∧ ∀ c a j, writeCR (s.actAs u k) n v = .error (.trap c a j) → exec i s = .next ((s.actAs u k).trapHere c a j 2 0))

end Sys2Proof.Machine

/-- R71 to R73, R82, R122: the start and the end of a run, a wake, and a held trap. The model's choice (log entry 74): an
asynchronous trap is not taken before a bundle that REP of 0 passes over, trap entry waits as a state of the strand, and a
load that fails during that wait has its trap taken in its place. -/
def Obligations.RunsWakesAndHeldTraps : Prop :=
  (∀ (u : UnitNo) (s : State) (k : StrandNo), (s.core u).active = none → (s.core u).group = none →
    (s.core u).stoppedEngines = false → s.mayReach u (s.core u).runAt = true → MayRunNext s u k →
    (∀ j : StrandNo, MayRunNext s u j → (k - (s.core u).lastRun - 1).toNat ≤ (j - (s.core u).lastRun - 1).toNat) →
    (s.core u).cycle.toNat < 2 ^ 63 → (s.core u).gapEnd.toNat < 2 ^ 63 →
    ∃ t, exec (.runStart u) s = .next t ∧ (t.strand u k).run = .running ∧ (t.core u).active = some k ∧ (t.core u).woken = []
      ∧ (t.core u).cycle.toNat = max (s.core u).cycle.toNat ((s.core u).gapEnd.toNat + 2)
      ∧ (t.strand u k).runs = (if (s.strand u k).runs = BitVec.allOnes 32 then (s.strand u k).runs else (s.strand u k).runs + 1)
      ∧ (t.strand u k).pc = (s.strand u k).pc ∧ (t.strand u k).w = (s.strand u k).w ∧ t.mem = s.mem
      ∧ ∀ v j, strandKey v j ≠ strandKey u k → t.strand v j = s.strand v j)
  ∧ (∀ (u : UnitNo) (s : State) (k : StrandNo), (s.core u).active = some k → (s.core u).group = none →
    (512 ≤ (s.strand u k).runLen ∧ s.nextReadsLatch u k = false ∨ 544 ≤ (s.strand u k).runLen) →
    ∃ t, exec (.quantumEnd u) s = .next t ∧ (t.strand u k).run = .ready ∧ (t.core u).active = none
      ∧ (t.core u).lastRun = k ∧ (t.core u).gapEnd = (s.core u).cycle ∧ (t.strand u k).pc = (s.strand u k).pc
      ∧ (s.nextReadsLatch u k = false → (t.strand u k).lat = [])
      ∧ (s.nextReadsLatch u k = true → (t.strand u k).lat = (s.strand u k).lat) ∧ t.mem = s.mem)
  ∧ (∀ (u : UnitNo) (k : StrandNo) (s : State), (s.strand u k).run = .blocked → s.waitOver u k = true →
    ∃ t, exec (.strandWake u k) s = .next t ∧ t.strand u k = { s.strand u k with run := .ready, wait := .none }
      ∧ t.mem = s.mem ∧ (∀ v j, strandKey v j ≠ strandKey u k → t.strand v j = s.strand v j)
      ∧ (t.core u).active = (s.core u).active ∧ (t.core u).cycle = (s.core u).cycle
      ∧ ((s.core u).active = none → (∀ j, (s.strand u j).run ≠ .ready) → (s.core u).gapEnd.toNat ≤ (s.core u).cycle.toNat →
        (t.core u).gapEnd = (s.core u).cycle))
  ∧ (∀ (u : UnitNo) (k : StrandNo) (s : State) (a : AsyncTrap) (rest : List AsyncTrap), s.asyncDue u k = true →
    (s.strand u k).entryWaits = false → (s.strand u k).held = a :: rest →
    exec (.trapEntry u k) s = .next ((s.setStrand u k { s.strand u k with
      entering := none, held := rest, wait := .none, noticed := (s.strand u k).noticed || a.code == causePreemptNotice
      ruleErr := (s.strand u k).ruleErr || ((s.strand u k).rule.isSome && a.code == causePoison) }).enterTrap u k
        { code := a.code, async := true, slot := 0, syloff := 0, faddr := a.faddr, finfo := a.finfo, origin := a.origin
          tpc := (s.strand u k).pc, npc := s.npc u k }))
  ∧ (∀ (u : UnitNo) (k : StrandNo) (s : State), s.asyncDue u k = true ↔
    (∃ a rest, (s.strand u k).held = a :: rest ∧ (a.fresh = false ∨ (s.strand u k).run ≠ .running)) ∧ (s.strand u k).entering = none
    ∧ (s.strand u k).td = false ∧ (s.strand u k).repSkip = false ∧ (s.strand u k).run ≠ .halted ∧ (s.strand u k).run ≠ .stopped)
  ∧ (∀ (u : UnitNo) (k : StrandNo) (s : State), s.asyncDue u k = true → (s.strand u k).entryWaits = true →
    ∃ t e, exec (.trapEntry u k) s = .next t ∧ t.strand u k = { s.strand u k with entering := some e } ∧ e.info.async = true
      ∧ e.info.tpc = (s.strand u k).pc ∧ t.mem = s.mem)
  ∧ (∀ (u : UnitNo) (k : StrandNo) (s : State) (e : Entering), (s.strand u k).entering = some e →
    (s.strand u k).run ≠ .halted → (s.strand u k).run ≠ .stopped →
    let t (code : BitVec 8) := { s.strand u k with entering := none
                                                   ruleErr := (s.strand u k).ruleErr || ((s.strand u k).rule.isSome && code == causePoison) }
    let late := (s.strand u k).bad.find? (fun b => !b.taken && !e.seen.contains b.seq)
    ((s.strand u k).entryWaits = true → exec (.trapEntry u k) s = .next s)
    ∧ ((s.strand u k).entryWaits = false → ∀ b, late = some b →
      exec (.trapEntry u k) s = .next ((s.setStrand u k ((t b.code).takeBad b)).enterTrap u k
        { e.info with code := b.code, async := false, faddr := b.ea, finfo := b.pc, origin := 0 }))
    ∧ ((s.strand u k).entryWaits = false → late = none → e.info.async = false → e.own = none →
      exec (.trapEntry u k) s = .next ((s.setStrand u k (t e.info.code)).enterTrap u k e.info)))

/-- R81, R120, R121, R131, R132, R145, R150, R170 to R172, R410, R414, R368: an entry at the head of a queue takes
effect and leaves. The model's choices: which pieces of an access of more than 8 bytes come first (log entry 81), the byte a
slice may still hold behind host DMA (log entry 13), the answer through port 0 of an engine (log entry 22), a byte that a
change of split has taken away (log entry 83), the cause of a load of bytes that a lost fill did not bring (log entry 97),
and of a barrier arrival at a unit that is not present the DETAIL (log entry 17) and, for one from a unit of no cluster, the
unit (log entry 35). -/
def Obligations.QueueEntriesTakeEffect : Prop :=
  (∀ (s : State) (keys : List Nat), (keys.length ≤ 8 → s.somePieces keys = []) ∧ ∀ a ∈ s.somePieces keys, a ∈ keys)
  ∧ (∀ (u : UnitNo) (k : StrandNo) (s : State) (n : Nat) (segs : List (Nat × Nat)) (sp : Space) (dst : Dest) (ty : BitVec 4)
      (ea pc : W64) (sent : Bool) (got : List (Nat × Byte)), LoadHead s u k n (.load segs sp dst ty ea pc sent got) →
    s.postedOlder (s.strand u k) n sp segs = false → ReadsNow s u sp (segKeys segs) → (∀ g ∈ segs, isFar g.1 = false) →
    s.reqsOf u k n = [] →
    let t := s.strand u k
    let s0 := s.dropReqs (fun r => r.owner == some (u.toNat, k.toNat) && r.seq == n)
    let left := (segKeys segs).filter (fun a => !Table.has got a)
    let now := s.somePieces left
    (now = [] → (∀ a ∈ left, s.loadPoisoned u t n sp a = false) → exec (.loadPerform u k) s
        = .next ((s0.deliver u k n dst ty (leNat ((segKeys segs).map
          (fun a => Table.get (s.loadByte u t n [] sp a) got a)))).pop u k n))
    ∧ ((now = [] ∨ ∃ a ∈ now, s.loadPoisoned u t n sp a = true) → (∃ a ∈ left, s.loadPoisoned u t n sp a = true) →
      exec (.loadPerform u k) s = .next ((s0.markBad u k ⟨n, dst, false, s.badCause left, ea, pc⟩).pop u k n))
    ∧ (now ≠ [] → (∀ a ∈ now, s.loadPoisoned u t n sp a = false) → ∃ s1 : State, exec (.loadPerform u k) s = .next s1
      ∧ (s1.strand u k) = { t with lq := ⟨n, .load segs sp dst ty ea pc false
          (got ++ now.map (fun a => (a, s.loadByte u t n [] sp a)))⟩ :: t.lq.drop 1 }
      ∧ s1.mem = s.mem))
  ∧ (∀ (s : State) (keys : List Nat), s.badCause keys
    = if ∃ a ∈ keys, s.poison.read (s.liveKey a) = 2 then causePathLost else causePoison)
  ∧ (∀ (s : State) (u : UnitNo) (t : Strand) (n a : Nat) (sp : Space), a < 2 ^ 62 → isFar a = false →
    s.loadByte u t n [] sp a = (s.forward u t n sp a).getD (if sp = .cached then s.sliceByte u.toNat a else s.heldByte a))
  ∧ (∀ (s : State) (u : UnitNo) (k : StrandNo) (n : Nat) (ty : BitVec 4) (v m : Nat), m < 64 →
    let t := (s.deliver u k n (.w m) ty v).strand u k
    t.getW (BitVec.ofNat 6 m) = loadWord ty v ∧ (∀ j : BitVec 6, j.toNat ≠ m → t.getW j = (s.strand u k).getW j) ∧ t.pc = (s.strand u k).pc
    ∧ (s.deliver u k n (.w m) ty v).mem = s.mem)
  ∧ (∀ (u : UnitNo) (k : StrandNo) (s : State) (n : Nat) (cells : List (Nat × Byte)) (sp : Space) (ea : W64)
      (cmp : List (Nat × Nat)) (sent : Bool),
    StoreHead s u k n (.store cells sp ea cmp sent) → s.loadOlder (s.strand u k) n sp (cells.map Prod.fst) = false →
    WritesNow s u sp (cells.map Prod.fst) →
    let now := s.somePieces (cells.map Prod.fst)
    (now = [] → exec (.storeVisible u k) s = .next ((s.makeVisible u cells cmp).pop u k n))
    ∧ (now ≠ [] → ∃ s1 : State, exec (.storeVisible u k) s = .next s1
      ∧ s1.mem = (s.makeVisible u (cells.filter (fun c => now.contains c.1)) cmp).mem
      ∧ (s1.strand u k).sq = ⟨n, .store (cells.filter (fun c => !now.contains c.1)) sp ea cmp sent⟩ :: (s.strand u k).sq.drop 1))
  ∧ (∀ (s : State) (u : UnitNo) (cells : List (Nat × Byte)) (cmp : List (Nat × Nat)), (∀ c ∈ cells, c.1 < 2 ^ 62 ∧ isFar c.1 = false
        ∧ s.liveKey c.1 = c.1 ∧ s.pinGone c.1 = false) → (cells.map Prod.fst).Nodup →
    (∀ c ∈ cells, (s.makeVisible u cells cmp).mem.read c.1 = c.2)
    ∧ ∀ a, a ∉ cells.map Prod.fst → (s.makeVisible u cells cmp).mem.read a = s.mem.read a)
  ∧ (∀ (u : UnitNo) (k : StrandNo) (s : State) (n : Nat) (a : AtomicOp) (sent : Bool), LoadHead s u k n .atomic →
    StoreHead s u k n (.atomic a sent) → WritesNow s u a.space a.keys → isFar a.key = false →
    ((∀ b ∈ a.keys, s.poisoned b = false) → exec (.atomicPerform u k) s
        = .next ((s.rmw u a).2.atomicDone u k n a (s.liveKey a.key != a.key) (placeOf (s.liveKey a.key)).code (s.rmw u a).1))
    ∧ ((∃ b ∈ a.keys, s.poisoned b = true) → exec (.atomicPerform u k) s
        = .next ((s.markBad u k ⟨n, a.dst, false, s.badCause a.keys, a.ea, a.pc⟩).pop u k n)))
  ∧ (∀ (s : State) (u : UnitNo) (a : AtomicOp), (s.rmw u a).1 = BitVec.ofNat 64 (leNat (a.keys.map s.heldByte))
    ∧ (s.rmw u a).2 = s.makeVisible u (cellsOf a.keys (toBytes a.bytes (a.newValue (s.rmw u a).1).toNat)) [])
  ∧ (∀ (u : UnitNo) (k : StrandNo) (s : State) (n : Nat) (a : AtomicOp) (sent : Bool), StoreHead s u k n (.posted a sent) →
    s.loadOlder (s.strand u k) n a.space a.keys = false → WritesNow s u a.space a.keys → isFar a.key = false →
    ((∀ b ∈ a.keys, s.poisoned b = false) → exec (.postedAtomicPerform u k) s = .next ((s.rmw u a).2.pop u k n))
    ∧ ((∃ b ∈ a.keys, s.poisoned b = true) → exec (.postedAtomicPerform u k) s
        = .next ((s.routeFault (s.unitPart u) clsMemory 0 0 a.ea u k).pop u k n)))
  ∧ (∀ (m : BitVec 6) (s : State) (x : FarIn) (id : Nat) (addr : BitVec 52) (data : List Byte) (keys : List Nat),
    s.fabric.nextFrom m = some x → x.msg = .store id addr data → s.homeKeys addr data.length = some keys →
    (∀ a ∈ keys, s.writeHeld a = false) → (s.dropIn x).homeKeys addr data.length = some keys →
    exec (.farStoreArrive m) s
      = .next (((s.dropIn x).makeVisible 1023 (cellsOf keys data) []).answer x.engine m.toNat (.done id)))
  ∧ (∀ (u : UnitNo) (rg : BitVec 5) (b : BitVec 9) (s : State) (k : StrandNo) (n key : Nat) (sp : Space),
    s.fillHead u rg.toNat b.toNat = some (k, n, key, sp) → isFar key = false →
    ((s.core u).isFilled rg.toNat b.toNat = false → s.readHeld key = false →
      s.postedOlder (s.strand u k) n sp [(key, 4096)] = false →
      exec (.regionFill u rg b) s = .next (((s.fillWith u rg.toNat b.toNat
        (fun i => s.loadByte u (s.strand u k) n [] sp (key + i))
        (fun i => s.loadPoisoned u (s.strand u k) n sp (key + i))).dropReqs
          (fun r => r.owner == some (u.toNat, k.toNat) && r.seq == n)).pop u k n))
    ∧ ((s.core u).isFilled rg.toNat b.toNat = true → exec (.regionFill u rg b) s
      = .next ((s.dropReqs (fun r => r.owner == some (u.toNat, k.toNat) && r.seq == n)).pop u k n)))
  ∧ (∀ (s : State) (u : UnitNo) (rg b : Nat) (byte : Nat → Byte) (bad : Nat → Bool), b < 512 →
    let t := s.fillWith u rg b byte bad
    let base := spadKey u.toNat ((rgnBase ((s.core u).rgnLo rg) + b) * 4096)
    (t.core u).isFilled rg b = true ∧ (t.core u).isDirty rg b = false
    ∧ ((∀ i, i < 4096 → s.liveKey (base + i) = base + i) → ∀ i, i < 4096 → t.mem.read (base + i) = byte i))
  ∧ (∀ (u : UnitNo) (k : StrandNo) (s : State) (n rg b key : Nat) (cmp : Bool),
    StoreHead s u k n (.regBlock rg b [(key, 4096)] cmp) →
    s.loadOlder (s.strand u k) n .cached (segKeys [(key, 4096)]) = false → WritesNow s u .cached (segKeys [(key, 4096)]) → (∀ i, i < 4096 → s.poisoned (spadKey u.toNat (b * 4096 + i)) = false) →
    exec (.regsyncWriteback u k) s = .next (((s.cleanBlock u rg b).makeVisible u (cellsOf (segKeys [(key, 4096)])
        ((List.range 4096).map (fun i => s.readByte (spadKey u.toNat (b * 4096 + i)))))
        (if cmp then [(key, 4096)] else [])).pop u k n))
  ∧ (∀ (s : State) (u : UnitNo) (rg b i : Nat), (s.core u).regionOf b = some (rg, i) →
    ((s.cleanBlock u rg b).core u).isDirty rg i = false ∧ (s.cleanBlock u rg b).mem = s.mem)
  ∧ (∀ (u : UnitNo) (k : StrandNo) (s : State) (n v b m : Nat), StoreHead s u k n (.barr v b m) →
    (s.unitPresent v = true → exec (.barrArrival u k) s = .next ((s.pop u k n).arrive (BitVec.ofNat 10 v) b m))
    ∧ (s.unitPresent v = false → exec (.barrArrival u k) s
        = .next ((s.pop u k n).routeFault (s.unitPart u) clsCore (Config.coreDetail 0).toNat 0 0 u k)))
  ∧ (∀ (x : Barrier) (m : Nat), x.frozen = false → x.arrived.toNat < x.count.toNat →
    (x.arrived.toNat + m < x.count.toNat → (x.arrive m).arrived.toNat = x.arrived.toNat + m ∧ (x.arrive m).phn = x.phn)
    ∧ (x.arrived.toNat + m = x.count.toNat → (x.arrive m).arrived = 0 ∧ (x.arrive m).phn = x.phn + 1))
  ∧ (∀ (u : UnitNo) (k : StrandNo) (s : State) (n b m : Nat), StoreHead s u k n (.binit b m) →
    ((s.core u).barrier b).frozen = false → ∃ t, exec (.binitEffect u k) s = .next t
      ∧ (t.core u).barrier b = { (s.core u).barrier b with count := BitVec.ofNat 16 m, arrived := 0 } ∧ t.mem = s.mem
      ∧ (t.core u).barSeen b = (s.core u).barSeen b)
  ∧ (∀ (u : UnitNo) (k : StrandNo) (s : State) (n c : Nat) (v : W64), StoreHead s u k n (.cntadd c v) →
    exec (.cntaddRaise u k) s = .next ((s.pop u k n).raise c v))
  ∧ (∀ (u : UnitNo) (k : StrandNo) (s : State) (n f p : Nat) (v : W64), StoreHead s u k n (.qarm f p v) →
    ∃ t, exec (.qarmEffect u k) s = .next t
      ∧ (t.pairOf (64 * f + p)).armlim.toNat = max (s.pairOf (64 * f + p)).armlim.toNat v.toNat
      ∧ (t.pairOf (64 * f + p)).posted = (s.pairOf (64 * f + p)).posted ∧ t.mem = s.mem)

/-- R138, R148, R149, R206, R252, R298: the register writes that have a row of their own, and the end of a slice's change
of split. After it, writes that it held go on. R257, R258, R260, R261: a group starts when every core of its mask has
joined, goes on from a rendezvous when every member is parked, and breaks when a hold lasts longer than sys.SGHOLD, which
sets no limit where it is 0 (R251). -/
def Obligations.RegisterWritesAndGroupEvents : Prop :=
  (
    (∀ (u : UnitNo) (k : StrandNo) (v : W64), WritesCR (.cmdareaWrite u k v) u k 0x020 v
      ∧ (∀ (rg : BitVec 5) (hi : Bool), WritesCR (.regionEntryWrite u k rg hi v) u k (0x100 + 2 * rg.toNat + hi.toNat) v)
      ∧ WritesCR (.mxposWrite u k v) u k 0x026 v ∧ WritesCR (.slcfgWrite u k v) u k 0x030 v
      ∧ WritesCR (.xrootWrite u k v) u k 0x060 v ∧ WritesCR (.repstatWrite u k v) u k 0x00C v)
    ∧ (∀ (s : State) (rg : BitVec 5) (v : W64) (f : State → State), writeCR s (0x100 + 2 * rg.toNat) v = .ok f →
      ((f s).myCore.rgnLo rg.toNat) = v &&& 0x1FF001FF003
      ∧ (v.getLsbD 0 = false → ∀ b, b < 512 → (f s).myCore.isFilled rg.toNat b = false)
      ∧ (v.getLsbD 0 = true → rgnBase v + rgnLen v ≤ 512))
    ∧ (∀ (s : State) (rg : BitVec 5) (v : W64) (f : State → State), writeCR s (0x101 + 2 * rg.toNat) v = .ok f →
      rgnValid (s.myCore.rgnLo rg.toNat) = false ∧ (f s).myCore.rgnHi rg.toNat = v &&& 0x1FFFFFFFFFFF000)
    ∧ (∀ (s : State) (v : W64) (f : State → State), writeCR s 0x020 v = .ok f →
      (f s).myCore.cmdarea = v &&& 0x1FF000001FF ∧ field v 8 0 + field v 40 32 + 1 ≤ 512)
    ∧ (∀ (s : State) (v : W64) (f : State → State), writeCR s 0x026 v = .ok f → rpA (f s).myCore = v.toNat % 2 ^ 32
      ∧ rpB (f s).myCore = v.toNat / 2 ^ 32 ∧ ∀ b p, p < 4 → ((f s).myCore.slotOf b p).state = .empty)
    ∧ (∀ (s : State) (v : W64) (f : State → State), writeCR s 0x060 v = .ok f → s.sup = true
      ∧ (f s).units = s.units ∧ (f s).clusters = s.clusters
      ∧ f s = s.setPart s.myPart { s.partOf s.myPart with xroot := v &&& 0xFFFFFFFFFF000 })
    ∧ (∀ (s : State) (v : W64) (f : State → State), writeCR s 0x030 v = .ok f → s.sup = true ∧ field v 4 0 ≤ 16
      ∧ f s = s.setCluster (unitCluster s.curU)
          { s.cluster (unitCluster s.curU) with slcfg := v.setWidth 5, chg := true })
    ∧ (∀ (c : ClusterNo) (s : State), (s.cluster c.toNat).chg = true → ∃ t : State,
      exec (.splitChangeDone c) s = .next t.releaseHeld ∧ t.homes.heldWrites = s.homes.heldWrites
      ∧ (t.cluster c.toNat).pin = (s.cluster c.toNat).slcfg ∧ (t.cluster c.toNat).chg = false
      ∧ (t.cluster c.toNat).groups = (s.cluster c.toNat).groups ∧ t.strands = s.strands
      ∧ ∀ a, (t.mem.read (pinKey c.toNat a) = if min (s.cluster c.toNat).pin.toNat (s.cluster c.toNat).slcfg.toNat * (3 * 2 ^ 20) ≤ a
          ∧ a < max (s.cluster c.toNat).pin.toNat (s.cluster c.toNat).slcfg.toNat * (3 * 2 ^ 20)
        then emptyByte else s.mem.read (pinKey c.toNat a)))
    ∧ (∀ (s : State), (s.homes.heldWrites = [] → s.releaseHeld = s)
      ∧ ∀ w, s.homes.heldWrites = [w] → (∀ a ∈ w.cells, s.writeHeld a.1 = false) →
        s.releaseHeld = State.performHeld { s with homes := { s.homes with heldWrites := [] } } w)
  ) ∧ (
    (∀ (c : ClusterNo) (g : BitVec 2) (s : State),
      let x := s.groupOf c.toNat g.toNat
      (x.started = false → x.mask ≠ 0 → x.joined = x.mask →
        exec (.groupStart c g) s = .next (x.members.foldl (fun t m => t.enterGroup c.toNat g (x.startAt.toNat - 1) m)
          (s.setGroup c.toNat g.toNat { x with started := true, scnt := 0, done := 0, synced := 0, parked := 0 })))
      ∧ (x.started = true → x.joined ≠ 0 → x.parked = x.joined →
        let now := s.latestOf c.toNat x.joined
        ∃ t, exec (.groupUnpark c g) s = .next t ∧ (t.groupOf c.toNat g.toNat).synced = x.joined
          ∧ (t.groupOf c.toNat g.toNat).parked = 0 ∧ (t.groupOf c.toNat g.toNat).startAt = BitVec.ofNat 64 (now + 4)
          ∧ (t.groupOf c.toNat g.toNat).scnt = x.scnt ∧ t.mem = s.mem
          ∧ ∀ m ∈ x.members, m.2 < 8 → (t.core (memberUnit c.toNat m.1)).cycle = BitVec.ofNat 64 (now + 3)
            ∧ (t.strand (memberUnit c.toNat m.1) (BitVec.ofNat 3 m.2)).wait = .none)
      ∧ ((s.cluster c.toNat).sghold = 0 → exec (.groupBroken c g) s = .next s)
      ∧ (∀ since, x.holdSince = some since → x.started = true → (s.cluster c.toNat).sghold ≠ 0 →
        (s.cluster c.toNat).sghold.toNat < s.latestOf c.toNat x.joined - since.toNat →
        exec (.groupBroken c g) s = .next (s.breakGroup c.toNat g.toNat)))
    ∧ (∀ (s : State) (c : Nat) (g : BitVec 2) (at_ : Nat) (m : Nat × Nat), c < 32 → m.1 < 16 → m.2 < 8 → at_ < 2 ^ 64 →
      let u := memberUnit c m.1
      let t := s.enterGroup c g at_ m
      (s.strand u (BitVec.ofNat 3 m.2)).run ≠ .stopped →
      (t.core u).group = some g ∧ (t.core u).active = some (BitVec.ofNat 3 m.2)
      ∧ (t.core u).cycle.toNat = at_ ∧ t.mem = s.mem
      ∧ (∀ j, (s.core u).active = some j → j ≠ BitVec.ofNat 3 m.2 → (t.strand u j).run = .ready ∧ (t.strand u j).lat = [])
      ∧ (t.strand u (BitVec.ofNat 3 m.2)).run = .running ∧ (t.strand u (BitVec.ofNat 3 m.2)).wait = .none
      ∧ (t.strand u (BitVec.ofNat 3 m.2)).pc = (s.strand u (BitVec.ofNat 3 m.2)).pc)
    ∧ (∀ (s : State) (c g : Nat), (s.groupOf c g).joined = 0 → s.breakGroup c g = s.setGroup c g Group.reset)
  )


/-! ### Migration, budgets and invalidation -/

/-- R277 to R284, R300, R301: a move is admitted, and commits, is released or is aborted; budgets renew; a TLBINV leaves
the store queue and is acknowledged, which sys.IVTL shows from the next cc on. What a home held during a move goes on at
its commit, its abort and its release (letGo, releaseHeld). The model's choices: the order in which a MIGHINT is checked
(log entry 25), how long an activity works at a home agent (log entry 24), and that an acknowledgement waits for the
accesses and commands under way that translated in a range of an entry the TLBINV drops (log entry 57). -/
def Obligations.MigrationBudgetsAndInvalidation : Prop :=
  (∀ (u : UnitNo) (k : StrandNo) (s : State) (x : Hint) (rest : List Hint), (s.strand u k).hints = x :: rest →
    let p := s.unitPart u
    let waits := s.homes.spent 3 (s.walkHomes p x.ea) = true ∨ s.walkWaits p x.ea = true
    let r := (s.setStrand u k { s.strand u k with hints := rest }).translate ⟨u, p, x.sup, x.pkr⟩ x.ea .read .quiet
    let s1 := r.2.spend 3 (s.walkHomes p x.ea)
    (waits → exec (.moveAdmit u k) s = .next s)
    ∧ (¬waits → ∀ f, r.1 = .error f →
      exec (.moveAdmit u k) s = .next ((s1.countHint hintUnmapped).deliver u k x.seq x.dst 0 5))
    ∧ (¬waits → ∀ h, r.1 = .ok h →
      let st := s1.hintStatus p h x.home.toNat
      (st = 0 → exec (.moveAdmit u k) s = .next ((s1.admitMove p x.ea h x.home.toNat).deliver u k x.seq x.dst 0 0))
      ∧ (st ≠ 0 → exec (.moveAdmit u k) s = .next ((s1.countHint st).deliver u k x.seq x.dst 0 st))))
  ∧ (∀ (s : State) (p : Nat) (h : Hit) (home : Nat), s.hintStatus p h home = 0 →
    let key := s.liveKey h.key
    let leaf := (s.tableKey h.entry.entry).getD 0
    (s.partOf p).hinten = true ∧ home ≤ 9 ∧ h.entry.level = 1 ∧ leafCont h.entry.leaf = false ∧ leafHome h.entry.leaf ≤ 1
    ∧ leafFrame h.entry.leaf < 0x030000000000 ∧ homeCode key ≠ home ∧ (home ∈ s.homes.present ∨ home ∈ s.homes.farPresent)
    ∧ (∀ m ∈ s.homes.moves, m.leafKey ≠ leaf) ∧ s.leafHeld leaf = false
    ∧ (s.topFrame (Table.get 0 s.homes.migpool home)).isSome = true ∧ stackCount s.homes.migrel < 512)
  ∧ (∀ (s : State) (p : Nat) (ea : W64) (h : Hit) (home f : Nat), s.topFrame (Table.get 0 s.homes.migpool home) = some f →
    let t := s.admitMove p ea h home
    t.homes.moves.map (·.id) = s.homes.moves.map (·.id) ++ [s.homes.nextMove]
    ∧ stackCount (Table.get 0 t.homes.migpool home) = stackCount (Table.get 0 s.homes.migpool home) - 1
    ∧ t.mem = s.mem ∧ t.strands = s.strands)
  ∧ (∀ (id : Nat) (s : State) (m : Move), s.findMove id = some m → m.started = true → m.committed = false →
    ((m.mustAbort s = true ∨ m.copyNs = 0) → exec (.migrationCommit id) s = .next s)
    ∧ (m.mustAbort s = false → m.copyNs ≠ 0 →
      let s1 := s.copyFrame m.oldFrame m.newFrame
      let e := BitVec.ofNat 64 (s1.readNat m.leafKey 8)
      let s2 := (s1.writeNat m.leafKey 8 ((e &&& ~~~0x000FFFFFFFFFF000) ||| BitVec.ofNat 64 m.newPhys).toNat).recordCommit m.leafKey
      ∃ t : State, exec (.migrationCommit id) s = .next (t.letGo m.oldFrame) ∧ t.mem = s2.mem
        ∧ t.homes.history = s2.homes.history ∧ t.homes.migcommits = satInc s.homes.migcommits
        ∧ t.homes.moves.map (·.id) = s.homes.moves.map (·.id) ∧ t.strands = s.strands ∧ t.units = s.units)
    ∧ (m.mustAbort s = false → exec (.migrationAbort ⟨id, false⟩) s = .next s)
    ∧ (m.mustAbort s = true → m.foreign s = false → m.broken s = false →
      let r := s.pushFrame (Table.get 0 s.homes.migpool m.dst) m.newPhys
      ∃ t : State, exec (.migrationAbort ⟨id, false⟩) s = .next (t.letGo m.oldFrame) ∧ t.mem = r.1.mem ∧ t.homes.migaborts = satInc s.homes.migaborts
        ∧ Table.get 0 t.homes.migpool m.dst = r.2 ∧ t.homes.history = s.homes.history
        ∧ (∀ x ∈ t.homes.moves, x.id ≠ m.id) ∧ t.strands = s.strands ∧ t.units = s.units)
    ∧ (∀ err, (err = true ∨ m.foreign s = true ∨ m.broken s = true) → ∃ t : State, exec (.migrationAbort ⟨id, err⟩) s
          = .next ((t.letGo m.oldFrame).routeFault m.part.toNat clsMigration 0 0 (BitVec.signExtend 64 (BitVec.ofNat 57 m.va)) 0 0)
        ∧ t.homes.migaborts = satInc s.homes.migaborts ∧ (∀ x ∈ t.homes.moves, x.id ≠ m.id) ∧ t.homes.history = s.homes.history
        ∧ (m.foreign s = true → t.mem = s.mem ∧ t.homes.migpool = s.homes.migpool)
        ∧ (m.foreign s = false → t.mem = (s.pushFrame (Table.get 0 s.homes.migpool m.dst) m.newPhys).1.mem)))
  ∧ (∀ (s : State) (m : Move), m.mustAbort s = true ↔ 8000 < m.copyNs ∨ m.foreign s = true ∨ m.broken s = true)
  ∧ (∀ (s : State) (m : Move), m.broken s = true ↔ s.homeLost (m.newFrame * 4096) = true
    ∨ ∃ i, i < 4096 ∧ s.poisoned (m.oldFrame * 4096 + i) = true)
  ∧ (∀ (s : State) (f n i : Nat), i < 4096 → f ≠ n → (s.copyFrame f n).mem.read (n * 4096 + i) = s.mem.read (f * 4096 + i)
    ∧ ∀ a, a / 4096 ≠ n → (s.copyFrame f n).mem.read a = s.mem.read a)
  ∧ (∀ (id : Nat) (s : State) (m : Move), s.findMove id = some m → m.committed = true → s.frameInUse m.oldFrame = false →
    let r := (s.dropLeaf m.leafKey).pushFrame s.homes.migrel (leafFrame m.leaf)
    let d := Table.get ⟨[], 1, 0, [], false⟩ s.homes.dir (m.leafKey / 4096)
    ∃ t : State, exec (.migrationRelease id) s = .next t.releaseHeld ∧ t.mem = r.1.mem ∧ t.homes.migrel = r.2
      ∧ (∀ x ∈ t.homes.moves, x.id ≠ m.id) ∧ t.strands = s.strands
      ∧ ∀ u : UnitNo, unitDirDie u.toNat ∈ d.dies → ∀ e ∈ (t.core u).tlb,
        (d.multi = false → s.tableKey e.entry ≠ some m.leafKey)
        ∧ (d.multi = true → e.part ∈ d.parts → rangesMeet e.base e.size 0 (2 ^ 57) = false))
  ∧ (∀ s : State, s.homes.period < s.ptime.toNat / 100000 → ∃ t, exec .budgetPeriod s = .next t
    ∧ t.homes.period = s.ptime.toNat / 100000 ∧ t.homes.abused = [] ∧ t.homes.abudNext = [] ∧ t.mem = s.mem ∧ t.strands = s.strands
    ∧ ∀ k v, s.homes.abudNext = [(k, v)] → Table.get 0 t.homes.abud k = v)
  ∧ (∀ (u : UnitNo) (k : StrandNo) (s : State) (n : Nat) (id : W64) (form : Nat) (va page : W64) (rest : List SqItem),
    (s.strand u k).sq = ⟨n, .tlbinv id form va page⟩ :: rest →
    let g := (s.pop u k n).invRanges (s.unitPart u) form va page
    let r := (s.pop u k n).invalidate (s.unitPart u) form va page
    let w := r.2.underWayIn g.1 r.1 g.2
    let old := r.2.evictions.filter (fun e => form == 2 || some (e.page * 4096) == r.2.tableKey page.toNat)
    let x : InvWait := { n := id, dies := (r.1 ++ old.flatMap (·.dies)).eraseDups
                         accs := w.1 ++ old.flatMap (·.accs), cmds := w.2 ++ old.flatMap (·.cmds) }
    exec (.tlbinvDispatch u k) s = .next
      ((r.2.setStrand u k { r.2.strand u k with invs := (r.2.strand u k).invs ++ [x] }).countInvs u k))
  ∧ (∀ (s : State) (p : Nat) (va page : W64), s.invRanges p 2 va page = ([p], [(0, 2 ^ 57)])
    ∧ (s.recordOf p page = none → s.invRanges p 0 va page = ([], []) ∧ s.invRanges p 1 va page = ([], []))
    ∧ ∀ n r, s.recordOf p page = some (n, r) → s.invRanges p 1 va page = (r.parts, [r.range])
      ∧ (s.invRanges p 0 va page).1 = [p] ∧ (va57 va / 4096 * 4096, 4096) ∈ (s.invRanges p 0 va page).2)
  ∧ (∀ (s : State) (u : UnitNo) (k : StrandNo), (s.countInvs u k).strand u k = (s.strand u k).countInvs 8
    ∧ (s.countInvs u k).ivtlSeen u k = s.ivtlSeen u k ∧ (s.countInvs u k).mem = s.mem
    ∧ ∀ n, ((s.tickCore u n).ivtlSeen u k) = (s.strand u k).ivtl)
  ∧ (∀ (s : State) (p : Nat) (va page : W64), let t := (s.invalidate p 2 va page).2
    (∀ d, d ∈ (s.invalidate p 2 va page).1 ↔ d ∈ s.homes.present ∨ d ∈ s.homes.farPresent ∨ d = 10)
    ∧ (∀ u : UnitNo, unitDirDie u.toNat ∈ (s.invalidate p 2 va page).1 → ∀ e ∈ (t.core u).tlb, e.part ≠ p) ∧ t.mem = s.mem
    ∧ t.strands = s.strands ∧ ∀ x ∈ t.homes.dir, p ∉ x.2.parts)
  ∧ (∀ (s : State) (p : Nat) (va page : W64), s.recordOf p page = none →
    s.invalidate p 0 va page = ([], s) ∧ s.invalidate p 1 va page = ([], s))
  ∧ (∀ (s : State) (p n : Nat) (va page : W64) (r : DirRecord), s.recordOf p page = some (n, r) →
    (s.invalidate p 0 va page).1 = r.dies ∧ (s.invalidate p 1 va page).1 = r.dies
    ∧ (∀ u : UnitNo, unitDirDie u.toNat ∈ r.dies →
      (∀ e ∈ ((s.invalidate p 0 va page).2.core u).tlb, e.covers p va = false)
      ∧ ∀ e ∈ ((s.invalidate p 1 va page).2.core u).tlb, e.part ∈ r.parts →
        rangesMeet e.base e.size r.range.1 r.range.2 = false)
    ∧ (s.invalidate p 0 va page).2.mem = s.mem ∧ (s.invalidate p 1 va page).2.mem = s.mem)
  ∧ (∀ (u : UnitNo) (k : StrandNo) (id : W64) (die : BitVec 4) (s : State) (x : InvWait),
    (s.strand u k).invs.find? (fun y => y.n == id) = some x →
    (∀ a ∈ x.accs, unitDirDie (a.1 % savedBase / 8) = die.toNat → s.entryThere a.1 a.2 = false) →
    (∀ c ∈ x.cmds, unitDirDie c.1 = die.toNat → s.commandThere c.1 c.2.1 c.2.2 = false) →
    exec (.tlbinvAck u k id die) s = .next ((s.setStrand u k { s.strand u k with
      invs := (s.strand u k).invs.map (fun y => if y.n == id then { y with dies := y.dies.filter (· != die.toNat) } else y) }
        ).countInvs u k))
  ∧ (∀ (t : Strand) (n : Nat), t.invs = [] → t.countInvs n = t)
  ∧ (∀ (t : Strand) (x : InvWait), t.invs = [x] → x.dies = [] → x.n = t.ivtl + 1 →
    t.countInvs 8 = { t with ivtl := x.n, invs := [] })

/-! ### The fabric sequencer -/

namespace Sys2Proof.Machine

/-- Context x is about to execute the word (op, a) of the segment that is due at boundary c (R320, R321). -/
def SeqDue (x : SeqCtx) (op : Nat) (a : SeqArg) (s : State) (c : Nat) : Prop :=
  let q := s.seqOf x.toNat
  q.loaded = true ∧ q.status = 0 ∧ q.next = some c ∧ q.boundary c ≤ s.ptime.toNat ∧ q.revive = none
    ∧ q.prog[q.pc]? = some (encodeSeq op a) ∧ q.words < 64 ∧ seqFieldsOk op a = true

/-- The context goes on with the next word, or with word n. -/
def State.seqOn (s : State) (x : SeqCtx) : State :=
  s.setSeq x.toNat { s.seqOf x.toNat with pc := (s.seqOf x.toNat).pc + 1, words := (s.seqOf x.toNat).words + 1 }
def State.seqJump (s : State) (x : SeqCtx) (n : Nat) : State :=
  s.setSeq x.toNat { s.seqOf x.toNat with pc := n, words := (s.seqOf x.toNat).words + 1 }
/-- The segment has ended: what it recorded as applied is boundary c. -/
def State.seqEnds (s : State) (x : SeqCtx) (c : Nat) : State :=
  s.setSeq x.toNat { s.seqOf x.toNat with pc := (s.seqOf x.toNat).pc + 1, words := 0, applied := BitVec.ofNat 48 c }

end Sys2Proof.Machine

/-- R317, R320 to R330, R338: the words of the sequencer at their boundary, lease expiry, liveness and optical faults. The
model's choices: SQLOOP checks its target only when it jumps, and the circuits that cross a mesh element are named by the
event (log entry 56); the handle a stop names, and that what falls due takes effect with the move of package time (log entry
75); by how much package time moves (log entry 24). -/
def Obligations.SequencerWordsAndCircuits : Prop :=
  (∀ (x : SeqCtx) (a : SeqArg) (s : State) (c : Nat), SeqDue x 1 a s c →
    let q := s.seqOf x.toNat
    let h := field a 59 52
    let sp := q.port (field a 51 48) (field a 47 45)
    let dp := q.port (field a 44 41) (field a 40 38)
    ((sp = none ∨ dp = none ∨ slotDie q (field a 51 48) = slotDie q (field a 44 41)) →
      exec (.sqest x a) s = .next (s.stopSeq x.toNat c 0x13 (some h)))
    ∧ ∀ p r, sp = some p → dp = some r → slotDie q (field a 51 48) ≠ slotDie q (field a 44 41) →
      (((q.handle h).state = .settling ∨ (q.handle h).state = .live) → exec (.sqest x a) s = .next (s.stopSeq x.toNat c 0x12 (some h)))
      ∧ ((q.handle h).state ≠ .settling → (q.handle h).state ≠ .live → exec (.sqest x a) s = .next
        ((s.establish x.toNat h c p r (if field a 37 26 ≠ 0 then some (c + field a 37 26) else none)).seqOn x)))
  ∧ (∀ (s : State) (x h c p r : Nat) (lease : Option Nat), p < 128 → r < 128 →
    let q := s.seqOf x
    let free := s.portAssigned q.part p false = true ∧ s.portAssigned q.part r true = true ∧ s.portBad p = false ∧ s.portBad r = false
      ∧ s.portUsed p false = false ∧ s.portUsed r true = false
    (free → s.establish x h c p r lease = s.setSeq x (q.setHandle h { q.handle h with
      gen := (q.handle h).gen + 1, sport := BitVec.ofNat 7 p, dport := BitVec.ofNat 7 r, state := .settling
      expiry := lease, liveAt := BitVec.ofNat 64 (q.boundary c + 48) }))
    ∧ (¬free → ∃ hd : Handle, hd.state = .refused ∧ hd.gen = (q.handle h).gen + 1 ∧ hd.expiry = none
      ∧ s.establish x h c p r lease = (s.setSeq x (q.setHandle h hd)).seqFault x clsCircRefused h (circSubject x h p hd.gen)))
  ∧ (∀ (x : SeqCtx) (a : SeqArg) (s : State) (c : Nat),
    let q := s.seqOf x.toNat
    let h := field a 59 52
    (SeqDue x 2 a s c → ((q.handle h).state = .settling ∨ (q.handle h).state = .live) → exec (.sqhold x a) s = .next
      ((s.setSeq x.toNat (q.setHandle h { q.handle h with expiry := some (c + field a 37 26) })).seqOn x))
    ∧ (SeqDue x 2 a s c → (q.handle h).state ≠ .settling → (q.handle h).state ≠ .live → exec (.sqhold x a) s = .next (s.seqOn x))
    ∧ (SeqDue x 3 a s c → bit a 51 = false →
      exec (.sqtear x a) s = .next ((s.setSeq x.toNat (q.setHandle h (q.handle h).down)).seqOn x))
    ∧ (SeqDue x 3 a s c → bit a 51 = true → exec (.sqtear x a) s = .next ((s.setSeq x.toNat q.tearAll).seqOn x))
    ∧ (SeqDue x 4 a s c →
      (bit a 59 = true → exec (.sqwait x a) s = .next ((s.setSeq x.toNat { q with next := some (c + field a 47 0) }).seqEnds x c))
      ∧ (bit a 59 = false → c < field a 47 0 →
        exec (.sqwait x a) s = .next ((s.setSeq x.toNat { q with next := some (field a 47 0) }).seqEnds x c))
      ∧ (bit a 59 = false → field a 47 0 ≤ c → ∃ t : State, exec (.sqwait x a) s
          = .next ((t.seqFault x.toNat clsSeqLate 0 (circSubject x.toNat 0 0 0)).seqEnds x c)
        ∧ t.seqOf x.toNat = { q with next := some (c + 1) } ∧ t.optics.late = satInc s.optics.late ∧ t.mem = s.mem))
    ∧ (SeqDue x 5 a s c →
      (field a 11 0 < q.prog.length → exec (.sqjmp x a) s = .next (s.seqJump x (field a 11 0)))
      ∧ (q.prog.length ≤ field a 11 0 → exec (.sqjmp x a) s = .next (s.stopSeq x.toNat c 0x14 none)))
    ∧ (SeqDue x 6 a s c →
      let k := field a 59 58
      let n := (if Table.get (0 : BitVec 16) q.lc k = 0 then BitVec.ofNat 16 (field a 47 32) else Table.get 0 q.lc k) - 1
      (n = 0 → exec (.sqloop x a) s = .next ((s.setSeq x.toNat { q with lc := Table.set q.lc k 0 }).seqOn x))
      ∧ (n ≠ 0 → field a 11 0 < q.prog.length → exec (.sqloop x a) s
          = .next ((s.setSeq x.toNat { q with lc := Table.set q.lc k n }).seqJump x (field a 11 0)))
      ∧ (n ≠ 0 → q.prog.length ≤ field a 11 0 → exec (.sqloop x a) s = .next (s.stopSeq x.toNat c 0x14 none)))
    ∧ (SeqDue x 7 a s c →
      let d := slotDie q (field a 51 48)
      let unit := 64 * d + 16 * field a 47 46 + field a 45 42
      let n := field a 32 25 + 1
      (8 ≤ d → exec (.sqsig x a) s = .next (s.stopSeq x.toNat c 0x13 none))
      ∧ (d < 8 → bit a 59 = false → s.unitPresent unit = true →
        exec (.sqsig x a) s = .next ((s.arrive (BitVec.ofNat 10 unit) (field a 41 33) n).seqOn x))
      ∧ (d < 8 → bit a 59 = true → exec (.sqsig x a) s = .next ((s.setSeq x.toNat { q with sigs := q.sigs
          ++ [{ at_ := BitVec.ofNat 64 (q.boundary c + 48), unit := unit, bar := field a 41 33, n := n }] }).seqOn x)))
    ∧ (SeqDue x 8 a s c → exec (.sqhalt x a) s = .next
      ((s.setSeq x.toNat { (if bit a 59 then q.tearAll else q) with status := 0x01, next := none }).seqEnds x c)))
  ∧ (∀ h : Handle, ((h.state = .settling ∨ h.state = .live) → h.down = { h with state := .idle, expiry := none })
    ∧ (h.state ≠ .settling → h.state ≠ .live → h.down = h))
  ∧ (∀ (s : State) (x c : Nat),
    (64 ≤ (s.seqOf x).words → s.seqStep x c = (false, s.stopSeq x c 0x11 none))
    ∧ ((s.seqOf x).words < 64 → (s.seqOf x).prog.length ≤ (s.seqOf x).pc → s.seqStep x c = (false, s.stopSeq x c 0x14 none)))
  ∧ (∀ s : State, ∃ t : State, t.seqs = s.seqs.map (fun p => (p.1, p.2.expire s.ptime.toNat)) ∧ t.mem = s.mem ∧ t.ptime = s.ptime
    ∧ t.optics = s.optics ∧ exec .segmentApply s = .next ((List.range 8).foldl (fun t x => t.applyDue x)
        ((List.range 8).foldl (fun t x => t.settledSigs x) t)))
  ∧ (∀ (s : State) (x c n : Nat), (s.seqOf x).revive = none → (s.seqOf x).due s.ptime.toNat = some c →
    s.applyDue x = State.seqSegment x c 65 s ∧ State.seqSegment x c (n + 1) s
      = if (s.seqStep x c).1 then State.seqSegment x c n (s.seqStep x c).2 else (s.seqStep x c).2)
  ∧ (∀ (x : SeqCtx) (h : BitVec 8) (s : State),
    let q := s.seqOf x.toNat
    let hd := q.handle h.toNat
    (∀ n, (hd.state = .settling ∨ hd.state = .live) → hd.expiry = some n → q.boundary n ≤ s.ptime.toNat →
      exec (.leaseExpiry x h) s = .next (s.setSeq x.toNat (q.setHandle h.toNat { hd with state := .idle, expiry := none })))
    ∧ (hd.state = .settling → hd.liveAt.toNat ≤ s.ptime.toNat → q.sigs = [] → ∃ t, exec (.circuitLive x h) s = .next t
      ∧ (t.seqOf x.toNat).handle h.toNat = { hd with state := .live } ∧ t.mem = s.mem ∧ t.units = s.units))
  ∧ (∀ (s : State) (ns : Nat) (rest : List Act), s.agenda = .advance ns :: rest →
    let s0 := ({ s with agenda := rest } : State).limitsOut
    ∃ t : State, step s = .next t.fabricDue
    ∧ t.ptime = s0.ptime + BitVec.ofNat 64 (Nat.min ns s0.timeRoom) ∧ t.seqs = s0.seqs ∧ t.mem = s0.mem ∧ t.fabricDue
      = evSegmentApply { t with seqs := t.seqs.map (fun p => (p.1, p.2.settle t.ptime.toNat)) })
  ∧ (∀ (q : Seq) (now h : Nat), let hd := q.handle h
    (hd.state = .settling → hd.liveAt.toNat ≤ now → (q.settle now).handle h = { hd with state := .live })
    ∧ ((hd.state ≠ .settling ∨ now < hd.liveAt.toNat) → (q.settle now).handle h = hd))
  ∧ (∀ (p : BitVec 7) (detail : Byte) (crossing : List (BitVec 11)) (s : State), p.toNat < 80 →
    (∃ t : State, exec (.laserFault p detail) s = .next (t.failCircuits clsLaser p.toNat detail (s.hitCircuits p.toNat true []))
      ∧ t.optics.laser = satInc s.optics.laser ∧ t.portBad p.toNat = true ∧ t.seqs = s.seqs ∧ t.mem = s.mem)
    ∧ (detail ≠ 2 → ∃ t : State, exec (.ringTuningFault p detail crossing) s
        = .next (t.failCircuits clsRingTuning p.toNat detail (s.hitCircuits p.toNat true []))
      ∧ t.optics.ring = satInc s.optics.ring ∧ t.portBad p.toNat = true ∧ t.seqs = s.seqs ∧ t.mem = s.mem)
    ∧ (detail = 2 → ∃ t : State, exec (.ringTuningFault p detail crossing) s
        = .next (t.failCircuits clsRingTuning p.toNat detail (s.hitCircuits p.toNat false crossing))
      ∧ t.optics.ring = satInc s.optics.ring ∧ t.optics.bad0 = s.optics.bad0 ∧ t.seqs = s.seqs ∧ t.mem = s.mem))
  ∧ (∀ (s : State) (p x h : Nat), (x, h) ∈ s.hitCircuits p true [] ↔ ∃ q hd, (x, q) ∈ s.seqs ∧ (h, hd) ∈ q.handles
    ∧ (hd.state = .settling ∨ hd.state = .live) ∧ (hd.sport.toNat = p ∨ hd.dport.toNat = p))
  ∧ (∀ (s : State) (cls p x h : Nat) (detail : Byte),
    s.failCircuits cls p detail [(x, h)] = (s.setSeq x ((s.seqOf x).setHandle h { (s.seqOf x).handle h with state := .failed, expiry := none
      })).seqFault x cls detail.toNat (circSubject x h p ((s.seqOf x).handle h).gen))

/-! ### The Hive -/

/-- R349, R350, R352, R355, R357, R359, R361, R362, R443, R444: a launch from its doorbell to its record, the launch table,
and pre-emption. The model's choices: corners of a graph's checks (log entry 58), what the Hive dispatches while a
partition is frozen and which failed instance is first (log entry 59), doorbells that wait while 256 launches are open (log
entry 60), which instances a PREEMPT slot pre-empts (log entry 29), the pre-emption of rule strands under a ticket of no
launch (log entry 86), that a saved context stands in a field of its own beside the record in the SAVE area (log entry 30),
and that a STOPPED strand of a failed node counts as ended in a frozen partition (log entry 105). -/
def Obligations.LaunchesRunAndComplete : Prop :=
  (∀ (p : PartNo) (v : W64) (s : State), s.isUp = true → p.toNat < 32 → (s.partOf p.toNat).bells = [] →
    (256 ≤ (s.partOf p.toNat).openLaunches → ∃ t, exec (.dbell p v) s = .next t ∧ (t.partOf p.toNat).bells = [v]
      ∧ (t.partOf p.toNat).launches = (s.partOf p.toNat).launches ∧ (t.partOf p.toNat).ltick = (s.partOf p.toNat).ltick)
    ∧ ((s.partOf p.toNat).openLaunches < 256 → ∃ t l, exec (.dbell p v) s = .next t ∧ (t.partOf p.toNat).ltick = (s.partOf p.toNat).ltick + 1
      ∧ (t.partOf p.toNat).launches = (s.partOf p.toNat).launches ++ [l] ∧ l.ticket = (s.partOf p.toNat).ltick + 1
      ∧ l.desc = v ∧ l.arg = none ∧ l.sup = true ∧ l.pkr = 0 ∧ l.effective = true ∧ l.accepted = false ∧ t.mem = s.mem
      ∧ t.strands = s.strands))
  ∧ (∀ (p : PartNo) (ticket : W64) (s : State) (l : Launch), (s.partOf p.toNat).findLaunch ticket = some l → l.accepted = false →
    l.complete = false →
    (l.effective = true → let s1 := s.acceptLaunch l
      ((∀ l1, (s1.partOf p.toNat).findLaunch ticket = some l1 → l1.preempts = false ∨ l1.status ≠ 0) →
        exec (.launchAccept p ticket) s = .next s1)
      ∧ (∀ l1, (s1.partOf p.toNat).findLaunch ticket = some l1 → l1.preempts = true → l1.status = 0 →
        exec (.launchAccept p ticket) s = .next (s1.preemptNeeded l1)))
    ∧ (l.effective = false → ∀ u k n, s.launchHead p.toNat ticket = some (u, k, n) →
      exec (.launchAccept p ticket) s = .next ((s.pop u k n).acceptLaunch { l with effective := true })))
  ∧ (∀ (s : State) (l : Launch),
    (l.desc.toNat % 64 ≠ 0 → s.acceptLaunch l = (s.setLaunch (l.bad true)).hiveFault l 0x01 l.desc)
    ∧ (l.desc.toNat % 64 = 0 →
      (∀ s1, s.hiveRead l.who l.desc 64 = (none, s1) → s.acceptLaunch l = (s1.setLaunch (l.bad true)).hiveFault l 0x02 l.desc)
      ∧ ∀ h s1, s.hiveRead l.who l.desc 64 = (some h, s1) →
        let n := numAt h 0 8
        let l1 : Launch := { l with crec := BitVec.ofNat 64 (numAt h 8 8), report := BitVec.ofNat 64 (numAt h 0x10 8)
                                    argv := l.arg.getD (BitVec.ofNat 64 (numAt h 0x18 8)) }
        (l1.crec.toNat % 32 ≠ 0 → s.acceptLaunch l = (s1.setLaunch (l1.bad true)).hiveFault l1 0x03 l1.crec)
        ∧ (l1.crec.toNat % 32 = 0 →
          (∀ e s2, s1.translateRange l1.who .write .probe (piecesOf l1.crec 32) = (.error e, s2) →
            s.acceptLaunch l = (s2.setLaunch (l1.bad true)).hiveFault l1 0x04 l1.crec)
          ∧ ∀ hs s2, s1.translateRange l1.who .write .probe (piecesOf l1.crec 32) = (.ok hs, s2) →
            ((n = 0 ∨ 64 < n ∨ 2 ^ 10 ≤ l1.report.toNat ∨ ∃ b ∈ h.drop 0x20, b ≠ 0) → s.acceptLaunch l = s2.setLaunch (l1.bad false))
            ∧ (0 < n → n ≤ 64 → l1.report.toNat < 2 ^ 10 → (∀ b ∈ h.drop 0x20, b = 0) → ∀ r s3,
              s2.readNodes l1 n (List.range n) = (r, s3) →
              (∀ nodes, r = .ok nodes → s.acceptLaunch l
                = s3.setLaunch (if acyclic nodes then { l1 with accepted := true, nodes := nodes } else l1.bad false))
              ∧ (r = .error none → s.acceptLaunch l = s3.setLaunch (l1.bad false))
              ∧ ∀ va, r = .error (some va) → s.acceptLaunch l = (s3.setLaunch (l1.bad true)).hiveFault l1 0x02 va))))
  ∧ (∀ l : Launch, (l.bad true).status = 0x20 ∧ (l.bad true).nodes = [] ∧ (l.bad true).noRecord = true ∧ (l.bad false).noRecord = false)
  ∧ (∀ (p : PartNo) (ticket : W64) (node : BitVec 6) (gang : Nat) (place : List UnitNo) (x : SeqCtx) (s : State) (l : Launch)
      (n : Node), (s.partOf p.toNat).findLaunch ticket = some l → l.nodes[node.toNat]? = some n → n.circ = false →
    place.length = (n.gang gang).length →
    let ps := (n.gang gang).zip (place.map (fun (u : UnitNo) => u.toNat))
    let r : ReadyGang := ⟨p.toNat, ticket, node.toNat, gang, l.prioOf n⟩
    s.placeOk p.toNat n ps = true → s.mayDispatch r = true → s.handlesHeld p.toNat (ps.map Prod.snd) n.bufs = false →
    let s1 := (s.serveRound r).beforeNodes p.toNat ticket node.toNat (ps.map Prod.snd) n.bufs
    exec (.gangDispatch p ticket node gang place x) s = .next ((ps.foldl (fun t q => t.startInstance l node.toNat n none q) s1).setLaunch
      (l.setNode node.toNat { n with gangs := n.gangs ++ [gang] })))
  ∧ (∀ (s : State) (l : Launch) (i num u : Nat) (n : Node), u < 1024 → n.nstr = 1 → n.combo (· == 0) num < 8 →
    let t := (s.startInstance l i n none (num, u)).strand (BitVec.ofNat 10 u) (BitVec.ofNat 3 (n.combo (· == 0) num))
    t.run = .ready ∧ t.pc = n.entry &&& ~~~3 ∧ t.w = [] ∧ t.a = [] ∧ t.p = 1 ∧ t.m = [] ∧ t.lat = [] ∧ t.td = false ∧ t.wid = n.wid num
    ∧ t.widfmt = n.widfmt ∧ t.larg = l.argv ∧ t.circctx = 8 ∧ t.pkr = 0 ∧ t.vwin = 0 ∧ t.lcnt0 = 0 ∧ t.repn = 0
    ∧ t.inst = some ⟨l.part, l.ticket, i, num⟩ ∧ (s.startInstance l i n none (num, u)).mem = s.mem)
  ∧ (∀ (u : UnitNo) (k : StrandNo) (s : State) (i : InstRef), (s.strand u k).inst = some i →
    (∀ j ∈ s.instStrands u i, s.strandOver u j = true) →
    (∀ r < 32, rgnValid ((s.core u).rgnLo r) = true → s.keptRegion u r = false → s.regionHeld u r = false) →
    let ks := s.instStrands u i
    let qs := s.usedQueues u ks
    let s1 := s.evictRegions u (List.range 32)
    let s2 := ks.foldl (fun t j => t.setStrand u j { t.strand u j with inst := none, used := [] }) s1
    exec (.instanceComplete u k) s = .next ((s2.countInstance i (s1.badExit u ks)
        ((qs.findSome? (fun q => let f := ((s1.core u).queue q).doneFault; if f = 0 then none else some f)).getD 0)
        (qs.any (fun q => ((s1.core u).queue q).lastOp != 0x3F))).releaseContexts i.part i.ticket i.node))
  ∧ (∀ (s : State) (u : UnitNo) (k : StrandNo), s.strandDone u k = true → s.strandOver u k = true)
  ∧ (∀ (s : State) (i : InstRef) (l : Launch) (n : Node) (exit : W32) (fault : W64) (quiet : Bool),
    (s.partOf i.part).findLaunch i.ticket = some l → l.nodes[i.node]? = some n → n.failed = false → n.complete = false →
    n.finished.length + 1 < n.total → ∃ n' : Node, s.countInstance i exit fault quiet = s.setLaunch (l.setNode i.node n')
      ∧ n'.finished = n.finished ++ [i.num] ∧ n'.complete = false
      ∧ (n'.failed = true ↔ exit ≠ 0 ∨ fault ≠ 0 ∨ quiet = true) ∧ (n'.failed = true → n'.exitStatus = exit ∧ n'.fault = fault))
  ∧ (∀ (p : PartNo) (ticket : W64) (s : State) (l : Launch), (s.partOf p.toNat).findLaunch ticket = some l → l.accepted = true →
    l.complete = false → l.stopping = false → (∀ n ∈ l.nodes, n.complete = true) → s.recordHeld l = false →
    let done : Launch := { l with complete := true, status := l.finalStatus }
    let s1 := s.cleanHostio p.toNat l
    let last (t : State) : State := ((match l.origin with
      | some u => if l.report.getLsbD 9 then t.arrive (BitVec.ofNat 10 u) (field l.report 8 0) 1 else t
      | none => t.toHost (.launchDone p.toNat ticket)).launchWaiting p.toNat ticket).admitBells p.toNat 256
    (l.noRecord = true → exec (.launchComplete p ticket) s = .next (last (s1.setLaunch done)))
    ∧ (l.noRecord = false → ∀ ok s2, s1.hiveWrite l.who l.crec (l.record s1.ptime) = (ok, s2) →
      exec (.launchComplete p ticket) s = .next (last (if ok then s2.setLaunch done
        else (s2.setLaunch { done with noRecord := true }).hiveFault l 0x04 l.crec))))
  ∧ (∀ (l : Launch) (now : W64), (l.record now).length = 32 ∧ numAt (l.record now) 0 8 = l.ticket.toNat
    ∧ numAt (l.record now) 8 1 = l.finalStatus.toNat ∧ numAt (l.record now) 0x18 8 = now.toNat
    ∧ (l.status ≠ 0 → l.finalStatus = l.status) ∧ (l.status = 0 → l.firstFailed = none → l.cancelled = false → l.finalStatus = 0)
    ∧ ∀ i n, l.status = 0 → l.firstFailed = some (i, n) → l.finalStatus = (if n.noNotify then 0x23 else 0x21))
  ∧ (∀ (e : BitVec 10) (s : State) (at_ : Nat), (s.slotEntry e.toNat).due = some at_ → at_ ≤ s.ptime.toNat →
    s.waitingFree (s.slotEntry e.toNat) = false →
    let x := { s.slotEntry e.toNat with next := (s.slotEntry e.toNat).next + 1 }
    let s1 := s.setSlot e.toNat x
    ((s.partOf x.part).frozen = true → exec (.launchSlot e) s = .next (s1.setSlot e.toNat x.overrun.missed))
    ∧ ((s.partOf x.part).frozen = false → (s1.lastOpen x = none ∧ x.waiting = false →
        exec (.launchSlot e) s = .next (s1.launchEntry e.toNat false))
      ∧ ((s1.lastOpen x ≠ none ∨ x.waiting = true) → exec (.launchSlot e) s = .next (s1.slotOverrun e.toNat))))
  ∧ (∀ (e : BitVec 10) (s : State), s.waitingFree (s.slotEntry e.toNat) = true →
    exec (.launchSlot e) s = .next (s.launchEntry e.toNat (s.slotEntry e.toNat).full.isNone))
  ∧ (∀ (s : State) (e : Nat) (late : Bool), let x := s.slotEntry e
    (256 ≤ (s.partOf x.part).openLaunches → s.launchEntry e late
        = s.setSlot e { x with waiting := true, full := if late then none else some s.ptime })
    ∧ ((s.partOf x.part).openLaunches < 256 → ∃ l, ((s.launchEntry e late).partOf x.part).launches
        = (s.partOf x.part).launches ++ [l]
      ∧ l.ticket = (s.partOf x.part).ltick + 1 ∧ l.desc = BitVec.signExtend 64 (BitVec.ofNat 57 x.w1.toNat) ∧ l.sup = true
      ∧ l.pkr = 0 ∧ l.slot = (if late then none else some e) ∧ l.at_ = x.full.getD s.ptime ∧ l.prio = some (BitVec.ofNat 3 (field x.w0 5 3))
      ∧ (s.launchEntry e late).slotEntry e = { x with last := some l.ticket, waiting := false, full := none }
      ∧ (s.launchEntry e late).mem = s.mem))
  ∧ (∀ (s : State) (e : Nat), let y := (s.slotEntry e).overrun
    (y.pol = 1 → s.slotOverrun e = s.setSlot e y.missed)
    ∧ (y.pol = 2 → s.slotOverrun e = ((s.setSlot e y).preemptLast y).launchEntry e true)
    ∧ (y.pol = 0 → s.slotWaits y = false → s.lastOpen y = none → s.slotOverrun e = (s.setSlot e y).launchEntry e true)
    ∧ (y.pol = 0 → s.slotWaits y = true → s.slotOverrun e = s.setSlot e y.missed)
    ∧ (y.pol = 0 → s.slotWaits y = false → s.lastOpen y ≠ none → s.slotOverrun e = s.setSlot e { y with waiting := true }))
  ∧ (∀ x : SlotEntry, (field x.w3 47 32 < 0xFFFF → field x.overrun.w3 47 32 = field x.w3 47 32 + 1)
    ∧ (field x.w3 63 48 < 0xFFFF → field x.missed.w3 63 48 = field x.w3 63 48 + 1) ∧ x.overrun.w0 = x.w0 ∧ x.missed.w0 = x.w0)
  ∧ (∀ (e : BitVec 10) (s : State) (l : Launch), s.lastOpen (s.slotEntry e.toNat) = some l → l.slot ≠ none →
    (s.slotEntry e.toNat).full = none → (∀ n ∈ l.nodes, n.gangs = []) → l.at_.toNat + 250 < s.ptime.toNat → (l.accepted = false ∨ l.status = 0) →
    let x := s.slotEntry e.toNat
    let s1 := s.setLaunch { l with slot := none }
    (x.pol = 0 → exec (.launchSlotDispatchTimeout e) s = .next (s1.setSlot e.toNat x.overrun))
    ∧ (x.pol = 1 → exec (.launchSlotDispatchTimeout e) s = .next (((s1.setLaunch
        { l with slot := none, complete := true, cancelled := true, status := 0x22 }).setSlot e.toNat x.overrun.missed).admitBells
          x.part 256))
    ∧ (x.pol = 2 → l.accepted = true → exec (.launchSlotDispatchTimeout e) s
        = .next ((s1.setSlot e.toNat x.overrun).preemptNeeded { l with slot := none }))
    ∧ (x.pol = 2 → l.accepted = false → exec (.launchSlotDispatchTimeout e) s
        = .next ((s1.setSlot e.toNat x.overrun).setLaunch { l with slot := none, preempts := true })))
  ∧ (∀ (e : BitVec 10) (s : State) (t : W64), let x := s.slotEntry e.toNat
    x.full = some t → (t.toNat + 250 < s.ptime.toNat → exec (.launchSlotDispatchTimeout e) s
      = .next ((s.setSlot e.toNat { x with waiting := false, full := none }).slotOverrun e.toNat))
    ∧ (s.ptime.toNat ≤ t.toNat + 250 → exec (.launchSlotDispatchTimeout e) s = .next s))
  ∧ (∀ (p : PartNo) (ticket : W64) (s : State) (l : Launch), (s.partOf p.toNat).findLaunch ticket = some l → l.part = p.toNat →
    l.inFlight = true → l.stopUnits = [] → (∃ e ∈ s.launchStrands p.toNat ticket, e.1 / 8 < 560) →
    ∃ t, exec (.preempt p ticket) s = .next t ∧ t.mem = s.mem ∧ t.units = s.units
      ∧ (∃ l', (t.partOf p.toNat).findLaunch ticket = some l' ∧ l'.stopping = true ∧ l'.nodes = l.nodes
        ∧ ∀ v, v ∈ l'.stopUnits ↔ v < 560 ∧ ∃ e ∈ s.launchStrands p.toNat ticket, e.1 / 8 = v)
      ∧ ∀ v j, (t.strand v j).pc = (s.strand v j).pc ∧ (t.strand v j).run = (s.strand v j).run ∧ (t.strand v j).w = (s.strand v j).w)
  ∧ (∀ (p : PartNo) (ticket : W64) (s : State), (s.partOf p.toNat).findLaunch ticket = none →
    s.ruleStrands p.toNat ≠ [] → (s.partOf p.toNat).stopRules = none →
    exec (.preempt p ticket) s = .next (s.setPart p.toNat { s.partOf p.toNat with stopRules := some ticket }))
  ∧ (∀ (p : PartNo) (ticket : W64) (s : State), (s.partOf p.toNat).findLaunch ticket = none → (s.partOf p.toNat).stopRules = some ticket →
    let all := ((s.ruleStrands p.toNat).map (fun e => e.1 / 8)).eraseDups
    (∃ u ∈ all, s.launchOn u = true) →
    exec (.preemptStop p ticket) s = .next ((all.filter (fun u => !s.launchOn u)).foldl (setStopped true) s))
  ∧ (∀ (p : PartNo) (ticket : W64) (s : State) (l : Launch), (s.partOf p.toNat).findLaunch ticket = some l → l.stopping = true →
    let mine := (s.launchStrands p.toNat ticket).filter (fun e => l.stopUnits.contains (e.1 / 8))
    let us := (mine.map (fun e => e.1 / 8)).eraseDups
    let s1 := (l.stopUnits.filter (fun u => !us.contains u)).foldl (setStopped false) s
    let l' : Launch := { l with stopping := false, stopUnits := [], noticeAt := [] }
    (s.noticeOver p.toNat l mine = false → exec (.preemptStop p ticket) s = .next s)
    ∧ (s.noticeOver p.toNat l mine = true → mine = [] → exec (.preemptStop p ticket) s = .next (s1.setLaunch l'))
    ∧ (s.noticeOver p.toNat l mine = true → mine ≠ [] →
      (∀ t, s1.stopOrSave p.toNat ticket us mine = some t →
        exec (.preemptStop p ticket) s = .next (t.setLaunch { l' with saved := true }))
      ∧ (s1.stopOrSave p.toNat ticket us mine = none → exec (.preemptStop p ticket) s = .next (us.foldl (setStopped true) s1))))
  ∧ (∀ (s : State) (p : Nat) (ticket : W64) (us : List Nat) (mine : Table Strand), let s1 := us.foldl (setStopped true) s
    ((us.all s1.unitQuiet = false ∨ s1.pairsQuiet p = false) → s.stopOrSave p ticket us mine = none)
    ∧ (us.all s1.unitQuiet = true → s1.pairsQuiet p = true → s.stopOrSave p ticket us mine = some (s1.saveUnits p ticket us
        (mine ++ (s1.ruleStrands p).filter (fun e => us.contains (e.1 / 8))))))
  ∧ (∀ (s : State) (p : Nat) (ticket : W64) (us : List Nat) (mine : Table Strand), let t := s.saveUnits p ticket us mine
    (∃ v, (t.partOf p).saved = (s.partOf p).saved ++ [v] ∧ v.ticket = ticket ∧ v.id = s.tick ∧ v.units = us
      ∧ v.strands = mine.map s.stoppedStrand ∧ v.spads = us.map (fun u => (u, spadOf s.mem u))
      ∧ v.pairs = (us.flatMap pairsOfUnit).map (fun n => (n, (s.nameSaved p s.tick mine).pairOf n)))
    ∧ ∀ e ∈ mine, t.strand (BitVec.ofNat 10 (e.1 / 8)) (BitVec.ofNat 3 e.1) = Strand.reset)
  ∧ (∀ (p : PartNo) (ticket : W64) (place : List UnitNo) (s : State) (v : Saved),
    (s.partOf p.toNat).saved.find? (fun y => y.ticket == ticket) = some v →
    let vs := place.map (fun (u : UnitNo) => u.toNat)
    let ok := (s.freeSaved v.units).restoreOk p.toNat ((s.partOf p.toNat).findLaunch ticket) v vs
    (ok = true → exec (.restore p ticket place) s = .next (s.restoreTo p.toNat v vs))
    ∧ (ok = false → exec (.restore p ticket place) s = .next s))
  ∧ (∀ (s : State) (p : Nat) (v : Saved) (key : Nat) (t : Strand), v.strands = [(key, t)] → key < 8192 →
    v.units = [key / 8] → t.invs = [] → ∃ ctx,
    (s.restoreTo p v [key / 8]).strand (BitVec.ofNat 10 (key / 8)) (BitVec.ofNat 3 key) = t.restored (key / 8) (key / 8) ctx)
  ∧ (∀ (t : Strand) (u v : Nat) (ctx : List (Nat × Seq)), let r := t.restored u v ctx
    r.promise = BitVec.allOnes 64 ∧ r.run = t.run ∧ r.pc = t.pc ∧ r.w = t.w ∧ r.a = t.a ∧ r.p = t.p ∧ r.m = t.m ∧ r.lat = t.lat
    ∧ r.td = t.td ∧ r.pkr = t.pkr ∧ r.inst = t.inst ∧ r.repSkip = t.repSkip ∧ r.held = t.held
    ∧ r.lq.map (·.seq) = t.lq.map (·.seq) ∧ r.sq.map (·.seq) = t.sq.map (·.seq) ∧ (t.circctx = 8 → r.corig = t.corig))

/-! ### The host's register writes, package time and lanes -/

/-- R343 to R347, R379, R388, R390, R399, R400, R411: what a host write of each register does, which writes leave the
register unchanged, and how a port's lanes are lent and serve its queues. The model's choices: a correction by IEEE 1588
has the sign opposite to the measured offset (log entry 32), and a second write of PTOFF replaces what was left (log entry 73);
reserved values written to PTCTL, PCFG and a launch-table entry leave the register (log entry 42); KSW and FECCTL of a link that is
down change nothing (log entry 64); when a port's mode takes effect and to which destination a lane turns (log entry 65); and when a
virtual function may be reassigned and which words of a key slot are kept (log entry 66). -/
def Obligations.HostRegisterWritesAndLanes : Prop :=
  (∀ (u : BitVec 10) (v : W64) (s : State), s.isUp = true → u.toNat < 560 →
    let old := Table.get 0 s.assign.unit u.toNat
    let w := v &&& 0x13F
    let refused := ((field old 5 0 ≠ field w 5 0 ∧ (s.unitIdle u.toNat = false ∨ s.unitSaved u.toNat = true)) ∨ (w.getLsbD 8 = true ∧
      (w.getLsbD 5 = false ∨ ∃ e ∈ s.assign.unit, e.1 ≠ u.toNat ∧ e.2.getLsbD 8 = true ∧ e.2.getLsbD 5 = true ∧ field e.2 4 0 = field w 4 0)))
    (refused → exec (.unitpartWrite u v) s = .next s)
    ∧ (¬refused → exec (.unitpartWrite u v) s = .next { s with assign := { s.assign with unit := Table.set s.assign.unit u.toNat w } }))
  ∧ (∀ (k : BitVec 7) (v : W64) (s : State), s.isUp = true → k.toNat < 80 →
    let old := Table.get 0 s.assign.oport k.toNat
    let w := v &&& 0x3F3F
    let refused := ((field old 5 0 ≠ field w 5 0 ∧ s.portUsed k.toNat false = true)
      ∨ (field old 13 8 ≠ field w 13 8 ∧ s.portUsed k.toNat true = true))
    (refused → exec (.oportpartWrite k v) s = .next s)
    ∧ (¬refused → exec (.oportpartWrite k v) s = .next { s with assign := { s.assign with oport := Table.set s.assign.oport k.toNat w } }))
  ∧ (∀ (x : BitVec 3) (v : W64) (s : State), s.isUp = true →
    let old := Table.get 0 s.assign.seq x.toNat
    let w := v &&& 0x3F
    let refused := (field old 5 0 ≠ field w 5 0 ∧ ((s.seqOf x.toNat).loaded = true ∨ s.seqSaved x.toNat = true))
    (refused → exec (.seqpartWrite x v) s = .next s)
    ∧ (¬refused → exec (.seqpartWrite x v) s = .next { s with assign := { s.assign with seq := Table.set s.assign.seq x.toNat w } }))
  ∧ (∀ (n : BitVec 9) (v : W64) (s : State), s.isUp = true → n.toNat < 384 → field v 16 8 < 384 →
    let w := v &&& 0x1FF3F
    let taken := (w.getLsbD 5 = true ∧ ∃ e ∈ s.assign.vf, e.1 ≠ n.toNat ∧ e.2.getLsbD 5 = true ∧ field e.2 4 0 = field w 4 0
      ∧ field e.2 16 8 = field w 16 8)
    (taken → exec (.vfpartWrite n v) s = .next s)
    ∧ (¬taken → exec (.vfpartWrite n v) s = .next { s with assign := { s.assign with vf := Table.set s.assign.vf n.toNat w } }))
  ∧ (∀ (p : PartNo) (v : W64) (s : State), s.isUp = true → p.toNat < 32 →
    let x := s.partOf p.toNat
    (∃ y : Part, exec (.policyWrite p v) s = .next (s.setPart p.toNat y) ∧ y.replay = v.getLsbD 0 ∧ y.rcnt.toNat = field v 4 1
      ∧ (y.frozen = true ↔ x.frozen = true ∧ v.getLsbD 5 = true) ∧ (field v 15 8 ≠ 0 → y.weight.toNat = field v 15 8)
      ∧ (field v 15 8 = 0 → y.weight = 1) ∧ y.frt = x.frt ∧ y.launches = x.launches)
    ∧ (∃ r : W64, exec (.frtWrite p v) s = .next (s.setPart p.toNat { x with frt := r })
      ∧ ∀ c, 1 ≤ c → c ≤ 17 → field r (2 * c + 1) (2 * c)
        = if routeAllowed c (field v (2 * c + 1) (2 * c)) then field v (2 * c + 1) (2 * c) else field x.frt (2 * c + 1) (2 * c))
    ∧ ∀ c : BitVec 14,
      (s.counterPart c.toNat = p.toNat → s.partRuns p.toNat = false → s.fabric.frozenCounters.contains c.toNat = false →
        exec (.cntWrite p c v) s = .next { s with fabric := { s.fabric with counters := Table.set s.fabric.counters c.toNat v } })
      ∧ ((s.counterPart c.toNat ≠ p.toNat ∨ s.partRuns p.toNat = true) → exec (.cntWrite p c v) s = .next s))
  ∧ (∀ (p : PartNo) (r : PairRef) (v : W64) (s : State), s.isUp = true → p.toNat < 32 → s.pairPart (PairRef.no r) = p.toNat →
    let n := PairRef.no r
    let q := s.pairOf n
    let c := v &&& 0x7FFFFFFFF
    ((q.posted ≠ q.retired → exec (.qpcfgWrite p r v) s = .next s)
      ∧ (q.posted = q.retired → (v.getLsbD 0 = false ∨ q.cfg.getLsbD 0 = true) →
        exec (.qpcfgWrite p r v) s = .next (s.setPair n { q with cfg := c }))
      ∧ (q.posted = q.retired → v.getLsbD 0 = true → q.cfg.getLsbD 0 = false → exec (.qpcfgWrite p r v) s
        = .next (s.setPair n { q with cfg := c, posted := 0, armlim := 0, retired := 0, fired := 0, caps := [], out := [] })))
    ∧ (let fits := (q.posted = q.retired ∧ 4 ≤ field v 24 21 ∧ field v 24 21 ≤ 10 ∧ field v 5 0 = 0
        ∧ field v 20 0 + 64 * 2 ^ field v 24 21 ≤ 2 ^ 21)
      (fits → exec (.qpringWrite p r v) s = .next (s.setPair n { q with ring := v &&& 0x1FFFFFF }))
      ∧ (¬fits → exec (.qpringWrite p r v) s = .next s))
    ∧ exec (.qperrWrite p r v) s = .next (s.setPair n { q with err := if v.getLsbD 0 then q.err else q.err &&& ~~~1 }))
  ∧ (∀ (off : BitVec 40) (v : W64) (s : State), s.isUp = true →
    (off.toNat % 8 = 0 → off.toNat < 2 ^ 37 →
      exec (.apertureWrite off v) s = .next (s.partWrite (off.toNat / 2 ^ 32) (off.toNat % 2 ^ 32) v))
    ∧ (off.toNat % 8 = 0 → 2 ^ 39 ≤ off.toNat → exec (.apertureWrite off v) s = .next (s.moduleWrite (off.toNat - 2 ^ 39) v)))
  ∧ (∀ (s : State) (p : Nat) (v : W64), let x := s.partOf p
    s.partWrite p 0x00 v = s.writePolicy p v ∧ s.partWrite p 0x08 v = s.writeFrt p v
    ∧ s.partWrite p 0x10 v = s.setPart p { x with flog := v &&& 0x01FFFFFFFFFFFFFF }
    ∧ s.partWrite p 0x18 v = s.setPart p { x with frlog := v &&& 0x01FFFFFFFFFFFFFF }
    ∧ s.partWrite p 0x20 v = s ∧ s.partWrite p 0x28 v = s.setPart p { x with save := v &&& 0x01FFFFFFFFFFF000 }
    ∧ s.partWrite p 0x30 v = s.setPart p { x with pnwin := v.setWidth 32 } ∧ s.partWrite p 0x38 v = s
    ∧ (∀ n, n < 384 → s.partWrite p (0x1000 + 8 * n) v = s.doorbell p v)
    ∧ (∀ c, c < 16384 → s.partWrite p (0x300000 + 8 * c) v = s.writeCounter p c v)
    ∧ ∀ h k, h < 4096 → k < 4 → s.partWrite p (0x100000 + 32 * h + 8 * k) v = s.writeHandle p h k v)
  ∧ (∀ (v : W64) (s : State), s.isUp = true →
    ((field v 1 0 = 3 ∨ 15 < field v 7 2) → exec (.ptctlWrite v) s = .next s)
    ∧ (field v 1 0 ≠ 3 → field v 7 2 ≤ 15 →
      let s1 : State := { s with clock := { s.clock with ptctl := v &&& 0x1FF } }
      ((v.getLsbD 8 = false ∨ s.clock.ptoff.toInt ≤ 0) → exec (.ptctlWrite v) s = .next s1)
      ∧ (v.getLsbD 8 = true → 0 < s.clock.ptoff.toInt →
        exec (.ptctlWrite v) s = .next (let s2 : State := { s1 with ptime := s.ptime + s.clock.ptoff, clock := { s1.clock with slew := 0, frac := 0 } }
          let s3 := (List.range 8).foldl (fun (t : State) x => t.passBoundary t.ptime.toNat x) s2
          ((s3.slotTable.map Prod.fst).foldl (fun (t : State) e => t.passSlots t.ptime.toNat e) s3).fabricDue)))
    ∧ (field s.clock.ptctl 1 0 = 2 →
      exec (.ptoffWrite v) s = .next { s with clock := { s.clock with ptoff := v, slew := v.toInt } })
    ∧ (field s.clock.ptctl 1 0 ≠ 2 → exec (.ptoffWrite v) s = .next { s with clock := { s.clock with ptoff := v } }))
  ∧ (∀ (s : State) (now x c : Nat), let q := s.seqOf x
    0 < q.step → q.next = some c → q.loaded = true → q.status = 0 → q.boundary c < now → ∃ n : Nat, now ≤ q.boundary n
      ∧ (∀ m < n, q.boundary m < now)
      ∧ (s.passBoundary now x).optics.late.toNat = Nat.min (s.optics.late.toNat + (n - c)) 65535
      ∧ s.passBoundary now x = (List.range (Nat.min (n - c) 65540)).foldl (fun (t : State) _ =>
        ({ t with optics := { t.optics with late := satInc t.optics.late } }).seqFault x clsSeqLate 0 (circSubject x 0 0 0))
        (s.setSeq x { q with next := some n }))
  ∧ (∀ (off : BitVec 32) (port : BitVec 4) (s : State),
    ((field s.clock.ptctl 1 0 ≠ 1 ∨ field s.clock.ptctl 7 2 ≠ port.toNat) → exec (.ptpMessage off port) s = .next s)
    ∧ (field s.clock.ptctl 1 0 = 1 → field s.clock.ptctl 7 2 = port.toNat → ∃ c : Clock, exec (.ptpMessage off port) s = .next { s with clock := c }
      ∧ c.ptstat = off.setWidth 64 ∧ c.slew = -off.toInt ∧ c.ptctl = s.clock.ptctl ∧ c.ptoff = s.clock.ptoff
      ∧ c.within = (if off.toInt.natAbs ≤ 100 then some (s.clock.within.getD s.ptime) else none)))
  ∧ (∀ (c : Clock) (now : W64), field (c.status now) 31 0 = c.ptstat.toNat % 2 ^ 32 ∧ field (c.status now) 63 33 = 0
    ∧ ((c.status now).getLsbD 32 = true ↔ ∃ t, c.within = some t ∧ t.toNat + 10 ^ 9 ≤ now.toNat))
  ∧ (∀ (p : BitVec 4) (v : W64) (s : State), s.isUp = true →
    (field v 1 0 = 3 → exec (.pcfgWrite p v) s = .next s)
    ∧ (field v 1 0 ≠ 3 → exec (.pcfgWrite p v) s
      = .next { s with fabric := { s.fabric with pcfgNext := Table.set s.fabric.pcfgNext p.toNat (v &&& 7) } }))
  ∧ (∀ (l : LinkRef) (v : W64) (s : State), s.isUp = true →
    let n := LinkRef.key l
    ((v.getLsbD 0 = false ∨ (s.link n).up = false) → exec (.kswWrite l v) s = .next s)
    ∧ (v.getLsbD 0 = true → (s.link n).up = true → let s1 := s.sendOwn n typeKeysw .none
      ((s1.link n).up = true → exec (.kswWrite l v) s = .next (s1.setLink n { s1.link n with txSlot := !(s1.link n).txSlot }))
      ∧ ((s1.link n).up = false → exec (.kswWrite l v) s = .next s1))
    ∧ let c : BitVec 2 := v.setWidth 2
      ((2 ≤ c.toNat ∨ (s.link n).up = false) → exec (.fecctlWrite l v) s = .next s)
      ∧ (c.toNat < 2 → (s.link n).up = true → let s1 := s.sendOwn n typePropose (.fec c)
        ((s1.link n).up = true → (s1.link n).fecProp = none →
          exec (.fecctlWrite l v) s = .next (s1.setLink n { s1.link n with fecProp := some (c, s1.ptime) }))
        ∧ (((s1.link n).up = false ∨ (s1.link n).fecProp ≠ none) → exec (.fecctlWrite l v) s = .next s1)))
  ∧ (∀ (rx : Bool) (l : LinkRef) (slot : Bool) (k : BitVec 3) (v : W64) (s : State), s.isUp = true →
    ∃ t : State, exec (.keySlotWrite rx l slot k v) s = .next t
      ∧ (let n := slotKey (LinkRef.key l) slot
        if rx then t.fabric.keyRx = Table.set s.fabric.keyRx n ((Table.get KeySlot.reset s.fabric.keyRx n).put k.toNat v)
            ∧ t.fabric.keyTx = s.fabric.keyTx
        else t.fabric.keyTx = Table.set s.fabric.keyTx n ((Table.get KeySlot.reset s.fabric.keyTx n).put k.toNat v)
            ∧ t.fabric.keyRx = s.fabric.keyRx)
      ∧ t.fabric.links = s.fabric.links ∧ t.mem = s.mem)
  ∧ (∀ (x : KeySlot) (k : Nat) (v : W64),
    (k < 4 → (x.put k v).counter = 0 ∧ (x.put k v).salt = x.salt ∧ (x.put k v).key.toNat / 2 ^ (64 * k) % 2 ^ 64 = v.toNat)
    ∧ (k = 4 → (x.put k v).counter = 0 ∧ (x.put k v).key = x.key ∧ (x.put k v).salt = v.setWidth 32))
  ∧ (∀ (e : BitVec 2) (s : State), (s.ptime.toNat % 2000 ≠ 0 ∨ (Table.has s.fabric.lent e.toNat = true
      ∧ Table.get 0 s.fabric.lent e.toNat = s.ptime)) → exec (.lendingBoundary e) s = .next s)
  ∧ (∀ (e : BitVec 2) (s0 : State), s0.ptime.toNat % 2000 = 0 →
    ¬(Table.has s0.fabric.lent e.toNat = true ∧ Table.get 0 s0.fabric.lent e.toNat = s0.ptime) →
    let s : State := { s0 with fabric := { s0.fabric with lent := Table.set s0.fabric.lent e.toNat s0.ptime } }
    let ports := (List.range 4).map (4 * e.toNat + ·)
    let f := (ports.foldl (fun t p => t.applyMode p) s).fabric
    let mode (p : Nat) := field (Table.get 0 f.pcfg p) 1 0
    let eth := (ports.filter (fun p => mode p == 2)).map (fun p => (p, if bit (Table.get 0 f.pcfg p) 2 then 8 else 4))
    let pods := (ports.filter (fun p => mode p == 1 && Table.get false f.portUp p)).foldl
      (fun l p => insertShare ⟨p, Nat.min (256 * (f.waiting p).1) (2 ^ 32 - 1), (f.waiting p).2, 0⟩ l) []
    let shares := (allocate (64 - (eth.map Prod.snd).foldl (· + ·) 0) pods).map (fun x => (x.port, x.n))
    ∃ t : State, exec (.lendingBoundary e) s0 = .next t ∧ t.fabric.lent = s.fabric.lent ∧ t.fabric.lanes = (assignLanes f e.toNat (eth ++ shares) (s.ptime + 32)).lanes
      ∧ t.fabric.egress = s.fabric.egress ∧ t.mem = s.mem ∧ t.units = s.units)
  ∧ (∀ (e : BitVec 2) (n : BitVec 6) (s : State) (p : Nat),
    let x := s.fabric.lane e.toNat n.toNat
    x.port = some p → field (Table.get 0 s.fabric.pcfg p) 1 0 = 1 → x.ready.toNat ≤ s.ptime.toNat →
    (x.count < 16 → (s.fabric.queue p x.dest).isEmpty = false →
      let y : Lane := { x with count := if (s.fabric.queue p x.dest).length = 1 then 16 else x.count + 1 }
      let s1 : State := { s with fabric := s.fabric.setLane e.toNat n.toNat y }
      exec (.laneServe e n) s = .next (s1.serve e.toNat p x.dest))
    ∧ ((16 ≤ x.count ∨ (s.fabric.queue p x.dest).isEmpty = true) →
      (∀ d, s.fabric.nextQueue e.toNat n.toNat p x.dest = some d → d ≠ x.dest → exec (.laneServe e n) s
        = .next { s with fabric := s.fabric.setLane e.toNat n.toNat { x with dest := d, count := 0, ready := s.ptime + 16 } })
      ∧ (s.fabric.nextQueue e.toNat n.toNat p x.dest = some x.dest → exec (.laneServe e n) s
        = .next { s with fabric := s.fabric.setLane e.toNat n.toNat { x with count := 0 } })
      ∧ (s.fabric.nextQueue e.toNat n.toNat p x.dest = none → exec (.laneServe e n) s
        = .next { s with fabric := s.fabric.setLane e.toNat n.toNat { x with count := 16 } })))

/-! ### Pod links -/

namespace Sys2Proof.Machine

/-- A flit of a link that is next in SEQ order and passes every check under the active receive slot (R385, R387). -/
def FlitNext (r : LinkRef) (f : Flit) (s : State) : Prop :=
  (s.link (LinkRef.key r)).up = true ∧ f.seq = (s.link (LinkRef.key r)).rxSeq
    ∧ s.flitOk (LinkRef.key r) (s.link (LinkRef.key r)).rxSlot f = true

/-- The receiver has taken the flit: the next SEQ is due, and the flit is acknowledged. -/
def State.acked (s : State) (r : LinkRef) (f : Flit) : State :=
  (s.setLink (LinkRef.key r) { s.link (LinkRef.key r) with rxSeq := f.seq + 1, discarding := false }).sendAnswer (LinkRef.key r) typeAck f.seq

end Sys2Proof.Machine

/-- R383, R385 to R393, R395, R425, R428: sealing, answering and resending flits, what each TYPE does where it arrives, link
loss, time limits, and Ethernet packets. What a payload holds, and that answers leave on port 0, is the model's choice (log
entry 22), and so are what an ACK or NAK carries and which flits get one (log entry 63), what is lost with a link (log entry 64),
which duplicates Ethernet drops (log entry 65), the port that a LINK fault without a failed flit names (log entry 87), and how the
contexts of Ultra Ethernet come to be (log entry 89). -/
def Obligations.FlitsLinksAndPackets : Prop :=
  (∀ (r : LinkRef) (f : Flit) (s : State), FlitNext r f s →
    let s1 := s.acked r f
    let e := r.engine.toNat
    let l := LinkRef.key r
    (f.type = typeData → f.dst = s1.fabric.modnum → exec (.flitData r f) s = .next (s1.takeData e f))
    ∧ (f.type = typeData → f.dst ≠ s1.fabric.modnum → exec (.flitData r f) s = .next (s1.post (4 * e + f.fibre.toNat) (flitOut f)))
    ∧ (f.type = typeReq → f.dst = s1.fabric.modnum → exec (.req r f) s = .next (s1.reqCame e f))
    ∧ (f.type = typeReq → f.dst ≠ s1.fabric.modnum → exec (.req r f) s = .next (s1.post (4 * e + f.fibre.toNat) (flitOut f)))
    ∧ (f.type = typeResp → f.dst = s1.fabric.modnum → exec (.resp r f) s = .next (s1.takeResp f))
    ∧ (f.type = typeResp → f.dst ≠ s1.fabric.modnum → exec (.resp r f) s = .next (s1.post (4 * e + f.fibre.toNat) (flitOut f)))
    ∧ (f.type = typeKeysw → exec (.keysw r f) s = .next (s1.setLink l { s1.link l with rxSlot := !(s1.link l).rxSlot }))
    ∧ (∀ c, f.type = typePropose → f.msg = .fec c →
      (2 ≤ c.toNat ∨ (s1.link l).fecAcc ≠ none → exec (.propose r f) s = .next (s1.sendOwn l typeDecline (.fec c)))
      ∧ (c.toNat < 2 → (s1.link l).fecAcc = none → exec (.propose r f) s
        = .next ((s1.setLink l { s1.link l with fecAcc := some (c, s1.ptime) }).sendOwn l typeAccept (.fec c))))
    ∧ (∀ c t, f.type = typeAccept → f.msg = .fec c → (s1.link l).fecProp = some (c, t) →
      (t.toNat + 4000 < s1.ptime.toNat → exec (.accept r f) s
        = .next ((s1.setLink l { s1.link l with fecProp := none, fecOut := 2 }).linkFault l 0 linkFecTimeout))
      ∧ (s1.ptime.toNat ≤ t.toNat + 4000 → let s2 := s1.sendOwn l typeCommit (.fec c)
        (s2.link l).up = true →
        ∃ t : State, exec (.accept r f) s = .next t ∧ t.link l = { s2.link l with fecTx := c, fecProp := none, fecOut := 1 }
          ∧ t.mem = s2.mem ∧ t.fabric.wire = s2.fabric.wire))
    ∧ (∀ c t, f.type = typeCommit → f.msg = .fec c → (s1.link l).fecAcc = some (c, t) →
      exec (.fecCommit r f) s = .next (s1.setLink l { s1.link l with fecRx := c, fecAcc := none }))
    ∧ (f.type = typeDecline → exec (.decline r f) s = .next (s1.setLink l { s1.link l with fecProp := none, fecOut := 3 })))
  ∧ (∀ (r : LinkRef) (f : Flit) (s : State) (i : Instr),
    (i, f.type) ∈ [(.flitData r f, typeData), (.resp r f, typeResp), (.keysw r f, typeKeysw), (.propose r f, typePropose),
      (.accept r f, typeAccept), (.fecCommit r f, typeCommit), (.decline r f, typeDecline)] →
    let l := LinkRef.key r
    let x := s.link l
    let older := f.seq ≠ x.rxSeq ∧ (x.rxSeq - f.seq).toNat < 2 ^ 31
    (x.up = false → exec i s = .next s)
    ∧ (x.up = true → f.seq = x.rxSeq → s.flitOk l x.rxSlot f = false →
      exec i s = .next ((s.setLink l { x with discarding := true }).sendAnswer l typeNak x.rxSeq))
    ∧ (x.up = true → older → s.flitOk l f.ks f = true → exec i s = .next (s.sendAnswer l typeAck f.seq))
    ∧ (x.up = true → f.seq ≠ x.rxSeq → ¬older → s.flitOk l x.rxSlot f = true → exec i s = .next s))
  ∧ (∀ (s : State) (l : Nat) (slot : Bool) (f : Flit), s.flitOk l slot f = true ↔
    let k := Table.get KeySlot.reset s.fabric.keyRx (slotKey l slot)
    (k.key ≠ 0 ∨ k.salt ≠ 0) ∧ f.key = k.key ∧ f.salt = k.salt ∧ f.ks = slot ∧ f.intact = true ∧ typeKnown f.type = true
      ∧ f.reserved = 0 ∧ f.len.toNat ≤ 224 ∧ f.hop = s.fabric.modnum)
  ∧ (∀ (s : State) (l : Nat) (f : Flit), let k := s.txKey l f.ks
    (2 ^ 32 ≤ k.counter.toNat → (s.link l).up = true → s.transmit l f = (f, s.downLink l f.fibre.toNat linkKeyExhausted))
    ∧ (k.counter.toNat < 2 ^ 32 → (s.link l).up = true →
      ∃ t : State, (s.transmit l f).2 = (if k.counter.toNat + 1 = 2 ^ 31 then t.linkFault l f.fibre.toNat linkKeyLow else t)
        ∧ (s.transmit l f).1.counter = k.counter ∧ (s.transmit l f).1.key = k.key ∧ (s.transmit l f).1.salt = k.salt
        ∧ (s.transmit l f).1.seq = f.seq ∧ t.fabric.wire = (l, (s.transmit l f).1) :: s.fabric.wire
        ∧ (t.txKey l f.ks).counter = k.counter + 1 ∧ t.fabric.links = s.fabric.links ∧ t.mem = s.mem))
  ∧ (∀ (s : State) (l fibre : Nat) (type : Byte) (src dst : BitVec 6) (m : FabMsg),
    let x := s.link l
    let p := s.transmit l (s.newFlit l fibre type src dst x.txSeq m)
    (p.2.link l).up = true → s.sendFlit l fibre type src dst m = p.2.setLink l { p.2.link l with
      txSeq := x.txSeq + 1, flights := (p.2.link l).flights ++ [{ flit := p.1, first := p.2.ptime, sent := p.2.ptime, fails := 0 }] })
  ∧ (∀ (r : LinkRef) (f : Flit) (s : State), let l := LinkRef.key r
    (s.link l).up = true → s.flitOk l f.ks f = true →
    (f.type = typeAck → (s.link l).flightOf f.seq = none → exec (.flitAck r f) s = .next s)
    ∧ (∀ n g, f.type = typeAck → (s.link l).flightOf f.seq = some n → (s.link l).flights[n]? = some g →
      (g.first.toNat + 4000 < s.ptime.toNat → exec (.flitAck r f) s = .next (s.downLink l g.flit.fibre.toNat linkNoAck))
      ∧ (s.ptime.toNat ≤ g.first.toNat + 4000 → g.sent.toNat + 1000 < s.ptime.toNat →
        exec (.flitAck r f) s = .next (s.failFlight l n linkNoAck))
      ∧ (s.ptime.toNat ≤ g.first.toNat + 4000 → s.ptime.toNat ≤ g.sent.toNat + 1000 → exec (.flitAck r f) s
        = .next (s.setLink l { s.link l with flights := (s.link l).flights.filter (fun g => g.flit.seq != f.seq) })))
    ∧ (f.type = typeNak → ∀ n, (s.link l).flightOf f.seq = some n → exec (.nak r f) s = .next (s.failFlight l n linkAuth)))
  ∧ (∀ (r : LinkRef) (s : State), let l := LinkRef.key r
    (∀ n, (s.link l).flights.findIdx? (fun f => f.sent.toNat + 1000 ≤ s.ptime.toNat) = some n →
      exec (.flitAckTimeout r) s = .next (s.failFlight l n linkNoAck))
    ∧ (∀ g, (s.link l).flights.find? (fun f => f.first.toNat + 4000 < s.ptime.toNat) = some g →
      exec (.flitPassDeadline r) s = .next (s.downLink l g.flit.fibre.toNat linkNoAck))
    ∧ (∀ c t, (s.link l).fecProp = some (c, t) → t.toNat + 4000 < s.ptime.toNat → exec (.fecAcceptTimeout r) s
      = .next ((s.setLink l { s.link l with fecProp := none, fecOut := 2 }).linkFault l 0 linkFecTimeout))
    ∧ (∀ c t, (s.link l).fecAcc = some (c, t) → t.toNat + 16000 < s.ptime.toNat →
      exec (.fecWaitExpiry r) s = .next (s.setLink l { s.link l with fecAcc := none })))
  ∧ (∀ (s : State) (l n detail : Nat) (g : Flight), (s.link l).flights[n]? = some g →
    let fl := (s.link l).flights.take n ++ ((s.link l).flights.drop n).map (fun f => { f with fails := f.fails + 1 })
    (3 ≤ g.fails → s.failFlight l n detail = s.downLink l g.flit.fibre.toNat detail)
    ∧ (∀ h, g.fails < 3 → (fl.drop n).find? (fun f => 4 ≤ f.fails) = some h → h.flit.seq ≠ g.flit.seq →
      s.failFlight l n detail = s.downLink l h.flit.fibre.toNat linkNoAck)
    ∧ ((∀ f ∈ (s.link l).flights.drop n, f.fails < 3) →
      s.failFlight l n detail = (s.setLink l { s.link l with flights := fl }).resend l n))
  ∧ (∀ (r : LinkRef) (detail : Byte) (s : State), let l := LinkRef.key r
    (detail.toNat = 1 ∨ detail.toNat = 3 ∨ detail.toNat = 4 ∨ detail.toNat = 8) →
    ((s.link l).up = false → exec (.linkDown r detail) s = .next s)
    ∧ ((s.link l).up = true →
      let s1 := s.setLink l { s.link l with up := false, flights := [], discarding := false, fecProp := none, fecAcc := none }
      let s2 := ((s1.dequeueLink l).2.loseMsgs ((s.link l).flights.map (fun f => (4 * (l / 64) + f.flit.fibre.toNat, flitOut f.flit))
        ++ (s1.dequeueLink l).1)).loseEntries (l / 64) (l % 64)
      let s3 := s2.loseReqs (some s2.fabric.modnum.toNat) (s2.fabric.reqs.filter
        (fun q => q.engine == l / 64 && q.hop == l % 64 && q.got.isNone && q.fail.isNone))
      let s4 := s3.loseSends (fun x => x.engine == l / 64 && s3.hopOf (l / 64) x.mdl == l % 64)
      let t := (s4.linkFault l (Config.linkPort s.tick).toNat detail.toNat).linkTakeovers l
      exec (.linkDown r detail) s = .next { t with tick := t.tick + 1 }))
  ∧ (∀ (s : State) (r : FarReq) (u k : Nat) (hop : Option Nat), r.owner = some (u, k) → u < 1024 → k < 8 →
    let un : UnitNo := BitVec.ofNat 10 u
    let kn : StrandNo := BitVec.ofNat 3 k
    (r.store = true → s.loseReq hop r = ((s.dropReqs (fun x => x.id == r.id)).routeFault r.part clsLink 0x06
      (linkSubject (4 * r.engine + r.port) r.hop) r.ea un kn).settle un kn)
    ∧ (r.store = false →
      let rs := s.fabric.reqs.map (fun x => if x.id == r.id then { x with fail := some causePathLost, via := hop } else x)
      s.loseReq hop r = { s with fabric := { s.fabric with reqs := rs } })
    ∧ (∀ rs, rs.find? (fun x => x.fail.isSome) = some r → r.fail = some causePathLost →
      (s.notePath un kn rs).strand un kn = { s.strand un kn with pathrec := pathRecord (r.via.getD 0) r.via.isSome r }
      ∧ (s.notePath un kn rs).mem = s.mem))
  ∧ (∀ (hop : Nat) (hopv : Bool) (r : FarReq), let w := pathRecord hop hopv r
    field w 0 0 = 1 ∧ field w 6 1 = (if hopv then hop % 64 else 0) ∧ w.getLsbD 7 = hopv ∧ field w 13 8 = r.mdl % 64
    ∧ field w 15 14 = r.engine % 4 ∧ field w 17 16 = r.port % 4 ∧ field w 63 18 = 0)
  ∧ (∀ (id : Nat) (s : State) (r : FarReq), s.openReq id = some r → r.at_.toNat + 100000 < s.ptime.toNat →
    exec (.farAccessTimeout id) s = .next (s.loseReq none r))
  ∧ (∀ (s : State) (f : Flit) (r : FarReq),
    (∀ id, (f.msg = .done id ∨ ∃ d p w, f.msg = .value id d p w) → s.openReq id = some r → r.at_.toNat + 100000 < s.ptime.toNat →
      s.takeResp f = s.loseReq none r)
    ∧ (∀ id, f.msg = .done id → s.openReq id = some r → s.ptime.toNat ≤ r.at_.toNat + 100000 → r.store = true →
      ∀ u k, r.owner = some (u, k) → s.takeResp f = (s.dropReqs (fun x => x.id == id)).settle (BitVec.ofNat 10 u) (BitVec.ofNat 3 k))
    ∧ (∀ id d w, f.msg = .value id d false w → s.openReq id = some r → s.ptime.toNat ≤ r.at_.toNat + 100000 → r.store = false →
      s.takeResp f = s.putReq { r with got := some d, fwd := w })
    ∧ (∀ id d w, f.msg = .value id d true w → s.openReq id = some r → s.ptime.toNat ≤ r.at_.toNat + 100000 → r.store = false →
      s.takeResp f = s.putReq { r with fail := some causePoison })
    ∧ (∀ id, f.msg = .lost id → s.openReq id = some r → s.takeResp f = s.loseReq (some f.src.toNat) r)
    ∧ (∀ a n st, f.msg = .entryAck a n st → s.takeResp f = s.setEntry (PairAddr.no a) n st)
    ∧ ∀ p t id st, f.msg = .placeAck p t id st → s.takeResp f = s.sendDone p.toNat t.toNat id st)
  ∧ (∀ (s : State) (e : Nat) (f : Flit) (id : Nat) (addr : BitVec 52) (n : Nat), f.msg = .load id addr n →
    let s1 := s.performInbox f.src
    (∀ ks, s1.homeKeys addr n = some ks →
      s.takeReq e f = s1.answer e f.src.toNat (.value id (ks.map s1.readByte) (ks.any s1.poisoned) false))
    ∧ (s1.homeKeys addr n = none → s.takeReq e f = s1.answer e f.src.toNat (.value id (List.replicate n 0) true false)))
  ∧ (∀ (s : State) (e : Nat) (f : Flit),
    (s.reqHeld f = true → s.reqCame e f = { s with fabric := { s.fabric with inbox := s.fabric.inbox ++ [⟨f.src, e, f.msg⟩] } })
    ∧ (s.reqHeld f = false → s.reqCame e f = s.takeReq e f))
  ∧ (∀ (s : State) (e : Nat) (f : Flit) (id : Nat) (addr : BitVec 52) (op : BitVec 4) (n : Nat) (x y : W64) (ty : BitVec 4)
      (mode : BitVec 3)
      (ftz : Bool), f.msg = .atomic id addr op n x y ty mode ftz →
    let s1 := s.performInbox f.src
    (∀ ks, s1.homeKeys addr n = some ks → (ks.any s1.poisoned = true →
        s.takeReq e f = s1.answer e f.src.toNat (.value id (List.replicate n 0) true false))
      ∧ (ks.any s1.poisoned = false → let (old, s2) := s1.rmw 1023 (homeAtomic (ks.headD 0) op n x y ty mode ftz)
        s.takeReq e f = s2.answer e f.src.toNat (.value id (toBytes n old.toNat) false (ks.any (fun k => s1.liveKey k != k)))))
    ∧ (s1.homeKeys addr n = none → s.takeReq e f = s1.answer e f.src.toNat (.value id (List.replicate n 0) true false)))
  ∧ (∀ (ctx : BitVec 15) (message : Nat) (reliable : Bool) (va : W64) (off total : Nat) (bytes : List Byte) (s : State),
    let x := Table.get RxCtx.reset s.fabric.rxs ctx.toNat
    let got := Table.get [] x.got message
    s.uetComes (.data ctx message reliable va off total bytes) = true → x.valid = true → bytes.length ≤ 4096 → off + bytes.length ≤ total →
    (reliable = false ∨ ∃ i < bytes.length, off + i ∉ got) →
    ∀ hs s1, s.translateRange (hiveWho x.part) .write .demand (piecesOf (va + BitVec.ofNat 64 off) bytes.length) = (.ok hs, s1) →
    let keys := segKeys (hitSegs hs)
    (∀ k ∈ keys, s1.writeHeld k = false) → (∀ k ∈ keys, s1.homeLost k = false) → s1.farFull (BitVec.ofNat 10 x.unit) 0 (flitStarts keys) = false →
    let s2 := s1.placeAs (BitVec.ofNat 10 x.unit) x.part va (cellsOf keys bytes)
    ∃ y : RxCtx, let s3 : State := { s2 with fabric := { s2.fabric with
        rxs := Table.set s2.fabric.rxs ctx.toNat y, ethOut := s2.fabric.ethOut ++ [.ack ctx.toNat message] } }
      Table.get [] y.got message = got ++ ((List.range bytes.length).map (off + ·)).filter (fun i => !got.contains i)
      ∧ y.unit = x.unit ∧ y.part = x.part ∧ y.bar = x.bar
      ∧ ((Table.get [] y.got message).length < total → y.arrived = x.arrived
        ∧ exec (.uetPacket (.data ctx message reliable va off total bytes)) s = .next s3)
      ∧ (total ≤ (Table.get [] y.got message).length → message ∉ x.arrived → s3.unitPart (BitVec.ofNat 10 x.unit) = x.part →
        y.arrived = message :: x.arrived
        ∧ exec (.uetPacket (.data ctx message reliable va off total bytes)) s = .next (s3.arrive (BitVec.ofNat 10 x.unit) x.bar 1)))
  ∧ (∀ (ctx : BitVec 15) (message : Nat) (reliable : Bool) (va : W64) (off total : Nat) (bytes : List Byte) (s : State),
    let x := Table.get RxCtx.reset s.fabric.rxs ctx.toNat
    let got := Table.get [] x.got message
    let reply (t : State) (m : UetOut) : State := { t with fabric := { t.fabric with ethOut := t.fabric.ethOut ++ [m] } }
    (∃ p < 16, s.ethUp p = true) →
    ((x.valid = false ∨ 4096 < bytes.length ∨ total < off + bytes.length) →
      exec (.uetPacket (.data ctx message reliable va off total bytes)) s = .next s)
    ∧ (x.valid = true → bytes.length ≤ 4096 → off + bytes.length ≤ total →
      (reliable = true → (∀ i < bytes.length, off + i ∈ got) →
        exec (.uetPacket (.data ctx message reliable va off total bytes)) s = .next (reply s (.ack ctx.toNat message)))
      ∧ ((reliable = false ∨ ∃ i < bytes.length, off + i ∉ got) → ∀ e s1,
        s.translateRange (hiveWho x.part) .write .demand (piecesOf (va + BitVec.ofNat 64 off) bytes.length) = (.error e, s1) →
        exec (.uetPacket (.data ctx message reliable va off total bytes)) s = .next (reply s1 (.error ctx.toNat message)))
      ∧ ((reliable = false ∨ ∃ i < bytes.length, off + i ∉ got) → ∀ hs s1,
        s.translateRange (hiveWho x.part) .write .demand (piecesOf (va + BitVec.ofNat 64 off) bytes.length) = (.ok hs, s1) →
        let keys := segKeys (hitSegs hs)
        (∀ k ∈ keys, s1.writeHeld k = false) → s1.farFull (BitVec.ofNat 10 x.unit) 0 (flitStarts keys) = false →
        (∃ k ∈ keys, s1.homeLost k = true) →
        exec (.uetPacket (.data ctx message reliable va off total bytes)) s = .next (reply s1 (.error ctx.toNat message))))
    ∧ exec (.uetPacket (.ordered ctx message)) s = .next (reply s (.refused ctx.toNat message))
    ∧ exec (.uetPacket (.trimmed ctx message)) s = .next (reply s (.trimmed ctx.toNat message)))
  ∧ (∀ (r : PairRef) (n : W64) (s : State), (s.pairOf (PairRef.no r)).mode = 2 →
    s.ethUp (4 * (PairRef.no r / 256) + field (s.pairOf (PairRef.no r)).cfg 34 33) = true →
    exec (.uetPacket (.ack r n)) s = .next (s.setEntry (PairRef.no r) n qsOk)
    ∧ exec (.uetPacket (.error r n)) s = .next (s.setEntry (PairRef.no r) n qsPeerRefused))
  ∧ (∀ (port : BitVec 4) (pdc : BitVec 14) (part : BitVec 5) (wnd inflight rtt base : W32) (ecn : BitVec 16) (s : State),
    s.ethUp port.toNat = true → ∃ t : State, exec (.uetPacket (.context port pdc part wnd inflight rtt base ecn)) s = .next t
      ∧ t.fabric.pdcs = Table.set s.fabric.pdcs (pdcKey port pdc)
        { Table.get Pdc.reset s.fabric.pdcs (pdcKey port pdc) with
          valid := true, part := part.toNat, wnd := wnd, inflight := inflight, rtt := rtt, base := base, ecn := ecn }
      ∧ t.mem = s.mem)
  ∧ (∀ (ctx : BitVec 15) (unit : UnitNo) (bar : BitVec 9) (s : State), s.isUp = true → s.unitPart unit = ctx.toNat / 1024 →
    ∃ t : State, exec (.uetPacket (.receive ctx unit bar)) s = .next t
      ∧ t.fabric.rxs = Table.set s.fabric.rxs ctx.toNat
        { RxCtx.reset with valid := true, part := ctx.toNat / 1024, unit := unit.toNat, bar := bar.toNat }
      ∧ t.mem = s.mem)
  ∧ (∀ (k : UetPacket) (s : State), s.uetComes k = false → exec (.uetPacket k) s = .next s)
  ∧ (∀ (s : State) (p : Nat), s.ethUp p = true ↔ s.isUp = true ∧ field (Table.get 0 s.fabric.pcfg p) 1 0 = 2
    ∧ Table.get false s.fabric.portUp p = true)

/-! ### Queue pairs and parameter nodes -/

/-- R401, R404 to R408, R410, R411: entries fire, are refused or skipped, take effect at the peer piece by piece or in the
fixed tree of ranks, and retire. The model's choices: translation is tried before BAD-ENTRY (log entry 76), and
a WRED into poisoned bytes leaves them (log entry 62); which pieces of a
poisoned source were sent is free, and a poisoned pod transfer has no end at the peer (log entry 18); a staged contribution is
acknowledged when its round has been combined (log entry 76); bytes of the source at another module are asked for by
load requests, and one that failed counts as POISON (log entry 11); a transfer into a lost home answers POISONED (log
entry 18). -/
def Obligations.EntriesFireCombineAndRetire : Prop :=
  (∀ (r : PairRef) (s : State), let no := PairRef.no r
    let p := s.pairOf no
    let n := p.fired + 1
    let e := s.entryWords no n.toNat
    s.canFire no = true → s.pairFull no = false → s.entryWalkWaits no = false →
    (p.err.getLsbD 0 = true → exec (.entryFire r) s = .next (s.outEntry no n e (some qsSkipped)))
    ∧ (p.err.getLsbD 0 = false →
      let u := pairUnit no
      let mark := pairMark (no % 64)
      let w : Who := ⟨u, s.pairPart no, (p.cap n.toNat).sup, (p.cap n.toNat).pkr⟩
      let s0 := s.setCore u { s.core u with reach := some ⟨mark, [], [], []⟩ }
      (∀ x s1, s0.translateRange w .read .demand (piecesOf e.src e.len) = (.error x, s1) →
        exec (.entryFire r) s = .next ((s1.endReach u mark).outEntry no n e (some qsXlate)))
      ∧ ∀ hs s1, s0.translateRange w .read .demand (piecesOf e.src e.len) = (.ok hs, s1) →
        (e.bad = true → exec (.entryFire r) s = .next ((s1.endReach u mark).outEntry no n e (some qsBadEntry)))
        ∧ (e.bad = false →
          (∀ s2, s.entrySource s1 no e.src hs = (.error none, s2) → exec (.entryFire r) s = .next s2)
          ∧ (∀ st s2, s.entrySource s1 no e.src hs = (.error (some st), s2) →
            exec (.entryFire r) s = .next (s2.outEntry no n e (some st)))
          ∧ ∀ data s2, s.entrySource s1 no e.src hs = (.ok data, s2) →
            let keys := segKeys (hitSegs hs)
            ((∀ k ∈ keys, s2.engPoison [k] = false) → exec (.entryFire r) s
              = .next ((s2.outEntry no n e none).sendTransfer no n e data (pieceNos e.len) qsOk))
            ∧ ((∃ k ∈ keys, s2.engPoison [k] = true) → (e.kind ≠ 1 ∧ (e.kind ≠ 2 ∨ e.ordered p.mode = true) ∨ p.mode ≠ 0) →
              exec (.entryFire r) s = .next ({ s2 with tick := s2.tick + 1 }.outEntry no n e (some qsPoisoned)))
            ∧ ((∃ k ∈ keys, s2.engPoison [k] = true) → (e.kind = 1 ∨ (e.kind = 2 ∧ e.ordered p.mode = false)) → p.mode = 0 →
              exec (.entryFire r) s = .next (({ s2 with tick := s2.tick + 1 }.outEntry no n e none).sendTransfer no n e data
                (sentPieces s2.tick (keys.map (fun k => s2.engPoison [k]))) qsPoisoned)))))
  ∧ (∀ (s s1 : State) (no : Nat) (va : W64) (hs : List (Hit × Nat)), let u := pairUnit no
    let mark := pairMark (no % 64)
    (s1.readWaits (hitSegs hs) = true → s.entrySource s1 no va hs = (.error none, s))
    ∧ (s1.readWaits (hitSegs hs) = false →
      (∀ x s2, s1.reachFar u (hitSegs hs) va = (.ok x, s2) → let s3 := s2.noteDirect u hs
        s.entrySource s1 no va hs = (.ok ((segKeys (hitSegs hs)).map (s3.engByte u)), s3.endReach u mark))
      ∧ ∀ e s2, s1.reachFar u (hitSegs hs) va = (.error e, s2) →
        (e.status = stWait → s.entrySource s1 no va hs
          = (.error none, s.waitStart u (BitVec.ofNat 3 (field (s.pairOf no).cfg 34 33)) mark (s2.core u).reach))
        ∧ (e.status ≠ stWait → s.entrySource s1 no va hs = (.error (some qsPoisoned), s2.endReach u mark))))
  ∧ (∀ (s : State) (no : Nat) (n : W64) (e : Entry) (data : List Byte) (todo : List Nat) (st : Byte), let p := s.pairOf no
    (p.mode = 0 → s.sendTransfer no n e data todo st = s.arriveWhole p.peerNo
      { src := s.pairAddr no, n := n, words := e, data := data, todo := todo, checked := false, status := st, partialIn := false })
    ∧ (2 ≤ p.mode → s.ethUp (4 * (no / 256) + field p.cfg 34 33) = false → s.sendTransfer no n e data todo st = s)
    ∧ (2 ≤ p.mode → s.ethUp (4 * (no / 256) + field p.cfg 34 33) = true → ∃ t : State, s.sendTransfer no n e data todo st = t ∧ t.mem = s.mem ∧ t.fabric.pairs = s.fabric.pairs
      ∧ t.fabric.ethOut = s.fabric.ethOut ++ [.message (4 * (no / 256) + field p.cfg 34 33) (field p.cfg 32 19) no n e.dst data]))
  ∧ (∀ (r : PairRef) (s : State), (s.canFire (PairRef.no r) = false ∨ s.pairFull (PairRef.no r) = true
      ∨ s.entryWalkWaits (PairRef.no r) = true) →
    exec (.entryFire r) s = .next s)
  ∧ (∀ e : Entry, e.bad = true ↔ e.len % 32 ≠ 0 ∨ e.len = 0 ∨ e.src.toNat % 32 ≠ 0 ∨ e.dst.toNat % 32 ≠ 0
    ∨ (e.kind = 2 ∧ e.op = 3 ∧ e.len % 288 ≠ 0))
  ∧ (∀ (s : State) (no : Nat), let p := s.pairOf no
    s.canFire no = true → s.pairValid no = true ∧ p.fired.toNat + 1 ≤ p.armlim.toNat ∧ p.fired.toNat + 1 ≤ p.posted.toNat
      ∧ p.out.length < 8 ∧ (s.entryWords no (p.fired.toNat + 1)).athr ≤ (s.counter (s.entryWords no (p.fired.toNat + 1)).acnt).toNat
      ∧ (s.partOf (s.pairPart no)).isSaved = false ∧ s.postReleased (p.cap (p.fired.toNat + 1)) = true)
  ∧ (∀ (r : PairRef) (piece : Nat) (s s1 : State) (a : Arrival), let no := PairRef.no r
    s.checkArrival no a = (none, s1) →
    ((s.pairOf no).nextArrival (fun e => e.kind == 1) = some a → exec (.write r piece) s = .next s1)
    ∧ ((s.pairOf no).nextArrival (fun e => e.kind == 2 && !e.ordered (s.pairOf no).mode) = some a → exec (.wred r piece) s = .next s1)
    ∧ ((s.pairOf no).nextArrival (fun e => e.ordered (s.pairOf no).mode) = some a → exec (.orderedCombine r) s = .next s1))
  ∧ (∀ (r : PairRef) (piece : Nat) (s s1 s2 : State) (a b : Arrival) (ks : List Nat), let no := PairRef.no r
    (s.pairOf no).nextArrival (fun e => e.kind == 1) = some a → s.checkArrival no a = (some b, s1) → piece ∈ b.todo →
    let va := Entry.dst b.words + BitVec.ofNat 64 (32 * piece)
    s1.peerKeys no va 32 = (some ks, s2) → (∀ k ∈ ks, s2.writeHeld k = false) →
    s2.farFull (pairUnit no) 0 (flitStarts ks) = false →
    ((∃ k ∈ ks, s2.homeLost k = true) → exec (.write r piece) s = .next (s2.endArrival no b qsPoisoned))
    ∧ ((∀ k ∈ ks, s2.homeLost k = false) → exec (.write r piece) s
      = .next ((s2.placeBytes no va (cellsOf ks ((b.data.drop (32 * piece)).take 32))).tookPiece no b piece)))
  ∧ (∀ (s : State) (no : Nat) (a : Arrival), a.checked = false →
    (∀ s1, s.peerCheck no a = (none, s1) →
      s.checkArrival no a = (none, (s1.dropArrival no a).ackEntry no a.src a.n qsPeerRefused))
    ∧ ∀ segs s1, s.peerCheck no a = (some segs, s1) →
      s.checkArrival no a = (some { a with checked := true }, s1.setArrival no { a with checked := true }))
  ∧ (∀ (s : State) (no : Nat) (a : Arrival), let e : Entry := a.words
    (s.peerIs no a.src = false ∨ (e.dcen = true ∧ s.counterPart e.dcnt ≠ s.pairPart no)
      ∨ (e.ordered (s.pairOf no).mode = true ∧ s.counterPart e.scnt ≠ s.pairPart no)) → s.peerCheck no a = (none, s))
  ∧ (∀ (s : State) (no : Nat) (a : Arrival) (k : Nat), let e : Entry := a.words
    (a.todo.filter (· != k) = [] → s.tookPiece no a k = let s1 := if e.dcen && a.status != qsPoisoned then s.raise e.dcnt 1 else s
      (s1.dropArrival no { a with todo := [] }).ackEntry no a.src a.n a.status)
    ∧ (a.todo.filter (· != k) ≠ [] → s.tookPiece no a k = s.setArrival no { a with todo := a.todo.filter (· != k) }))
  ∧ (∀ (r : PairRef) (piece : Nat) (s s1 s2 : State) (a b : Arrival) (ks : List Nat), let no := PairRef.no r
    let e : Entry := b.words
    (s.pairOf no).nextArrival (fun e => e.kind == 2 && !e.ordered (s.pairOf no).mode) = some a →
    s.checkArrival no a = (some b, s1) → e.op ≠ 3 → piece ∈ b.todo →
    let va := e.dst + BitVec.ofNat 64 (32 * piece)
    s1.peerKeys no va 32 = (some ks, s2) → (∀ k ∈ ks, s2.writeHeld k = false) →
    s2.farFull (pairUnit no) 0 (flitStarts ks) = false →
    ((∃ k ∈ ks, s2.homeLost k = true) → exec (.wred r piece) s = .next (s2.endArrival no b qsPoisoned))
    ∧ ((∀ k ∈ ks, s2.homeLost k = false) → (s2.engPoison ks = true → exec (.wred r piece) s
        = .next ((s2.routeFault (s2.pairPart no) clsMemory 0 0 va (pairUnit no) 0).tookPiece no b piece))
      ∧ (s2.engPoison ks = false → exec (.wred r piece) s = .next ((s2.placeBytes no va (cellsOf ks (combineBytes e.by 72
        (ks.map (s2.engByte (pairUnit no))) ((b.data.drop (32 * piece)).take 32)))).tookPiece no b piece))))
  ∧ (∀ (r : PairRef) (s s1 s2 : State) (a b : Arrival) (keys : List Nat), let no := PairRef.no r
    let e : Entry := b.words
    (s.pairOf no).nextArrival (fun e => e.ordered (s.pairOf no).mode) = some a → s.checkArrival no a = (some b, s1) →
    s1.peerKeys no e.dst (e.footprint true) = (some keys, s2) → (∀ k ∈ keys, s2.writeHeld k = false) →
    s2.farWaits (pairUnit no) 0 (flitStarts keys) = false →
    ((∃ k ∈ keys, s2.homeLost k = true) → exec (.orderedCombine r) s = .next (s2.endArrival no b qsPoisoned))
    ∧ ((∀ k ∈ keys, s2.homeLost k = false) →
    let k := (s2.counter e.scnt).toNat % e.ncon
    let data := cellsOf ((keys.drop (e.len * (1 + k))).take e.len) b.data
    let word := cellsOf ((keys.drop (e.len * (e.ncon + 2) + 4 * k)).take 4) (toBytes 4 (rankWord e))
    let s3 := (s2.placeBytes no e.dst (data ++ word)).raise e.scnt 1
    let st := if e.op = 3 && badRecords b.data then qsBadRecord else qsOk
    let s4 := s3.stage no e.scnt b st
    ((s3.counter e.scnt).toNat % e.ncon ≠ 0 → exec (.orderedCombine r) s = .next s4)
    ∧ ((s3.counter e.scnt).toNat % e.ncon = 0 → let s5 := s4.combineRound no e keys
      exec (.orderedCombine r) s = .next ((if e.dcen then s5.raise e.dcnt 1 else s5).ackRound e.scnt))))
  ∧ (∀ (s : State) (no : Nat) (e : Entry) (keys order : List Nat),
    let word (k : Nat) := leNat (s.stageBytes no keys (e.len * (e.ncon + 2) + 4 * k) 4)
    order.Perm (List.range e.ncon) →
    order.Pairwise (fun i j => word i % 2 ^ 16 < word j % 2 ^ 16 ∨ (word i % 2 ^ 16 = word j % 2 ^ 16 ∧ i < j)) →
    let w := word (order.headD 0)
    let b : CombineBy := ⟨w / 2 ^ 20 % 16, w / 2 ^ 24 % 16, mkMode (BitVec.ofNat 3 (w / 2 ^ 16 % 8)) 0 0 0, w.testBit 19⟩
    s.combineRound no e keys = s.placeBytes no e.dst (cellsOf keys (treeUp b 10 (order.map
      (fun k => s.stageBytes no keys (e.len * (1 + k)) e.len)))))
  ∧ (∀ e : Entry, let w := rankWord e
    w % 2 ^ 16 = e.rank ∧ w / 2 ^ 16 % 8 = e.rm ∧ w.testBit 19 = e.ftz ∧ w / 2 ^ 20 % 16 = e.op ∧ w / 2 ^ 24 % 16 = e.ty)
  ∧ (∀ (b : CombineBy) (n : Nat) (x y : List Byte), combineBytes b (n + 1) [] y = [] ∧ (x ≠ [] → combineBytes b (n + 1) x y
      = (if b.op = 3 then mergeRecords b (x.take 288) (y.take 288)
        else toBytes b.bytes (combineElem b (leNat (x.take b.bytes)) (leNat (y.take b.bytes))))
        ++ combineBytes b n (x.drop b.bytes) (y.drop b.bytes)))
  ∧ (∀ (b : CombineBy) (x y : List Byte),
    let deg (d : List Byte) : BitVec 6 := BitVec.ofNat 6 (numAt d 260 4)
    let op (l r : PpAcc) := recordOfAcc (l.merge r (fun _ => b.mode) b.ftz)
    (recordBad x = false → recordBad y = false → mergeRecords b x y = op (accOfRecord x) (accOfRecord y))
    ∧ (recordBad x = true → recordBad y = false → mergeRecords b x y = op (standIn (deg y)) (accOfRecord y))
    ∧ (recordBad x = false → recordBad y = true → mergeRecords b x y = op (accOfRecord x) (standIn (deg x)))
    ∧ (recordBad x = true → recordBad y = true → mergeRecords b x y = op (standIn 63) (standIn 63)))
  ∧ (∀ (s : State) (no scnt : Nat) (a : Arrival) (st : Byte), let t := s.stage no scnt a st
    t.fabric.staged = s.fabric.staged ++ [⟨scnt, no, a.src, a.n, st⟩] ∧ t.mem = s.mem ∧ t.fabric.pairs = (s.dropArrival no a).fabric.pairs)
  ∧ (∀ (s : State) (c : Nat) (x : Staged), s.fabric.staged = [x] → x.scnt = c → ∃ t : State, t.fabric.staged = [] ∧ t.mem = s.mem
    ∧ t.fabric.pairs = s.fabric.pairs ∧ s.ackRound c = t.ackEntry x.pair x.src x.n x.status)
  ∧ (∀ (b : CombineBy) (n : Nat) (x y : List Byte) (l : List (List Byte)),
    treeUp b n [x] = x ∧ pairUp b (x :: y :: l) = combineBytes b (x.length + 1) x y :: pairUp b l ∧ pairUp b [x] = [x]
    ∧ treeUp b (n + 1) (x :: y :: l) = treeUp b n (pairUp b (x :: y :: l)))
  ∧ (∀ (b : CombineBy) (l r : Nat),
    (b.ty = 9 ∨ b.ty = 8 → b.op = 0 → combineElem b l r = (l + r) % 2 ^ 32)
    ∧ (b.ty = 9 → b.op = 1 → l < 2 ^ 32 → r < 2 ^ 32 → combineElem b l r = max l r)
    ∧ (b.ty = 9 → b.op = 2 → l < 2 ^ 32 → r < 2 ^ 32 → combineElem b l r = min l r)
    ∧ (b.ty = 8 → b.op = 1 → combineElem b l r < 2 ^ 32 ∧ (BitVec.ofNat 32 (combineElem b l r)).toInt
      = max (BitVec.ofNat 32 l).toInt (BitVec.ofNat 32 r).toInt)
    ∧ (b.ty = 8 → b.op = 2 → combineElem b l r < 2 ^ 32 ∧ (BitVec.ofNat 32 (combineElem b l r)).toInt
      = min (BitVec.ofNat 32 l).toInt (BitVec.ofNat 32 r).toInt)
    ∧ (b.ty ≠ 8 → b.ty ≠ 9 → b.op = 1 → combineElem b l r = (fmtOf b.ty).select true b.ftz l r)
    ∧ (b.ty ≠ 8 → b.ty ≠ 9 → b.op = 2 → combineElem b l r = (fmtOf b.ty).select false b.ftz l r)
    ∧ (b.ty ≠ 8 → b.ty ≠ 9 → b.op = 0 → combineElem b l r = faddElem (fmtOf b.ty) b.mode b.ftz false l r))
  ∧ (∀ (r : PairRef) (s : State) (o : QpOut) (rest : List QpOut) (st : Byte), let no := PairRef.no r
    let p := s.pairOf no
    p.out = o :: rest → o.status = some st → ∃ (t : State) (q : Pair),
      t.counter = s.counter ∧ t.mem = (s.writeNat (p.slotKey no o.n.toNat + 63) 1 st.toNat).mem ∧ t.pairOf no = q
      ∧ q.retired = o.n ∧ q.out = rest ∧ q.posted = p.posted ∧ q.cfg = p.cfg
      ∧ ((st = qsOk ∨ st = qsSkipped) → q.err = p.err ∧ exec (.entryRetire r) s
        = .next (if Entry.lcen o.words then t.raise (Entry.lcnt o.words) 1 else t))
      ∧ (st ≠ qsOk → st ≠ qsSkipped → (p.err.getLsbD 0 = true → q.err = p.err)
        ∧ (p.err.getLsbD 0 = false → q.err.getLsbD 0 = true ∧ field q.err 15 8 = st.toNat ∧ field q.err 63 16 = o.n.toNat % 2 ^ 48)
        ∧ exec (.entryRetire r) s = .next ((if Entry.lcen o.words then t.raise (Entry.lcnt o.words) 1 else t).entryFault no
          (p.cap o.n.toNat) o.n st)))
  ∧ (∀ (r : PairRef) (n : W64) (s : State), let no := PairRef.no r
    (∃ o ∈ (s.pairOf no).out, o.n = n ∧ o.status = none ∧ o.at_.toNat + 100000 < s.ptime.toNat) →
    exec (.entryAckTimeout r n) s = .next (s.setEntry no n qsLinkLost))

/-- R420 to R425, R427 to R429, R431: a gradient block from its intake to its commit or failure, mirroring, deadlines, a lost
return and PNCFG. The model's choices: each DUP of an applying or held block gets a return of its own, the order of PNCFG's statuses and the
port of a node's messages (log entry 61), and that what is applying when a node fences itself goes on (log entry 77). -/
def Obligations.ParameterNodesApplyAndCommit : Prop :=
  (∀ (r : PairRef) (s : State) (a : Arrival), let no := PairRef.no r
    let p := s.pairPart no
    let h : PnHeader := BitVec.ofNat 256 (numAt a.data 0 32)
    let n := PnHeader.tensor h
    let t := s.tensor p n
    (s.pairOf no).nextArrival (fun e => e.kind == 3) = some a →
    (s.peerIs no a.src = false → exec (.pnb r) s = .next (s.endArrival no a qsPeerRefused))
    ∧ (s.peerIs no a.src = true →
      (t.valid = false → exec (.pnb r) s = .next (s.endArrival no a qsPnBad))
      ∧ (t.valid = true → t.freeSlot = none → exec (.pnb r) s = .next (s.endArrival no a qsPnFull))
      ∧ (∀ k, t.valid = true → t.freeSlot = some k →
        (t.accepts no h a.data.length = false → exec (.pnb r) s
          = .next ((s.report p n repBad false h.block h.step 0).endArrival no a qsPnBad))
        ∧ (t.accepts no h a.data.length = true → t.fenced = true → exec (.pnb r) s = .next (s.endArrival no a qsOk))
        ∧ (t.accepts no h a.data.length = true → t.fenced = false →
          (s.rangeHeld (hiveWho p) (t.slotVa k) a.data.length = true → exec (.pnb r) s = .next s)
          ∧ (s.rangeHeld (hiveWho p) (t.slotVa k) a.data.length = false →
            (s.rangeLost (hiveWho p) (t.slotVa k) a.data.length = true → exec (.pnb r) s = .next (s.endArrival no a qsPoisoned))
            ∧ (s.rangeLost (hiveWho p) (t.slotVa k) a.data.length = false →
              (∀ s1, s.hiveWrite (hiveWho p) (t.slotVa k) a.data = (false, s1) → exec (.pnb r) s = .next (s1.endArrival no a qsPeerRefused))
              ∧ ∀ s1, s.hiveWrite (hiveWho p) (t.slotVa k) a.data = (true, s1) → exec (.pnb r) s
                = .next (((s1.setTensor p n { t with slots := Table.set t.slots k h }).classify p n k h).endArrival no a qsOk)))))))
  ∧ (∀ (t : Tensor) (no : Nat) (h : PnHeader) (len : Nat), t.accepts no h len = true ↔
    field h 15 8 = 0 ∧ field h 31 26 = 0 ∧ field h 255 113 = 0 ∧ t.intake = no ∧ h.block < t.nblk
      ∧ len = 32 + (if h.gf then 2 else 4) * t.eblk ∧ h.ncontrib = t.expect)
  ∧ (∀ (s : State) (p n k : Nat) (h : PnHeader), let t := s.tensor p n
    let b := h.block
    let x := t.block b
    let gap := h.step.toNat - x.last.toNat
    (h.step.toNat ≤ x.last.toNat → s.classify p n k h
      = (s.setTensor p n { t.freed k with dup := satInc t.dup }).dupReturn p n b)
    ∧ (x.last.toNat < h.step.toNat → x.has h.step = true → s.classify p n k h
      = s.setTensor p n (({ t.freed k with dup := satInc t.dup }).setBlock b { x with dups := x.dups ++ [h.step] }))
    ∧ (h.step.toNat = x.last.toNat + 1 → x.has h.step = false → ∃ t' : Tensor,
      s.classify p n k h = (s.setTensor p n t').addApply p n b h.step
      ∧ t'.block b = { x with applying := some (h.step, k) } ∧ t'.slots = t.slots)
    ∧ (1 < gap → gap ≤ 1 + t.holdmax → x.held.length < t.holdmax → x.has h.step = false → ∃ t' : Tensor,
      s.classify p n k h = (s.setTensor p n t').report p n repAhead false b h.step 0
      ∧ t'.ahead = satInc t.ahead ∧ t'.block b = { x with held := x.held ++ [(h.step, k)] } ∧ t'.slots = t.slots)
    ∧ (1 < gap → (1 + t.holdmax < gap ∨ t.holdmax ≤ x.held.length) → x.has h.step = false →
      s.classify p n k h = (s.setTensor p n { t.freed k with ahead := satInc t.ahead }).report p n repAhead true b h.step 0))
  ∧ (∀ (p : PartNo) (n : Byte) (b : BitVec 10) (u : UnitNo) (k : StrandNo) (s : State) (st : BitVec 48) (rest : List (Nat × Nat × BitVec 48))
      (slot : Nat), let t := s.tensor p.toNat n.toNat
    (s.partOf p.toNat).applies = (n.toNat, b.toNat, st) :: rest → (t.block b.toNat).applying = some (st, slot) →
    s.ruleFree p.toNat u k = true → ∃ (t' : Tensor) (s1 : State), s1.partOf p.toNat
        = { (s.setTensor p.toNat n.toNat t').partOf p.toNat with applies := rest }
      ∧ exec (.ruleStart p n b u k) s
        = .next ((s1.setStrand u k { ruleStrand t n.toNat b.toNat slot st with rule := some (n.toNat, b.toNat) }).makeReady u k)
      ∧ s1.mem = s.mem ∧ t'.block b.toNat = { t.block b.toNat with strand := some (u.toNat, k.toNat) })
  ∧ (∀ (t : Tensor) (n b k : Nat) (st : BitVec 48), let x := t.block b
    let r := ruleStrand t n b k st
    let h : PnHeader := Table.get 0 t.slots k
    r.run = .ready ∧ r.pc = t.va 3 &&& ~~~3 ∧ r.srctr = 0 ∧ r.pkr = 0
    ∧ r.getA 1 = t.slotVa k + 32 ∧ r.getA 2 = t.partVa x.bank 0 b ∧ r.getA 3 = t.partVa x.bank 1 b ∧ r.getA 4 = t.partVa x.bank 2 b
    ∧ r.getA 5 = t.partVa (!x.bank) 0 b ∧ r.getA 6 = t.partVa (!x.bank) 1 b ∧ r.getA 7 = t.partVa (!x.bank) 2 b ∧ r.getA 8 = t.va 4
    ∧ r.getW 1 = BitVec.ofNat 32 t.eblk ∧ r.getW 2 = st.setWidth 32 ∧ r.getW 3 = BitVec.ofNat 32 (st.toNat / 2 ^ 32)
    ∧ r.getW 4 = BitVec.ofNat 32 h.gf.toNat ∧ r.getW 5 = BitVec.ofNat 32 b ∧ r.getW 6 = BitVec.ofNat 32 h.ncontrib
    ∧ r.getW 7 = BitVec.ofNat 32 h.otag.toNat ∧ r.srkey = BitVec.ofNat 64 (st.toNat % 2 ^ 40 * 2 ^ 24 + n * 2 ^ 10 + b))
  ∧ (∀ (p : PartNo) (n : Byte) (b : BitVec 10) (s : State) (st : BitVec 48) (k u j : Nat),
    let y := (s.tensor p.toNat n.toNat).block b.toNat
    let un : UnitNo := BitVec.ofNat 10 u
    let kn : StrandNo := BitVec.ofNat 3 j
    let r := s.strand un kn
    let s1 := s.setStrand un kn { r with rule := none }
    y.applying = some (st, k) → y.strand = some (u, j) →
    (s.ruleSaved p.toNat n.toNat b.toNat = true → exec (.blockCommit p n b) s = .next s)
    ∧ (s.ruleSaved p.toNat n.toNat b.toNat = false →
      ((1024 ≤ u ∨ r.rule ≠ some (n.toNat, b.toNat)) → exec (.blockCommit p n b) s = .next (s.failBlock p.toNat n.toNat b.toNat st k))
      ∧ (u < 1024 → r.rule = some (n.toNat, b.toNat) →
        (r.run = .stopped → exec (.blockCommit p n b) s = .next (s1.failBlock p.toNat n.toNat b.toNat st k))
        ∧ (r.run ≠ .stopped → (r.run ≠ .halted ∨ r.sq ≠ [] ∨ r.lq ≠ [] ∨ s.farOutstanding u j = true) → exec (.blockCommit p n b) s = .next s)
        ∧ (r.run = .halted → r.sq = [] → r.lq = [] → s.farOutstanding u j = false →
          (r.ruleErr = false → (∀ x ∈ r.bad, x.code ≠ causePoison) → (r.exitStatus = none ∨ r.exitStatus = some 0) →
            exec (.blockCommit p n b) s = .next (s1.commitBlock p.toNat n.toNat b.toNat st k))
          ∧ ((r.ruleErr = true ∨ ∃ x ∈ r.bad, x.code = causePoison) → exec (.blockCommit p n b) s = .next (s1.failBlock p.toNat n.toNat b.toNat st k))
          ∧ (∀ v, r.exitStatus = some v → v ≠ 0 → exec (.blockCommit p n b) s = .next (s1.failBlock p.toNat n.toNat b.toNat st k))))))
  ∧ (∀ (s : State) (p n b k : Nat) (st : BitVec 48), let t := s.tensor p n
    let x := t.block b
    (∃ t' : Tensor, s.commitBlock p n b st k = (((s.setTensor p n (t'.setDeadline st s.ptime)).nextHeld p n b).announce p n b st).answerDups p n b st
      ∧ t'.block b = { x with last := st, bank := !x.bank, applying := none, strand := none, otag := (PnHeader.otag (Table.get 0 t.slots k)) }
      ∧ t'.slots = Table.erase k t.slots)
    ∧ ∃ t' : Tensor, s.failBlock p n b st k = ((s.setTensor p n t').report p n repRuleFailed false b st 0).answerDups p n b st
      ∧ t'.block b = { x with applying := none, strand := none } ∧ t'.failed = satInc t.failed ∧ t'.slots = Table.erase k t.slots)
  ∧ (∀ (s : State) (p n b : Nat) (st : BitVec 48), let t := s.tensor p n
    let d := s.returnOf p n b 0x00
    let c : PnCommit := { block := b, step := st, at_ := s.ptime, status := d.1.1, data := d.1.2, dups := 0 }
    (t.fenced = true → s.announce p n b st = s)
    ∧ (t.fenced = false → t.acting = true → t.role = 1 → s.mirrored t = true →
      s.announce p n b st = (d.2.setTensor p n { t with waiting := t.waiting ++ [c] }).toPeer t
        (.notice (BitVec.ofNat 5 t.ppart) (BitVec.ofNat 8 t.pten) (BitVec.ofNat 10 b) st))
    ∧ (t.fenced = false → (t.acting = false ∨ t.role ≠ 1 ∨ s.mirrored t = false) →
      ((b, st) ∈ t.noticed → s.announce p n b st = s.setTensor p n { t with noticed := t.noticed.filter (· != (b, st)) })
      ∧ ((b, st) ∉ t.noticed → t.acting = true → s.announce p n b st = d.2.sendReturn p n b d.1.1 d.1.2)
      ∧ ((b, st) ∉ t.noticed → t.acting = false →
        s.announce p n b st = d.2.setTensor p n { t with unnoticed := t.unnoticed ++ [c] }))
    ∧ (t.acting = false → s.dupReturn p n b = s)
    ∧ (t.acting = true → t.lastWaiting b = none →
      s.dupReturn p n b = (s.returnOf p n b 0x01).2.sendReturn p n b (s.returnOf p n b 0x01).1.1 (s.returnOf p n b 0x01).1.2))
  ∧ (∀ (s : State) (p n b : Nat) (status : Byte), let t := s.tensor p n
    let va := t.partVa (t.block b).bank 0 b
    let r := s.translateRange (hiveWho p) .read .quiet (piecesOf va (4 * t.eblk))
    (∀ e, r.1 = .error e → (s.returnOf p n b status).1.1 = qsXlate)
    ∧ ∀ hs, r.1 = .ok hs → (s.returnOf p n b status).1.1 = (if s.engPoison (segKeys (hitSegs hs)) then qsPoisoned else qsOk))
  ∧ (∀ (s : State) (p n b : Nat) (st : Byte) (data : List Byte), let t := s.tensor p n
    st ≠ qsOk → s.sendReturn p n b st data = (List.range t.nwork).foldl (fun q _ => q.placeFault p t st) s)
  ∧ (∀ (s : State) (p n : Nat) (c : PnCommit), c.dups = 0 → s.sendCommit p n c = s.sendReturn p n c.block c.status c.data)
  ∧ (∀ (s : State) (p n id : Nat) (st : Byte), let t := s.tensor p n
    let s1 := s.setTensor p n { t with sends := t.sends.filter (fun x => x.id != id) }
    ((∀ x ∈ t.sends, x.id ≠ id) → s.sendDone p n id st = s)
    ∧ ((∃ x ∈ t.sends, x.id = id) → s.sendDone p n id qsOk = s1 ∧ (st ≠ qsOk → s.sendDone p n id st = s1.placeFault p t st)))
  ∧ (∀ (p : PartNo) (n : Byte) (s : State) (m : PnMsg) (rest : List PnMsg),
    let t := s.tensor p.toNat n.toNat
    let x : Tensor := { t with inbox := rest }
    let set (y : Tensor) := s.setTensor p.toNat n.toNat y
    t.inbox = m :: rest →
    (∀ b st, m = .notice b st → t.valid = true → t.acting = true → exec (.pnNotice p n) s
      = .next ((set { x with mirror := true }).toPeer t (.demote (BitVec.ofNat 5 t.ppart) (BitVec.ofNat 8 t.pten))))
    ∧ (∀ b st, m = .notice b st → t.valid = true → t.role = 2 → t.acting = false →
      let ack := FabMsg.ack (BitVec.ofNat 5 t.ppart) (BitVec.ofNat 8 t.pten) (BitVec.ofNat 10 b) st
      ((∃ c ∈ t.unnoticed, c.block = b ∧ c.step = st) → exec (.pnNotice p n) s = .next
          ((set { x with mirror := true, unnoticed := t.unnoticed.filter (fun c => !(c.block == b && c.step == st)) }).toPeer t ack))
      ∧ ((∀ c ∈ t.unnoticed, ¬(c.block = b ∧ c.step = st)) → exec (.pnNotice p n) s
          = .next ((set { x with mirror := true, noticed := t.noticed ++ [(b, st)] }).toPeer t ack)))
    ∧ (∀ b st c, m = .ack b st → (∀ c ∈ t.waiting, s.ptime.toNat ≤ c.at_.toNat + 2 * t.tfail) →
      t.waiting.find? (fun c => c.block == b && c.step == st) = some c → exec (.pnAck p n) s
        = .next ((set { x with mirror := true, waiting := t.waiting.filter (fun c => !(c.block == b && c.step == st)) }).sendCommit
          p.toNat n.toNat c))
    ∧ (∀ b st, m = .ack b st → t.valid = true → t.role = 1 → t.fenced = false →
      (∃ c ∈ t.waiting, c.at_.toNat + 2 * t.tfail < s.ptime.toNat) →
      exec (.pnAck p n) s = .next ((set { x with mirror := true }).fenceNode p.toNat n.toNat))
    ∧ (m = .demote → t.valid = true → t.role = 1 → s.mirrored t = true → t.fenced = false → exec (.pnDemote p n) s = .next ((set x).fenceNode p.toNat n.toNat)))
  ∧ (∀ (p : PartNo) (n : Byte) (s : State), let t := s.tensor p.toNat n.toNat
    (t.valid = true → t.role = 2 → t.acting = false → s.mirrored t = true →
      ((s.link (64 * (t.outPort / 4) + s.hopOf (t.outPort / 4) t.pmod)).up = false
        ∨ ∃ c ∈ t.unnoticed, c.at_.toNat + t.tfail ≤ s.ptime.toNat) →
      exec (.pnTakeover p n) s = .next (t.unnoticed.foldl (fun q c => q.sendCommit p.toNat n.toNat c)
        (((s.setTensor p.toNat n.toNat { t with acting := true, mirror := false, unnoticed := [] }).toPeer t
          (.demote (BitVec.ofNat 5 t.ppart) (BitVec.ofNat 8 t.pten))).report p.toNat n.toNat repTakeover false 0 t.top 0)))
    ∧ (t.valid = true → t.role = 1 → t.fenced = false → (∃ c ∈ t.waiting, c.at_.toNat + 2 * t.tfail ≤ s.ptime.toNat) →
      exec (.pnFenced p n) s = .next (s.fenceNode p.toNat n.toNat))
    ∧ (∃ t' : Tensor, s.fenceNode p.toNat n.toNat = (s.setTensor p.toNat n.toNat t').report p.toNat n.toNat repMirrorLost false 0 t'.top 0
      ∧ t'.fenced = true ∧ t'.acting = false ∧ t'.mirror = false ∧ t'.waiting = [] ∧ t'.blocks = t.blocks ∧ t'.desc = t.desc))
  ∧ (∀ (p : PartNo) (n : Byte) (step : BitVec 48) (s : State), let t := s.tensor p.toNat n.toNat
    (∃ d ∈ t.deadlines, d.1 = step ∧ d.2.2 = false ∧ d.2.1.toNat ≤ s.ptime.toNat) →
    let t' : Tensor := { t with deadlines := t.deadlines.map (fun d => if d.1 == step then (d.1, d.2.1, true) else d) }
    let absent := (List.range t.nblk).filter (fun b => (t.block b).last.toNat < step.toNat)
    ((t.acting = false ∨ absent = []) → exec (.stepDeadline p n step) s = .next (s.setTensor p.toNat n.toNat t'))
    ∧ (t.acting = true → absent ≠ [] → exec (.stepDeadline p n step) s
      = .next ((s.setTensor p.toNat n.toNat { t' with missing := satInc t.missing }).report p.toNat n.toNat repMissing false 0 step
        (absent.map (fun b => 2 ^ b)).sum)))
  ∧ (∀ (u : UnitNo) (k : StrandNo) (s s1 : State) (seq n : Nat) (bytes : List Byte) (dst : Dest) (sup : Bool) (pkr : W64)
      (rest : List SqItem) (st : Nat), (s.strand u k).sq = ⟨seq, .pncfg n bytes dst sup pkr⟩ :: rest →
    let d := (List.range 16).map (fun i => BitVec.ofNat 64 (numAt bytes (8 * i) 8))
    s.pncfgStatus u n d sup pkr = (st, s1) →
    let old := s1.tensor (s.unitPart u) n
    let new := old.configured d
    let acts := new.valid && new.acting && old.valid && !old.acting && old.role == 2
    let solo := new.valid && new.role == 1 && old.valid && !new.fenced && !s1.mirrored new
    let new' : Tensor := { new with unnoticed := if acts then [] else new.unnoticed, waiting := if solo then [] else new.waiting }
    (st = 0 → exec (.pncfgEffect u k) s = .next (((((if acts then old.unnoticed else []) ++ (if solo then old.waiting else [])).foldl
      (fun q c => q.sendCommit (s.unitPart u) n c) (s1.setTensor (s.unitPart u) n new')).deliver u k seq dst 0 0).pop u k seq))
    ∧ (st ≠ 0 → exec (.pncfgEffect u k) s = .next ((s1.deliver u k seq dst 0 st).pop u k seq)))
  ∧ (∀ (t : Tensor) (d : List W64), t.valid = true → (t.configured d).waiting = t.waiting ∧ (t.configured d).unnoticed = t.unnoticed
    ∧ (t.configured d).desc = d)
  ∧ (∀ (s : State) (u : UnitNo) (n : Nat) (d : List W64) (sup : Bool) (pkr : W64),
    let p := s.unitPart u
    let old := s.tensor p n
    let new : Tensor := { Tensor.reset with desc := d }
    let r := s.pncfgStatus u n d sup pkr
    (new.descOk = false → r = (2, s))
    ∧ (new.descOk = true → ∀ ok s1,
      (if bit (new.word 0) 0 then s.pagesOk ⟨u, p, sup, pkr⟩ new.pages else (true, s)) = (ok, s1) →
      (ok = false → r = (3, s1))
      ∧ (ok = true → bit (new.word 0) 0 = true → (∀ v ∈ s1.partUnits p, v < 528) → r = (4, s1))
      ∧ (ok = true → (bit (new.word 0) 0 = false ∨ ∃ v ∈ s1.partUnits p, 528 ≤ v) →
        (old.valid = true → old.busy = true → sameBut old new = false → r = (1, s1))
        ∧ ((old.valid = false ∨ old.busy = false ∨ sameBut old new = true) → r = (0, s1)))))
  ∧ (∀ t : Tensor, (t.descOk = true ↔ field (t.word 0) 63 41 = 0 ∧ (∀ k < 6, field (t.word (k + 1)) 63 57 = 0)
      ∧ field (t.word 7) 63 48 = 0 ∧ field (t.word 9) 63 57 = 0 ∧ (∀ k < 6, t.word (k + 10) = 0)
      ∧ ¬(bit (t.word 0) 0 = true ∧ t.role = 3) ∧ t.holdmax ≠ 0 ∧ t.expect ≠ 0 ∧ 1000 ≤ t.tfail ∧ t.tfail ≤ 10000000
      ∧ field (t.word 1) 11 0 = 0)
    ∧ (t.busy = true ↔ t.slots ≠ [] ∨ ∃ b ∈ t.blocks, b.2.applying ≠ none ∨ b.2.held ≠ []))
  ∧ (∀ (s : State) (w : Who) (va : W64) (n : Nat) (rest : List (W64 × Nat)), s.pagesOk w [] = (true, s)
    ∧ (∀ e s1, s.translateRange w .read .probe (piecesOf va n) = (.error e, s1) → s.pagesOk w ((va, n) :: rest) = (false, s1))
    ∧ ∀ x s1, s.translateRange w .read .probe (piecesOf va n) = (.ok x, s1) →
      (∀ e s2, s1.translateRange w .write .probe (piecesOf va n) = (.error e, s2) → s.pagesOk w ((va, n) :: rest) = (false, s2))
      ∧ ∀ hs s2, s1.translateRange w .write .probe (piecesOf va n) = (.ok hs, s2) →
        ((∀ h ∈ hs, placeOf h.1.key = .far 0 ∨ placeOf h.1.key = .far 1) → s.pagesOk w ((va, n) :: rest) = s2.pagesOk w rest)
        ∧ ((∃ h ∈ hs, placeOf h.1.key ≠ .far 0 ∧ placeOf h.1.key ≠ .far 1) → s.pagesOk w ((va, n) :: rest) = (false, s2)))

/-! ### Errors, host memory accesses, and module service -/

/-- R86, R175, R229, R250, R267, R284, R306, R342, R417: what an uncorrectable error does to the resource it stands in, the loss of a
die, and host reads and writes of device memory. What the home of a line that a slice has not written back
holds, and the DETAIL of a core fault, are free values (log entries 17 and 33); where an error of a queue entry or a block is found is
the model's choice (log entry 67), and so is what clears the error of a tensor or region entry (log entry 43). -/
def Obligations.ErrorsAndHostAccesses : Prop :=
  (∀ (u : UnitNo) (k : StrandNo) (s : State), let t := s.strand u k
    let ruled (x : State) : State := x.setStrand u k { x.strand u k with ruleErr := t.ruleErr || t.rule.isSome }
    (∀ name : Byte, (t.run ≠ .halted → t.run ≠ .stopped → exec (.strandEccError u k (.register name)) s
        = .next (s.stopStrand u k name.toNat))
      ∧ ((t.run = .halted ∨ t.run = .stopped) → exec (.strandEccError u k (.register name)) s = .next s))
    ∧ (∀ seq cells space ea cmp sent rest, t.sq = ⟨seq, .store cells space ea cmp sent⟩ :: rest → cells ≠ [] →
      exec (.strandEccError u k (.storeEntry seq)) s
        = .next ((ruled (s.poisonKeys ((cells.map Prod.fst).filter (fun a => a < 2 ^ 62 && !isFar a)))).pop u k seq))
    ∧ (∀ seq a sent rest, t.sq = ⟨seq, .atomic a sent⟩ :: rest → (SqKind.atomic a sent).keys ≠ [] →
      exec (.strandEccError u k (.storeEntry seq)) s
        = .next (((ruled (s.poisonKeys ((SqKind.atomic a sent).keys.filter (fun a => a < 2 ^ 62 && !isFar a)))).markBad u k
          ⟨seq, a.dst, false, causePoison, a.ea, a.pc⟩).pop u k seq))
    ∧ (∀ q rest, t.sq = q :: rest → q.kind.keys = [] → t.takesFaults = true →
      exec (.strandEccError u k (.storeEntry q.seq)) s = .next (s.stopStrand u k (q.seq % 2 ^ 40 + 2 ^ 40)))
    ∧ ∀ seq, (∃ q ∈ t.lq, q.seq = seq) → t.takesFaults = true →
      exec (.strandEccError u k (.loadEntry seq)) s = .next (s.stopStrand u k (seq % 2 ^ 40 + 2 ^ 41)))
  ∧ (∀ (u : UnitNo) (s : State), let c := s.core u
    exec (.coreEccError u .corrected) s = .next (s.setCore u { c with corrected := c.corrected + 1 })
    ∧ (∀ a : BitVec 21, exec (.coreEccError u (.spad a)) s = .next (s.poisonKeys [spadKey u.toNat a.toNat]))
    ∧ (∀ (t : BitVec 3) (row lane : BitVec 6), exec (.coreEccError u (.tile t row lane)) s
        = .next (s.setCore u { c with badElems := (64 * (64 * t.toNat + row.toNat) + lane.toNat) :: c.badElems }))
    ∧ (∀ (q : BitVec 5) (n : W64), ∃ x : Queue, exec (.coreEccError u (.queueEntry q n)) s = .next (s.setCore u (c.setQueue q.toNat x))
        ∧ x.entries.map (fun e => (e.num, e.word)) = (c.queue q.toNat).entries.map (fun e => (e.num, e.word))
        ∧ (∀ e ∈ x.entries, e.num = n → e.bad = true) ∧ x.nx = (c.queue q.toNat).nx ∧ x.tl = (c.queue q.toNat).tl)
    ∧ (∀ b : BitVec 9, exec (.coreEccError u (.barrier b)) s
        = .next ((s.setCore u (c.setBarrier b.toNat { c.barrier b.toNat with frozen := true })).coreFault u 1))
    ∧ (∀ q : BitVec 5, exec (.coreEccError u (.timeline q)) s
        = .next ((s.setCore u (c.setQueue q.toNat { c.queue q.toNat with frozen := true })).coreFault u 2))
    ∧ (∀ t : BitVec 6, exec (.coreEccError u (.tensor t)) s = .next (s.setCore u { c with badTids := t.toNat :: c.badTids }))
    ∧ (∀ r : BitVec 5, exec (.coreEccError u (.region r)) s = .next (s.setCore u { c with badRgns := r.toNat :: c.badRgns }))
    ∧ (∀ (b : Bool) (k : BitVec 2), exec (.coreEccError u (.slot b k)) s
        = .next (s.setCore u (c.setSlot b k.toNat { c.slotOf b k.toNat with bad := true })))
    ∧ (∀ pp : BitVec 3, exec (.coreEccError u (.accumulator pp)) s
        = .next ((s.setCore u (c.setAcc pp.toNat { c.acc pp.toNat with psn := true })).coreFault u 3))
    ∧ (∀ n : BitVec 14, u.toNat = 512 + n.toNat / 1024 → exec (.coreEccError u (.counter n)) s
        = .next (({ s with fabric := { s.fabric with frozenCounters := n.toNat :: s.fabric.frozenCounters } } : State).coreFault u 4))
    ∧ (∀ va : W64, exec (.coreEccError u (.tlb va)) s = .next (s.setCore u { c with
        corrected := c.corrected + 1, tlb := c.tlb.filter (fun e => !(e.base ≤ va57 va && va57 va < e.base + e.size)) }))
    ∧ ∀ p : PairRef, u = pairUnit (PairRef.no p) → exec (.coreEccError u (.ring p)) s
        = .next ((s.setPair (PairRef.no p) { s.pairOf (PairRef.no p) with frozen := true }).coreFault u 5))
  ∧ (∀ (c : ClusterNo) (s : State),
    exec (.clusterEccError c .cleanLine) s = .next s
    ∧ exec (.clusterEccError c .corrected) s
      = .next (s.setCluster c.toNat { s.cluster c.toNat with corrected := (s.cluster c.toNat).corrected + 1 })
    ∧ (∀ va : W64, exec (.clusterEccError c (.tlb va)) s = .next (s.setCluster c.toNat { s.cluster c.toNat with
        corrected := (s.cluster c.toNat).corrected + 1
        tlb := (s.cluster c.toNat).tlb.filter (fun e => !(e.base ≤ va57 va && va57 va < e.base + e.size)) }))
    ∧ (∀ off : BitVec 26, exec (.clusterEccError c (.pinned off)) s = .next (s.poisonKeys [pinKey c.toNat off.toNat]))
    ∧ (∀ (a : BitVec 52) (k : Nat), s.hostKey (a.toNat / 128 * 128) = some k →
        exec (.clusterEccError c (.dirtyLine a)) s = .next (s.poisonKeys ((List.range 128).map (k + ·))))
    ∧ (∀ core : BitVec 4, let u : UnitNo := BitVec.ofNat 10 (16 * c.toNat + core.toNat)
        (s.core u).pair.buf ≠ none → exec (.clusterEccError c (.pair core)) s
          = .next (s.setCore u { s.core u with pair := { (s.core u).pair with bad := true } }))
    ∧ ∀ g : BitVec 2, (s.groupOf c.toNat g.toNat).started = true →
        exec (.clusterEccError c (.group g)) s = .next (s.breakGroup c.toNat g.toNat))
  ∧ (∀ (a : BitVec 52) (s : State) (k : Nat), s.hostKey a.toNat = some k →
    ((∃ d, placeOf k = .die d) ∨ (∃ d, placeOf k = .far d)) →
    (Table.get 0 s.homes.blocks (k / 512) = 0 →
      exec (.memoryEccError (.line a)) s = .next (s.poisonKeys ((List.range 128).map (k / 128 * 128 + ·))))
    ∧ (Table.get 0 s.homes.blocks (k / 512) ≠ 0 →
      exec (.memoryEccError (.line a)) s = .next (s.poisonKeys ((List.range 512).map (k / 512 * 512 + ·)))))
  ∧ (∀ s : State, ∃ h : Homes, exec (.memoryEccError .corrected) s = .next { s with homes := h }
    ∧ h.corrected = s.homes.corrected + 1 ∧ h.walk = s.homes.walk ∧ h.dir = s.homes.dir)
  ∧ (∀ (die : BitVec 4) (level : BitVec 3) (va : W64) (s : State), ∃ h : Homes,
    exec (.memoryEccError (.walkEntry die level va)) s = .next { s with homes := h } ∧ h.corrected = s.homes.corrected + 1
    ∧ h.dir = s.homes.dir ∧ ∀ w, w ∈ h.walk ↔ w ∈ s.homes.walk
      ∧ ¬(w.die = die.toNat ∧ w.level = level.toNat ∧ w.base = va57 va / 2 ^ (9 * level.toNat + 3)))
  ∧ (∀ (page : BitVec 52) (s : State) (k : Nat) (r : DirRecord), s.tableKey page.toNat = some k →
    (Table.has s.homes.dir (k / 4096) = true → Table.get ⟨[], 1, 0, [], false⟩ s.homes.dir (k / 4096) = r →
      exec (.memoryEccError (.record page)) s = .next (s.evict (k / 4096) { r with multi := true, dies := s.homes.allDies }))
    ∧ (Table.has s.homes.dir (k / 4096) = false → exec (.memoryEccError (.record page)) s = .next s))
  ∧ (∀ (d : BitVec 4) (s : State),
    (d.toNat ≤ 9 → s.isUp = true → exec (.dieLoss d) s = .next (({ s with homes := { s.homes with lost := d.toNat :: s.homes.lost } } : State).routeFault
      32 clsDie d.toNat 0 0 0 0))
    ∧ ((9 < d.toNat ∨ s.isUp = false) → exec (.dieLoss d) s = .next s))
  ∧ (∀ (a : BitVec 52) (data : List Byte) (stale : List ClusterNo) (s : State) (ks : List Nat), s.isUp = true →
    s.hostKeys a data.length = some ks →
    let answer (l : List Byte) : HostMsg := if ks.any s.poisoned then .dmaRead a.toNat [] true else .dmaRead a.toNat l false
    exec (.hostDma false a data stale) s
      = .next { s.toHost (answer (ks.map s.dmaByte)) with tick := s.tick + 1 }
    ∧ ((∃ k ∈ ks, s.writeHeld k = true) → exec (.hostDma true a data stale) s = .next s)
    ∧ ((∀ k ∈ ks, s.writeHeld k = false) → ∃ t : State, exec (.hostDma true a data stale) s = .next t
      ∧ t.mem = (s.writeCells (cellsOf ks data)).mem ∧ t.units = s.units ∧ t.strands = s.strands
      ∧ ∀ c, c ∉ stale → t.cluster c.toNat = s.cluster c.toNat)
    ∧ (cxlMem a.toNat = true → cxlMem (a.toNat + data.length - 1) = true →
      exec (.hostCxlMemAccess false a data) s = .next (s.toHost (answer (ks.map s.readByte)))
      ∧ ((∀ k ∈ ks, s.writeHeld k = false) →
        exec (.hostCxlMemAccess true a data) s = .next (s.makeVisible 1023 (cellsOf ks data) []))))

/-- R284, R435 to R441: power states, bring-up, attestation, measurements and telemetry. SPDM's bits and versions, the check of a
signature and the answer before negotiation are from outside the spec (log entry 31); what the clock reads before its first
change (log entry 68) and the DETAIL of a TRIP's faults (log entry 67) are the model's choice. -/
def Obligations.PowerBootAndAttestation : Prop :=
  (∀ (w : BitVec 16) (s : State), let x := s.service
    x.power ≠ .trip → ∀ hot inlet : Byte,
      (x.pcap.toNat - 100 ≤ w.toNat → hot.toNat < 95 → inlet.toNat ≤ 45 →
        (x.power ≠ .p1 ∨ x.stepAt.toNat + 10000 ≤ s.ptime.toNat) → exec (.clockStep ⟨w, hot, inlet⟩) s
          = .next { s with service := { x with power := .p1, mhz := BitVec.ofNat 11 (max 400 (x.clock - 100)), stepAt := s.ptime } })
      ∧ ((w.toNat < x.pcap.toNat - 100 ∨ 95 ≤ hot.toNat ∨ 45 < inlet.toNat
          ∨ (x.power = .p1 ∧ s.ptime.toNat < x.stepAt.toNat + 10000)) → exec (.clockStep ⟨w, hot, inlet⟩) s = .next s)
      ∧ (w.toNat < x.pcap.toNat - 100 → hot.toNat < 95 → inlet.toNat ≤ 45 →
        exec (.enterP0 w ⟨hot, inlet⟩) s = .next { s with service := { x with power := .p0, mhz := 1600 } })
      ∧ ((x.pcap.toNat - 100 ≤ w.toNat ∨ 95 ≤ hot.toNat ∨ 45 < inlet.toNat) → exec (.enterP0 w ⟨hot, inlet⟩) s = .next s)
      ∧ ((95 ≤ hot.toNat ∨ 45 < inlet.toNat) →
          exec (.thermalP2 hot inlet) s = .next { s with service := { x with power := .p2, mhz := 400 } })
      ∧ (hot.toNat < 95 → inlet.toNat ≤ 45 → exec (.thermalP2 hot inlet) s = .next s))
  ∧ (∀ (hot : Byte) (low : Bool) (s : State), s.service.power ≠ .trip →
    (hot.toNat < 110 → low = false → exec (.trip hot low) s = .next s)
    ∧ ((110 ≤ hot.toNat ∨ low = true) → ∃ t : State, exec (.trip hot low) s = .next t ∧ t.service.power = .trip ∧ t.mem = [] ∧ t.isUp = false
      ∧ t.strands = State.reset.strands ∧ t.parts = State.reset.parts
      ∧ t.service.out = ((List.range 32).foldl (fun q p => q.routeFault p clsDie 0xFF 0 0 0 0) s).service.out))
  ∧ (∀ (b : BootInfo) (s : State), let n := s.service.rollback
    let ok := sha384 (beBytes 96 b.key.toNat) = Config.vendorKey ∧ b.headerDigest = b.imageDigest
      ∧ signatureOk b.key (sha384 (beBytes 48 b.imageDigest.toNat ++ toBytes 4 b.version.toNat)) b.signature = true
      ∧ n.toNat ≤ b.version.toNat
    ∃ t : State, exec (.boot b) s = .next t ∧ t.mem = [] ∧ t.strands = State.reset.strands ∧ t.parts = State.reset.parts
      ∧ (¬ok → t.service.recovery = true ∧ t.isUp = false ∧ t.service.rollback = n)
      ∧ (ok → t.service.recovery = false ∧ t.isUp = true ∧ t.service.rollback.toNat = max n.toNat b.version.toNat
        ∧ t.service.registers = [extendMeasure 0 b.measured, extendMeasure 0 b.imageDigest, extendMeasure 0 b.microcode,
            extendMeasure 0 b.screening, 0, 0, 0, 0]
        ∧ (∀ d, d < 8 → (d ∈ t.homes.present ↔ b.dies.getLsbD d = true))
        ∧ (∀ d, d < 2 → (8 + d ∈ t.homes.farPresent ↔ b.farDies.getLsbD d = true))
        ∧ (∀ p, p < 64 → t.optics.bad0.getLsbD p = b.badPorts.getLsbD p)
        ∧ ∀ p, p < 16 → t.optics.bad1.getLsbD p = b.badPorts.getLsbD (64 + p)))
  ∧ (∀ s : State, s.service.power ≠ .trip →
    exec .getVersion s = .next (s.toHost (.spdmVersion [0x1200])) ∧ exec .getCapabilities s = .next (s.toHost (.spdmCapabilities 0x12))
    ∧ exec .getCertificate s = .next (s.toHost (.spdmCertificate Config.vendorKey Config.deviceChain))
    ∧ (∀ offered : List W32, (0x081B ∈ offered →
        exec (.negotiateAlgorithms offered) s
          = .next (({ s with service := { s.service with negotiated := true } } : State).toHost (.spdmAlgorithms 0x4 0x2 0 0x081B)))
      ∧ (0x081B ∉ offered → exec (.negotiateAlgorithms offered) s
          = .next (({ s with service := { s.service with negotiated := false } } : State).toHost .spdmError)))
    ∧ (∀ nonce : BitVec 256, (s.service.negotiated = true →
        exec (.challenge nonce) s = .next (s.toHost (.spdmChallengeAuth nonce (Config.sign nonce [])))
        ∧ exec (.getMeasurements nonce) s
          = .next (s.toHost (.spdmMeasurements nonce s.service.registers (Config.sign nonce s.service.registers))))
      ∧ (s.service.negotiated = false → exec (.challenge nonce) s = .next (s.toHost .spdmError)
        ∧ exec (.getMeasurements nonce) s = .next (s.toHost .spdmError))))
  ∧ (∀ (s : State) (m : HostMsg), (s.toHost m).service.out = s.service.out ++ [m] ∧ (s.toHost m).mem = s.mem
    ∧ (s.toHost m).strands = s.strands)
  ∧ (∀ (v : W64) (s : State), s.isUp = true →
    ((field v 11 0 < 800 ∨ 3200 < field v 11 0) → exec (.pcapWrite v) s = .next s)
    ∧ (800 ≤ field v 11 0 → field v 11 0 ≤ 3200 →
      exec (.pcapWrite v) s = .next { s with service := { s.service with pcap := v.setWidth 12 } })
    ∧ ∃ x : Service, exec (.mext v) s = .next { s with service := x } ∧ x.staged = []
      ∧ x.measurement (4 + field v 1 0) = extendMeasure (s.service.measurement (4 + field v 1 0)) s.service.stagedDigest
      ∧ ∀ i, i ≠ 4 + field v 1 0 → x.measurement i = s.service.measurement i)
  ∧ (∀ (w : BitVec 16) (temps : W32) (flow : BitVec 16) (dropped : Bool) (s : State), let x := s.service
    (x.power = .trip → exec (.telemetrySample w temps flow dropped) s = .next s)
    ∧ (x.power ≠ .trip → (dropped = true ∨ s.homes.spent 4 s.homes.agents = true) → ∃ n : W32, exec (.telemetrySample w temps flow dropped) s
        = .next { s with service := { x with drop := n } }
      ∧ n.toNat = min (x.drop.toNat + 1) (2 ^ 32 - 1))
    ∧ (x.power ≠ .trip → dropped = false → s.homes.spent 4 s.homes.agents = false → exec (.telemetrySample w temps flow dropped) s
      = .next { s.spend 4 s.homes.agents with service := { x with watts := w, temps := temps, flow := flow, mhz := BitVec.ofNat 11 x.clock } }))

/-! ### Rules stated whole -/

/-- R51: NOP has no effect but that its latch becomes invalid, and no other word of class A, MAJ 0x01 is an instruction. -/
def Obligations.NopHasNoEffect : Prop :=
  (∀ (y : Syl) (s : State), Issues (.nop y) s → ∃ t : State, exec (.nop y) s = .next t ∧ t.mem = s.mem ∧ t.poison = s.poison
    ∧ t.clusters = s.clusters ∧ t.homes = s.homes ∧ t.parts = s.parts ∧ t.fabric = s.fabric ∧ t.ptime = s.ptime
    ∧ let r := t.strand s.curU s.curK
      r.latch 0 = .invalid ∧ r.w = s.me.w ∧ r.a = s.me.a ∧ r.p = s.me.p ∧ r.m = s.me.m ∧ r.td = s.me.td ∧ r.held = s.me.held.map (fun h => { h with fresh := false })
      ∧ r.bad = s.me.bad ∧ r.srctr = s.me.srctr ∧ r.vwin = s.me.vwin)
  ∧ (∀ w0 w1 w2 : BitVec 32, field w0 9 3 = 1 →
    ((∃ t, decodeSyl w0 w1 w2 = .ok t) ↔ w0 = 0x00000008 ∨ w0 = 0x0000000C)
    ∧ ∀ t, decodeSyl w0 w1 w2 = .ok t → t.instr = .nop t.syl ∧ t.syl.len = .s32 ∧ (t.stop = true ↔ w0 = 0x0000000C))
  ∧ (∀ (s s1 : State) (u : UnitNo) (k : StrandNo) (r : RawSyl), (s.actAs u k).fetchBundle u k .demand = (.ok [r], s1) →
    field r.w0 9 3 = 1 → r.w0 ≠ 0x00000008 → r.w0 ≠ 0x0000000C →
    s.issueBundle u k = .next (s1.trapHere causeIllegalInstruction 0 0 0 r.off))

/-- R136: TRAP takes SOFTWARE-TRAP; its bundle commits nothing, the frame holds its address, that of the bundle after it, no
address and the code, and a return goes to what TPC then holds. -/
def Obligations.TrapRaisesSoftwareTrap : Prop :=
  (∀ (y : Syl) (s : State), Issues (.trap y) s → s.me.td = false → s.me.entryWaits = false →
    (∀ n, n < 1280 → s.liveKey (spadKey s.curU.toNat (field s.me.tfbase 20 8 * 256 + n))
      = spadKey s.curU.toNat (field s.me.tfbase 20 8 * 256 + n)) →
    ∃ t : State, exec (.trap y) s = .next t ∧ frameWord t 0x00 = s.me.pc.toNat ∧ frameWord t 0x08 = (s.npc s.curU s.curK).toNat
      ∧ frameWord t 0x10 % 2 ^ 9 = 0x06 ∧ frameWord t 0x18 = 0 ∧ frameWord t 0x20 = (if y.len = .x96 then y.lit.toNat else 0)
      ∧ t.me.pc = s.me.tvec &&& ~~~3 ∧ t.me.w = s.me.w ∧ t.me.a = s.me.a ∧ t.me.p = s.me.p ∧ t.me.m = s.me.m
      ∧ t.me.lq = s.me.lq ∧ t.me.sq = s.me.sq ∧ t.me.srctr = s.me.srctr ∧ t.fabric = s.fabric ∧ t.parts = s.parts ∧ t.homes = s.homes
      ∧ ∀ j, (∀ n, n < 1280 → s.liveKey j ≠ spadKey s.curU.toNat (field s.me.tfbase 20 8 * 256 + n)) → t.readByte j = s.readByte j)
  ∧ (∀ (s s1 : State) (rs : List RawSyl), s.fetchBundle s.curU s.curK .quiet = (.ok rs, s1) →
    s.npc s.curU s.curK = s.me.pc + BitVec.ofNat 64 (rawLen rs))
  ∧ (∀ s : State, ((s.returnTrap s.curU s.curK).strand s.curU s.curK).pc = BitVec.ofNat 64 (frameWord s 0x00))

/-- R140: the work identifier of the instance, its field layout, and the reads of one field and of its level. -/
def Obligations.WorkIdentifierFields : Prop :=
  (∀ (y : Syl) (s : State), CompletesA (.rdwid y) y s s.me.wid ∧ readCR s 0x011 = .ok s.me.wid ∧ readCR s 0x012 = .ok s.me.widfmt)
  ∧ (∀ (y : Syl) (s : State) (k : Nat),
    (if y.len = .x96 then (.ok y.lit : Rd W32) else readW s y.s2) = .ok (BitVec.ofNat 32 k) → k < 2 ^ 32 →
    (k ≤ 5 → k < field s.me.widfmt 56 54 →
      CompletesA (.rdwf y) y s (BitVec.ofNat 64 (s.me.wid.toNat
        / 2 ^ ((List.range k).map (fun j => field s.me.widfmt (9 * j + 5) (9 * j) + 1)).sum
        % 2 ^ (field s.me.widfmt (9 * k + 5) (9 * k) + 1)))
      ∧ CompletesW (.rdwfl y) y s (BitVec.ofNat 32 (field s.me.widfmt (9 * k + 8) (9 * k))))
    ∧ (5 < k ∨ field s.me.widfmt 56 54 ≤ k →
      (Issues (.rdwf y) s → Traps (.rdwf y) s 0x02 0 0) ∧ (Issues (.rdwfl y) s → Traps (.rdwfl y) s 0x02 0 0)))
  ∧ (∀ (s : State) (l : Launch) (i num u : Nat) (n : Node), u < 1024 → n.nstr = 1 → n.combo (· == 0) num < 8 →
    let t := (s.startInstance l i n none (num, u)).strand (BitVec.ofNat 10 u) (BitVec.ofNat 3 (n.combo (· == 0) num))
    t.wid = n.wid num ∧ t.widfmt = n.widfmt)

/-! ### The machine as a whole -/

/-- The reset columns of Tables 3-1, 3-2, 6-1, 6-4, 8-1, 9-1, 10-1, 12-2, 12-4, 13-6, 15-1, 15-5, 16-1, 16-10, 20-1, 20-3, 21-1 and
24-2: what reset leaves, by name and as the registers read. The model's choices: a strand's run state, pc and CIRCCTX before its
first launch (log entries 3 and 5), package time (log entry 6), the power and clock before the first sample (log entry 68), what memory reads as (log entry 2), and that no BOOT
has come about (log entry 34). -/
def Obligations.ResetValues : Prop :=
  State.reset.mem = [] ∧ State.reset.poison = [] ∧ State.reset.ptime = 0 ∧ State.reset.Canonical ∧ State.reset.isUp = false
  ∧ (∀ (u : UnitNo) (k : StrandNo), let t := State.reset.strand u k
    t.run = .halted ∧ t.pc = 0 ∧ (∀ n, t.getW n = 0) ∧ (∀ n, t.getA n = 0) ∧ t.p = 1 ∧ t.m = [] ∧ (∀ n, t.latch n = .invalid) ∧ t.td = false
    ∧ t.rm = 0 ∧ t.ftz = false ∧ t.srkey = 0 ∧ t.srctr = 0 ∧ t.tvec = 0 ∧ t.tfbase = 0 ∧ t.lcnt0 = 0 ∧ t.lbeg0 = 0 ∧ t.lend0 = 0
    ∧ t.lcnt1 = 0 ∧ t.lbeg1 = 0 ∧ t.lend1 = 0 ∧ t.repn = 0 ∧ t.repi = 0 ∧ t.vwin = 0 ∧ t.pkr = 0 ∧ t.circctx = 8
    ∧ t.promise = BitVec.allOnes 64 ∧ t.lq = [] ∧ t.sq = [] ∧ t.bad = [] ∧ t.held = [] ∧ t.entering = none)
  ∧ (∀ (u : UnitNo) (q b : Nat), (State.reset.core u).cycle = 0 ∧ (State.reset.core u).active = none
    ∧ ((State.reset.core u).queue q).nx = 0 ∧ ((State.reset.core u).queue q).tl = 0 ∧ ((State.reset.core u).queue q).entries = []
    ∧ ((State.reset.core u).queue q).head = 0 ∧ ((State.reset.core u).queue q).tail = 0 ∧ ((State.reset.core u).queue q).fault = 0
    ∧ ((State.reset.core u).barrier b).count = 1 ∧ ((State.reset.core u).barrier b).phn = 0 ∧ ((State.reset.core u).barrier b).arrived = 0
    ∧ (State.reset.core u).group = none)
  ∧ (∀ (u : UnitNo) (n : Nat), let a := (State.reset.core u).acc n
    (∀ k, a.coef k = 0) ∧ a.scl = 0 ∧ a.deg = 63 ∧ a.trunc = false ∧ a.unstable = false ∧ a.nan = false ∧ a.range = false
    ∧ a.psn = false ∧ a.ops = [])
  ∧ (∀ (u : UnitNo) (k : StrandNo), let s : State := { State.reset with curU := u, curK := k }
    (∀ n, n ∈ [0x001, 0x002, 0x003, 0x004, 0x005, 0x006, 0x007, 0x008, 0x009, 0x00A, 0x00B, 0x00C, 0x00D, 0x00E, 0x010, 0x014,
      0x021, 0x022, 0x023, 0x024, 0x025, 0x026, 0x027, 0x030, 0x031, 0x032, 0x041, 0x043, 0x044, 0x045, 0x060, 0x061, 0x062, 0x063,
      0x074, 0x075, 0x076, 0x077, 0x090, 0x091, 0x092, 0x093, 0x094, 0x095, 0x096] → readCR s n = .ok 0)
    ∧ (∀ n v, (n, v) ∈ [(0x015, BitVec.allOnes 64), (0x020, 0x0000000F000001F0), (0x033, 0x00100000), (0x034, 0x00010000),
      (0x050, 10000), (0x051, 2000), (0x052, 20000), (0x053, 5000), (0x054, 1000), (0x070, 48)] → readCR s n = .ok v)
    ∧ (∀ i, i < 10 → readCR s (0x046 + i) = .ok 0) ∧ (∀ i, i < 5 → readCR s (0x058 + i) = .ok 0)
    ∧ ∀ i, i < 32 → readCR s (0x100 + 2 * i) = .ok 0 ∧ readCR s (0x101 + 2 * i) = .ok 0 ∧ readCR s (0x140 + i) = .ok 0)
  ∧ (∀ p, (∀ o v, (o, v) ∈ [(0x00, (0x100 : W64)), (0x08, 0x5FD517D00), (0x10, 0), (0x18, 0), (0x20, 0), (0x28, 0), (0x30, 16384),
      (0x38, 0)] → State.reset.partRead p o = v)
    ∧ (∀ h k, h < 4096 → k < 4 → State.reset.partRead p (0x100000 + 32 * h + 8 * k) = 0)
    ∧ (∀ n k, n < 1024 → k < 8 → State.reset.partRead p (0x200000 + 64 * n + 8 * k) = 0)
    ∧ (∀ c, c < 16384 → State.reset.partRead p (0x300000 + 8 * c) = 0)
    ∧ (∀ c, 1 ≤ c → c ≤ 17 → (State.reset.partOf p).route c
      = if c ∈ [1, 2, 3, 9] then 0 else if c ∈ [5, 6, 13, 14, 15] then 3 else 1)
    ∧ (State.reset.partOf p).launches = [] ∧ (State.reset.partOf p).tensors = [])
  ∧ (∀ i, (i < 560 → State.reset.moduleRead (0x1000 + 8 * i) = 0) ∧ (i < 80 → State.reset.moduleRead (0x3000 + 8 * i) = 0)
    ∧ (i < 8 → State.reset.moduleRead (0x3400 + 8 * i) = 0) ∧ (i < 384 → State.reset.moduleRead (0x4000 + 8 * i) = 0)
    ∧ (i < 16 → State.reset.moduleRead (0x20100 + 8 * i) = 0) ∧ (i < 4 → State.reset.moduleRead (0x20200 + 8 * i) = 0)
    ∧ (i < 256 → State.reset.moduleRead (0x21000 + 8 * i) = 0 ∧ State.reset.moduleRead (0x22000 + 8 * i) = 0
      ∧ State.reset.moduleRead (0x23000 + 8 * i) = 0))
  ∧ State.reset.moduleRead 0x20000 = 0 ∧ State.reset.moduleRead 0x40000 = 0 ∧ State.reset.moduleRead 0x40008 = 0
  ∧ State.reset.moduleRead 0x40010 = 0 ∧ State.reset.moduleRead 0x40018 = 3200
  ∧ (∀ c l, State.reset.counter c = 0 ∧ (State.reset.link l).up = false ∧ (State.reset.pairOf c).cfg = 0)
  ∧ State.reset.service.pcap = 3200 ∧ State.reset.service.power = .p0 ∧ State.reset.service.registers = List.replicate 8 0

/-- R26, R53, R161, R321: a step at which a strand issues runs the decoded instruction, or the decoded bundle; one at which an
engine takes a command runs the command at the head of its queue; and an event runs its own instruction. The model's choices:
how far code is asked for ahead (log entry 11), an event whose walk reads an entry that is being evicted comes about later (log
entry 96), and without power only time passes or the module boots (R436). -/
def Obligations.StepRunsDecoded : Prop :=
  (∀ (u : UnitNo) (k : StrandNo) (s s1 : State) (rest : List Act) (rs : List RawSyl), s.agenda = .issue u k :: rest →
    let s0 : State := { s with agenda := rest }
    s.service.power ≠ .trip → u.toNat < 560 → s0.mayIssue u k = true → s0.fetchMissing u k = [] → s0.fetchComing u k = false →
    (s0.strand u k).entering = none → s0.asyncDue u k = false → (s0.quantumDue u k = false ∨ (s0.core u).group ≠ none) →
    (s0.actAs u k).fetchBundle u k .demand = (.ok rs, s1) →
    (∀ t, decodeBundle rs = .ok [t] → step s = exec t.instr s1)
    ∧ (∀ ts, decodeBundle rs = .ok ts → ts.length ≠ 1 → step s = .next (s1.runBundle (s1.bundleOf rs ts)))
    ∧ ∀ r e, decodeBundle rs = .error (r, e) →
      step s = .next (s1.trapHere causeIllegalInstruction 0 0 (field r.w0 9 8) r.off))
  ∧ (∀ (u : UnitNo) (k : StrandNo) (s s1 : State) (rest : List Act) (f : XFault) (ea : W64), s.agenda = .issue u k :: rest →
    let s0 : State := { s with agenda := rest }
    s.service.power ≠ .trip → u.toNat < 560 → s0.mayIssue u k = true → s0.fetchMissing u k = [] → s0.fetchComing u k = false →
    (s0.strand u k).entering = none → s0.asyncDue u k = false → (s0.quantumDue u k = false ∨ (s0.core u).group ≠ none) →
    ((s0.actAs u k).fetchBundle u k .demand = (.error (.xlate f ea), s1) → step s = .next (s1.trapHere f.cause ea f.word 0 0))
    ∧ ((s0.actAs u k).fetchBundle u k .demand = (.error (.poison ea), s1) →
      let s2 := s1.dropReqs (fun r => r.owner == some (s1.curU.toNat, fetchMark) && r.fail.isSome)
      step s = .next (s2.trapHere causePoison ea s1.me.pc 0 0)))
  ∧ (∀ (u : UnitNo) (k : StrandNo) (s : State) (rest : List Act), s.agenda = .issue u k :: rest →
    let s0 : State := { s with agenda := rest }
    s.service.power ≠ .trip → u.toNat < 560 →
    (s0.mayIssue u k = false → step s = .next s0)
    ∧ (s0.mayIssue u k = true → s0.fetchMissing u k ≠ [] → step s = .next (s0.fetchFar u k))
    ∧ (s0.mayIssue u k = true → s0.fetchMissing u k = [] → s0.fetchComing u k = true → step s = .next s0))
  ∧ (∀ (u : UnitNo) (e : BitVec 2) (s : State) (rest : List Act),
    s.agenda = .engine u e :: rest → let s0 : State := { s with agenda := rest }
    s.service.power ≠ .trip → u.toNat < 560 →
    (Table.has (s0.core u).eng e.toNat = true → step s = .next (s0.writeEarly u e.toNat))
    ∧ (Table.has (s0.core u).eng e.toNat = false → ∀ n x more i, s0.nextQueue u e.toNat = some n →
      ((s0.core u).queue n).entries = x :: more → decodeCmd ⟨u, BitVec.ofNat 5 n⟩ x.word = .ok i → step s = exec i s0))
  ∧ (∀ (i : Instr) (s : State) (rest : List Act), s.agenda = .event i :: rest → i.syl? = none → wfEvent i = true →
    let s0 : State := { s with agenda := rest }
    (s.service.power ≠ .trip ∨ ∃ b, i = .boot b) →
    ∀ t, exec i s0 = .next t → step s = .next (if s0.walkedEvicted t then s0 else t))
  ∧ (∀ (a : Act) (s : State) (rest : List Act), s.agenda = a :: rest → s.service.power = .trip →
    (∀ n, a ≠ .advance n) → (∀ b, a ≠ .event (.boot b)) → step s = .next { s with agenda := rest })

/-- The model's encoder and decoder agree (R33 to R42, R57 to R59): decoding an encoded well-formed slot instruction,
command or sequencer word gives it back with every field, and a decoded syllable encodes to its own words. -/
def Obligations.EncodedInstructionsDecodeToThemselves : Prop :=
  (∀ (i : Instr) (maj : Nat) (y : Syl) (stop : Bool) (w1 w2 : BitVec 32), i.syl? = some (maj, y) → wfSyl i maj y = true →
    let ws := encodeSyl maj stop y
    ∃ t, decodeSyl (ws.headD 0) ((ws[1]?).getD w1) ((ws[2]?).getD w2) = .ok t ∧ t.instr = i ∧ t.syl = y ∧ t.maj = maj ∧ t.stop = stop
      ∧ t.cls.toNat = maj / 32)
  ∧ (∀ (w0 w1 w2 : BitVec 32) (t : Slot), decodeSyl w0 w1 w2 = .ok t →
    encodeSyl t.maj t.stop t.syl = [w0, w1, w2].take (t.syl.len.bytes / 4))
  ∧ (∀ (i : Instr) (op : Nat) (q : QRef) (c : Cmd), i.cmd? = some (op, q, c) → frameOk (q.queue.toNat % 4) (encodeCmd op c) = none →
    decodeCmd q (encodeCmd op c) = .ok i)
  ∧ (∀ (i : Instr) (op : Nat) (x : SeqCtx) (a : SeqArg), i.seq? = some (op, x, a) → seqFieldsOk op a = true →
    decodeSeq x (encodeSeq op a) = .ok i)

/-- R270, R276, R279: the bytes of memory by place. A byte reads as last written and no other byte changes, under the pages that
moves have put in place of others; writing clears poison; memory and its marks keep their canonical form. -/
def Obligations.MemoryReadsAsWritten : Prop :=
  (∀ (s : State) (k : Nat) (b : Byte), (s.writeByte k b).readByte k = b
    ∧ (∀ j, s.liveKey j ≠ s.liveKey k → (s.writeByte k b).readByte j = s.readByte j)
    ∧ (s.writeByte k b).poison.read (s.liveKey k) = 0)
  ∧ (∀ (s : State) (cells : List (Nat × Byte)) (j : Nat),
    ((∀ c ∈ cells, s.liveKey c.1 ≠ s.liveKey j) → (s.writeCells cells).readByte j = s.readByte j)
    ∧ (∀ b, (∀ c ∈ cells, s.liveKey c.1 = s.liveKey j → c.2 = b) → (∃ c ∈ cells, s.liveKey c.1 = s.liveKey j) →
      (s.writeCells cells).readByte j = b))
  ∧ (∀ (s : State) (keys : List Nat) (j : Nat), (s.poisonKeys keys).mem = s.mem
    ∧ ((s.poisonKeys keys).poisoned j = true ↔ s.poisoned j = true ∨ ∃ k ∈ keys, s.liveKey k = s.liveKey j))
  ∧ (∀ (s : State) (cells : List (Nat × Byte)) (keys : List Nat), s.Canonical →
    (s.writeCells cells).Canonical ∧ (s.poisonKeys keys).Canonical)

/-- R270: whatever the next act is, a step that goes on leaves memory and its poison marks in canonical form where they were so. The
form is the model's own: a list in rising order of keys that lists no byte at the value an unlisted one has (log entry 2). -/
def Obligations.StepKeepsMemoryCanonical : Prop :=
  ∀ s t : State, s.Canonical → step s = .next t → t.Canonical

/-- R28, R30, R71, R78: what a completion (Completes) leaves unchanged. Beside what its result changes, a committed bundle moves the pc,
the loop and repetition counts, the latches and the run's own counts of the acting strand, passes markers at the heads of
its queues, and lets one core cycle pass; every other strand and core, and the rest of the state, are as the result left them. -/
def Obligations.CommitChangesOnly : Prop :=
  ∀ (s : State) (len c : Nat) (d : Done), d.ret = false → d.endRun = .no →
    let a := d.apply (s.setMe { s.me with srctr := s.me.srctr + BitVec.ofNat 32 (if d.ctr then 1 else 0), wait := .none })
    let t := s.commit len [(c, d)]
    a.curU = s.curU → a.curK = s.curK →
    t.mem = a.mem ∧ t.poison = a.poison ∧ t.codeLog = a.codeLog ∧ t.clusters = a.clusters ∧ t.homes = a.homes ∧ t.seqs = a.seqs
    ∧ t.optics = a.optics ∧ t.parts = a.parts ∧ t.assign = a.assign ∧ t.slotTable = a.slotTable ∧ t.clock = a.clock
    ∧ t.fabric = a.fabric ∧ t.service = a.service ∧ t.ptime = a.ptime ∧ t.agenda = a.agenda ∧ t.tick = a.tick
    ∧ (∀ u, u ≠ s.curU → t.core u = a.core u) ∧ t.core s.curU = { a.core s.curU with
      cycle := (a.core s.curU).cycle + 1, tlOld := [], barOld := [], ivOld := [] }
    ∧ (∀ u k, strandKey u k ≠ strandKey s.curU s.curK → t.strand u k = a.strand u k)
    ∧ t.me.run = a.me.run ∧ t.me.w = a.me.w ∧ t.me.a = a.me.a ∧ t.me.p = a.me.p ∧ t.me.m = a.me.m ∧ t.me.td = a.me.td
    ∧ t.me.rm = a.me.rm ∧ t.me.ftz = a.me.ftz ∧ t.me.srkey = a.me.srkey ∧ t.me.srctr = a.me.srctr ∧ t.me.tvec = a.me.tvec
    ∧ t.me.tfbase = a.me.tfbase ∧ t.me.lbeg0 = a.me.lbeg0 ∧ t.me.lend0 = a.me.lend0 ∧ t.me.lbeg1 = a.me.lbeg1 ∧ t.me.lend1 = a.me.lend1
    ∧ t.me.repSkip = a.me.repSkip ∧ t.me.skipAt = a.me.skipAt ∧ t.me.wid = a.me.wid ∧ t.me.vwin = a.me.vwin ∧ t.me.promise = a.me.promise ∧ t.me.pkr = a.me.pkr
    ∧ t.me.ivtl = a.me.ivtl ∧ t.me.ivnx = a.me.ivnx ∧ t.me.pathrec = a.me.pathrec ∧ t.me.seq = a.me.seq ∧ t.me.bad = a.me.bad
    ∧ t.me.held = a.me.held.map (fun h => { h with fresh := false }) ∧ t.me.entering = a.me.entering ∧ t.me.inst = a.me.inst ∧ t.me.exitStatus = a.me.exitStatus ∧ t.me.lq <:+ a.me.lq ∧ t.me.sq <:+ a.me.sq
    ∧ t.me.runLen = a.me.runLen + 1
    ∧ (s.me.repn = 0 → a.me.lcnt0 = 0 → a.me.lcnt1 = 0 →
      t.me.pc = d.target.getD (a.me.pc + BitVec.ofNat 64 len) ∧ t.me.lcnt0 = 0 ∧ t.me.lcnt1 = 0 ∧ t.me.repn = a.me.repn)

/-- R27, R28: an instruction of slots A and B other than those that end a strand's run (MAJ 0x0F) writes no memory: where its next state is not that of a trap, memory, poison,
clusters, homes, partitions and the fabric are as before. -/
def Obligations.ScalarSlotsLeaveMemory : Prop :=
  ∀ (i : Instr) (maj : Nat) (y : Syl) (s t : State), i.syl? = some (maj, y) → maj < 0x40 → maj ≠ 0x0F → s.me.td = false → exec i s = .next t →
    t.me.td = false → t.mem = s.mem ∧ t.poison = s.poison ∧ t.clusters = s.clusters ∧ t.homes = s.homes ∧ t.parts = s.parts
      ∧ t.fabric = s.fabric ∧ t.service = s.service

/-- R33 to R42, R57 to R59 and the encoded examples of the chapters: words written out from the spec decode to the instructions they
stand for. -/
def Obligations.ExampleWordsDecode : Prop :=
  let g : Guard := ⟨0, false⟩
  let z : Src := .reg 0
  decodeTableWord 96 (5 * 2 ^ 64 + 0x08000012) = some (.mov ⟨.x96, g, false, 2, z, z, z, 0, 0, 0, 0, 5⟩)
  ∧ decodeTableWord 96 (0x18 * 2 ^ 64 + 0x0010006A) = some (.loop ⟨.x96, g, false, 0, .reg 2, z, z, 0, 0, 0, 0, 0x18⟩)
  ∧ decodeTableWord 32 0x0408310C = some (.addB ⟨.s32, g, false, 1, .reg 1, .reg 3, z, 0, 0, 0, 0, 0⟩)
  ∧ decodeTableWord 32 0x0000047C = some (.halt ⟨.s32, g, false, 0, z, z, z, 1, 0, 0, 0, 0⟩)
  ∧ decodeTableWord 64 (0x00080000 * 2 ^ 32 + 0x00100225) = some (.stG ⟨.l64, g, false, 0, .reg 2, z, .reg 1, 0, 0, 0, 0, 0⟩)
  ∧ decodeTableWord 32 0x00100274 = some (.vwin ⟨.s32, g, false, 0, .reg 2, z, z, 0, 0, 0, 0, 0⟩)
  ∧ decodeTableWord 96 (0x001F0040 * 2 ^ 64 + 0x2C000266) = some (.enq ⟨.x96, g, false, 11, z, z, z, 0, 0, 0, 0, 0x001F0040⟩)
  ∧ decodeTableWord 96 (0x3F000000 * 2 ^ 64 + 0x00007000 * 2 ^ 32 + 0x00080B76)
    = some (.ppmul ⟨.x96, g, false, 0, .reg 1, z, z, 2, 7, 0, 0, 0x3F000000⟩)
  ∧ decodeTableWord 256 (0x9B * 2 ^ 128 + 0x701) = some (.mma ⟨0, 0⟩ ⟨7, false, false, 0, 0, 0, false, 0, 0, 0, 0x9B⟩)
  ∧ decodeTableWord 64 0x1050638008000000 = some (.sqest 0 0x050638008000000)
  ∧ decodeTableWord 64 0x8800000000000000 = some (.sqhalt 0 0x800000000000000)
  ∧ decodeTableWord 32 0x0000000A = none
end

