-- ==== Sys2Proof/Laws/Table.lean ====
section
/-! SUPPORT. Tables and memories: what is set is read, the rest stays, and the canonical form is kept. -/

namespace Sys2Proof.Machine

/-! ### Tables -/

theorem Table.get_insert {α : Type} (d : α) (t : Table α) (k : Nat) (v : α) (j : Nat)
    (h : Table.has t k = false) :
    Table.get d (Table.insert k v t) j = if k = j then v else Table.get d t j := by
  induction t with
  | nil => simp [Table.insert, Table.get]
  | cons e t ih =>
    obtain ⟨i, x⟩ := e
    simp only [Table.has, List.any_cons, Bool.or_eq_false_iff, beq_eq_false_iff_ne] at h
    have ih := ih (by simpa [Table.has] using h.2)
    unfold Table.insert
    split
    · simp [Table.get]
    · simp only [Table.get, ih]
      by_cases hj : i = j
      · have : k ≠ j := fun hk => h.1 (hj.trans hk.symm)
        simp [hj, this]
      · simp [hj]

theorem Table.has_erase {α : Type} (t : Table α) (k : Nat) : Table.has (Table.erase k t) k = false := by
  induction t with
  | nil => rfl
  | cons e t ih =>
    obtain ⟨i, x⟩ := e
    unfold Table.erase
    split
    · exact ih
    · rename_i h
      simp only [Table.has, List.any_cons, Bool.or_eq_false_iff, beq_eq_false_iff_ne]
      exact ⟨h, by simpa [Table.has] using ih⟩

theorem Table.get_erase {α : Type} (d : α) (t : Table α) (k j : Nat) :
    Table.get d (Table.erase k t) j = if k = j then d else Table.get d t j := by
  induction t with
  | nil => simp [Table.erase, Table.get]
  | cons e t ih =>
    obtain ⟨i, x⟩ := e
    unfold Table.erase
    split
    · rename_i h
      subst h
      rw [ih]
      by_cases hj : i = j <;> simp [Table.get, hj]
    · rename_i h
      simp only [Table.get, ih]
      by_cases hj : i = j
      · have : k ≠ j := fun hk => h (hj.trans hk.symm)
        simp [hj, this]
      · simp [hj]

/-- What was set is read, and every other key reads as before. -/
theorem Table.get_set {α : Type} (d : α) (t : Table α) (k : Nat) (v : α) (j : Nat) :
    Table.get d (Table.set t k v) j = if k = j then v else Table.get d t j := by
  rw [Table.set, Table.get_insert d _ k v j (Table.has_erase t k), Table.get_erase]
  by_cases h : k = j <;> simp [h]

@[simp] theorem Table.get_set_self {α : Type} (d : α) (t : Table α) (k : Nat) (v : α) :
    Table.get d (Table.set t k v) k = v := by simp [Table.get_set]

theorem Table.get_set_of_ne {α : Type} (d : α) (t : Table α) (k : Nat) (v : α) (j : Nat) (h : k ≠ j) :
    Table.get d (Table.set t k v) j = Table.get d t j := by simp [Table.get_set, h]

/-! ### Memories -/

theorem Memory.read_eq_get (m : Memory) (a : Nat) : m.read a = Table.get emptyByte m a := by
  induction m with
  | nil => rfl
  | cons e m ih =>
    obtain ⟨i, b⟩ := e
    simp only [Memory.read, Table.get, ih]

/-- A written byte is read, and every other address reads as before. -/
theorem Memory.read_write (m : Memory) (a : Nat) (b : Byte) (j : Nat) :
    (m.write a b).read j = if a = j then b else m.read j := by
  rw [Memory.read_eq_get, Memory.read_eq_get, Memory.write]
  split
  · rename_i h
    rw [Table.get_erase, h]
  · exact Table.get_set emptyByte m a b j

/-- Addresses strictly rising from a lower bound, and no listed byte the empty one. -/
def Memory.Rising (lo : Nat) : Memory → Prop
  | [] => True
  | (i, b) :: m => lo ≤ i ∧ b ≠ emptyByte ∧ Memory.Rising (i + 1) m

theorem Memory.rising_mono {m : Memory} {a b : Nat} (h : m.Rising a) (hb : b ≤ a) : m.Rising b := by
  cases m with
  | nil => trivial
  | cons e m => exact ⟨Nat.le_trans hb h.1, h.2⟩

theorem Memory.wf_cons_iff (i : Nat) (b : Byte) (m : Memory) :
    Memory.wf ((i, b) :: m) = true ↔ b ≠ emptyByte ∧ Memory.Rising (i + 1) m := by
  induction m generalizing i b with
  | nil => simp [Memory.wf, Memory.Rising]
  | cons e m ih =>
    obtain ⟨j, c⟩ := e
    have hi := ih j c
    simp only [Memory.wf, Bool.and_eq_true, bne_iff_ne, ne_eq, decide_eq_true_eq, Memory.Rising]
    rw [hi]
    constructor
    · rintro ⟨⟨h1, h2⟩, h3, h4⟩
      exact ⟨h1, by omega, h3, h4⟩
    · rintro ⟨h1, h2, h3, h4⟩
      exact ⟨⟨h1, by omega⟩, h3, h4⟩

/-- The Bool form and the bounded form of the canonical form agree. -/
theorem Memory.wf_iff (m : Memory) : m.wf = true ↔ m.Rising 0 := by
  cases m with
  | nil => simp [Memory.wf, Memory.Rising]
  | cons e m =>
    obtain ⟨i, b⟩ := e
    rw [Memory.wf_cons_iff]
    simp [Memory.Rising]

theorem Memory.rising_erase {m : Memory} {lo : Nat} (k : Nat) (h : m.Rising lo) :
    Memory.Rising lo (Table.erase k m) := by
  induction m generalizing lo with
  | nil => trivial
  | cons e m ih =>
    obtain ⟨i, b⟩ := e
    unfold Table.erase
    split
    · exact ih (Memory.rising_mono h.2.2 (by have := h.1; omega))
    · exact ⟨h.1, h.2.1, ih h.2.2⟩

theorem Memory.rising_insert {m : Memory} {lo : Nat} (k : Nat) (b : Byte) (h : m.Rising lo) (hk : lo ≤ k)
    (hb : b ≠ emptyByte) (hn : Table.has m k = false) : Memory.Rising lo (Table.insert k b m) := by
  induction m generalizing lo with
  | nil => exact ⟨hk, hb, trivial⟩
  | cons e m ih =>
    obtain ⟨i, c⟩ := e
    simp only [Table.has, List.any_cons, Bool.or_eq_false_iff, beq_eq_false_iff_ne] at hn
    unfold Table.insert
    split
    · rename_i hlt
      exact ⟨hk, hb, Nat.succ_le_of_lt hlt, h.2⟩
    · rename_i hge
      refine ⟨h.1, h.2.1, ih h.2.2 ?_ (by simpa [Table.has] using hn.2)⟩
      have := hn.1
      omega

/-- A write keeps the canonical form. -/
theorem Memory.wf_write {m : Memory} (a : Nat) (b : Byte) (h : m.wf = true) : (m.write a b).wf = true := by
  rw [Memory.wf_iff] at h ⊢
  unfold Memory.write
  split
  · exact Memory.rising_erase a h
  · exact Memory.rising_insert a b (Memory.rising_erase a h) (Nat.zero_le a) ‹_› (Table.has_erase m a)

theorem Memory.wf_writeN {m : Memory} (a : Nat) (bs : List Byte) (h : m.wf = true) :
    (m.writeN a bs).wf = true := by
  induction bs generalizing m a with
  | nil => exact h
  | cons b bs ih => exact ih (a + 1) (Memory.wf_write a b h)

theorem Memory.rising_filter {m : Memory} {lo : Nat} (f : Host.Cell → Bool) (h : m.Rising lo) :
    Memory.Rising lo (m.filter f) := by
  induction m generalizing lo with
  | nil => trivial
  | cons e m ih =>
    obtain ⟨i, b⟩ := e
    rw [List.filter_cons]
    split
    · exact ⟨h.1, h.2.1, ih h.2.2⟩
    · exact ih (Memory.rising_mono h.2.2 (by have := h.1; omega))

/-- Dropping listed bytes keeps the canonical form. -/
theorem Memory.wf_filter {m : Memory} (f : Host.Cell → Bool) (h : m.wf = true) :
    Memory.wf (m.filter f) = true := by
  rw [Memory.wf_iff] at h ⊢
  exact Memory.rising_filter f h

/-- Equal reads of canonical memories are equal memories. -/
theorem Memory.rising_read_lt {m : Memory} {lo a : Nat} (h : m.Rising lo) (ha : a < lo) :
    m.read a = emptyByte := by
  induction m generalizing lo with
  | nil => rfl
  | cons e m ih =>
    obtain ⟨i, b⟩ := e
    have h1 := h.1
    have : i ≠ a := by omega
    simp only [Memory.read, this, if_false]
    exact ih h.2.2 (by omega)

theorem Memory.ext_of_rising {m n : Memory} {lo : Nat} (hm : m.Rising lo) (hn : n.Rising lo)
    (h : ∀ a, m.read a = n.read a) : m = n := by
  induction m generalizing n lo with
  | nil =>
    cases n with
    | nil => rfl
    | cons e n =>
      obtain ⟨i, b⟩ := e
      have := h i
      simp [Memory.read] at this
      exact absurd this.symm hn.2.1
  | cons e m ih =>
    obtain ⟨i, b⟩ := e
    cases n with
    | nil =>
      have := h i
      simp [Memory.read] at this
      exact absurd this hm.2.1
    | cons f n =>
      obtain ⟨j, c⟩ := f
      have hij : i = j := by
        rcases Nat.lt_trichotomy i j with hlt | heq | hgt
        · have h1 : Memory.read ((j, c) :: n) i = emptyByte :=
            Memory.rising_read_lt (lo := j) ⟨Nat.le_refl j, hn.2⟩ hlt
          have h2 : Memory.read ((i, b) :: m) i = b := by simp [Memory.read]
          exact absurd (h2.symm.trans ((h i).trans h1)) hm.2.1
        · exact heq
        · have h1 : Memory.read ((i, b) :: m) j = emptyByte :=
            Memory.rising_read_lt (lo := i) ⟨Nat.le_refl i, hm.2⟩ hgt
          have h2 : Memory.read ((j, c) :: n) j = c := by simp [Memory.read]
          exact absurd (h2.symm.trans ((h j).symm.trans h1)) hn.2.1
      subst hij
      have hbc : b = c := by simpa [Memory.read] using h i
      subst hbc
      congr 1
      apply ih hm.2.2 hn.2.2
      intro a
      have ha := h a
      by_cases hia : i = a
      · subst hia
        rw [Memory.rising_read_lt hm.2.2 (Nat.lt_succ_self i), Memory.rising_read_lt hn.2.2 (Nat.lt_succ_self i)]
      · simpa [Memory.read, hia] using ha

/-- A canonical memory is its reads. -/
theorem Memory.ext {m n : Memory} (hm : m.wf = true) (hn : n.wf = true) (h : ∀ a, m.read a = n.read a) : m = n :=
  Memory.ext_of_rising ((Memory.wf_iff m).1 hm) ((Memory.wf_iff n).1 hn) h

end Sys2Proof.Machine
end

