-- ==== Sys2Proof/Laws/State.lean ====
section
/-! SUPPORT. The state's updates field by field: what each leaves as it was, and what is read after it. -/

namespace Sys2Proof.Machine

/-! ### setStrand -/

@[simp] theorem State.setStrand_mem (s : State) (u : UnitNo) (k : StrandNo) (t : Strand) : (s.setStrand u k t).mem = s.mem := rfl
@[simp] theorem State.setStrand_poison (s : State) (u : UnitNo) (k : StrandNo) (t : Strand) : (s.setStrand u k t).poison = s.poison := rfl
@[simp] theorem State.setStrand_codeLog (s : State) (u : UnitNo) (k : StrandNo) (t : Strand) : (s.setStrand u k t).codeLog = s.codeLog := rfl
@[simp] theorem State.setStrand_units (s : State) (u : UnitNo) (k : StrandNo) (t : Strand) : (s.setStrand u k t).units = s.units := rfl
@[simp] theorem State.setStrand_clusters (s : State) (u : UnitNo) (k : StrandNo) (t : Strand) : (s.setStrand u k t).clusters = s.clusters := rfl
@[simp] theorem State.setStrand_homes (s : State) (u : UnitNo) (k : StrandNo) (t : Strand) : (s.setStrand u k t).homes = s.homes := rfl
@[simp] theorem State.setStrand_seqs (s : State) (u : UnitNo) (k : StrandNo) (t : Strand) : (s.setStrand u k t).seqs = s.seqs := rfl
@[simp] theorem State.setStrand_optics (s : State) (u : UnitNo) (k : StrandNo) (t : Strand) : (s.setStrand u k t).optics = s.optics := rfl
@[simp] theorem State.setStrand_parts (s : State) (u : UnitNo) (k : StrandNo) (t : Strand) : (s.setStrand u k t).parts = s.parts := rfl
@[simp] theorem State.setStrand_assign (s : State) (u : UnitNo) (k : StrandNo) (t : Strand) : (s.setStrand u k t).assign = s.assign := rfl
@[simp] theorem State.setStrand_slotTable (s : State) (u : UnitNo) (k : StrandNo) (t : Strand) : (s.setStrand u k t).slotTable = s.slotTable := rfl
@[simp] theorem State.setStrand_clock (s : State) (u : UnitNo) (k : StrandNo) (t : Strand) : (s.setStrand u k t).clock = s.clock := rfl
@[simp] theorem State.setStrand_fabric (s : State) (u : UnitNo) (k : StrandNo) (t : Strand) : (s.setStrand u k t).fabric = s.fabric := rfl
@[simp] theorem State.setStrand_service (s : State) (u : UnitNo) (k : StrandNo) (t : Strand) : (s.setStrand u k t).service = s.service := rfl
@[simp] theorem State.setStrand_ptime (s : State) (u : UnitNo) (k : StrandNo) (t : Strand) : (s.setStrand u k t).ptime = s.ptime := rfl
@[simp] theorem State.setStrand_curU (s : State) (u : UnitNo) (k : StrandNo) (t : Strand) : (s.setStrand u k t).curU = s.curU := rfl
@[simp] theorem State.setStrand_curK (s : State) (u : UnitNo) (k : StrandNo) (t : Strand) : (s.setStrand u k t).curK = s.curK := rfl
@[simp] theorem State.setStrand_agenda (s : State) (u : UnitNo) (k : StrandNo) (t : Strand) : (s.setStrand u k t).agenda = s.agenda := rfl
@[simp] theorem State.setStrand_tick (s : State) (u : UnitNo) (k : StrandNo) (t : Strand) : (s.setStrand u k t).tick = s.tick := rfl

/-! ### setCore -/

@[simp] theorem State.setCore_mem (s : State) (u : UnitNo) (c : Core) : (s.setCore u c).mem = s.mem := rfl
@[simp] theorem State.setCore_poison (s : State) (u : UnitNo) (c : Core) : (s.setCore u c).poison = s.poison := rfl
@[simp] theorem State.setCore_codeLog (s : State) (u : UnitNo) (c : Core) : (s.setCore u c).codeLog = s.codeLog := rfl
@[simp] theorem State.setCore_strands (s : State) (u : UnitNo) (c : Core) : (s.setCore u c).strands = s.strands := rfl
@[simp] theorem State.setCore_clusters (s : State) (u : UnitNo) (c : Core) : (s.setCore u c).clusters = s.clusters := rfl
@[simp] theorem State.setCore_homes (s : State) (u : UnitNo) (c : Core) : (s.setCore u c).homes = s.homes := rfl
@[simp] theorem State.setCore_seqs (s : State) (u : UnitNo) (c : Core) : (s.setCore u c).seqs = s.seqs := rfl
@[simp] theorem State.setCore_optics (s : State) (u : UnitNo) (c : Core) : (s.setCore u c).optics = s.optics := rfl
@[simp] theorem State.setCore_parts (s : State) (u : UnitNo) (c : Core) : (s.setCore u c).parts = s.parts := rfl
@[simp] theorem State.setCore_assign (s : State) (u : UnitNo) (c : Core) : (s.setCore u c).assign = s.assign := rfl
@[simp] theorem State.setCore_slotTable (s : State) (u : UnitNo) (c : Core) : (s.setCore u c).slotTable = s.slotTable := rfl
@[simp] theorem State.setCore_clock (s : State) (u : UnitNo) (c : Core) : (s.setCore u c).clock = s.clock := rfl
@[simp] theorem State.setCore_fabric (s : State) (u : UnitNo) (c : Core) : (s.setCore u c).fabric = s.fabric := rfl
@[simp] theorem State.setCore_service (s : State) (u : UnitNo) (c : Core) : (s.setCore u c).service = s.service := rfl
@[simp] theorem State.setCore_ptime (s : State) (u : UnitNo) (c : Core) : (s.setCore u c).ptime = s.ptime := rfl
@[simp] theorem State.setCore_curU (s : State) (u : UnitNo) (c : Core) : (s.setCore u c).curU = s.curU := rfl
@[simp] theorem State.setCore_curK (s : State) (u : UnitNo) (c : Core) : (s.setCore u c).curK = s.curK := rfl
@[simp] theorem State.setCore_agenda (s : State) (u : UnitNo) (c : Core) : (s.setCore u c).agenda = s.agenda := rfl
@[simp] theorem State.setCore_tick (s : State) (u : UnitNo) (c : Core) : (s.setCore u c).tick = s.tick := rfl

/-! ### setCluster -/

@[simp] theorem State.setCluster_mem (s : State) (n : Nat) (x : Cluster) : (s.setCluster n x).mem = s.mem := rfl
@[simp] theorem State.setCluster_poison (s : State) (n : Nat) (x : Cluster) : (s.setCluster n x).poison = s.poison := rfl
@[simp] theorem State.setCluster_codeLog (s : State) (n : Nat) (x : Cluster) : (s.setCluster n x).codeLog = s.codeLog := rfl
@[simp] theorem State.setCluster_units (s : State) (n : Nat) (x : Cluster) : (s.setCluster n x).units = s.units := rfl
@[simp] theorem State.setCluster_strands (s : State) (n : Nat) (x : Cluster) : (s.setCluster n x).strands = s.strands := rfl
@[simp] theorem State.setCluster_homes (s : State) (n : Nat) (x : Cluster) : (s.setCluster n x).homes = s.homes := rfl
@[simp] theorem State.setCluster_seqs (s : State) (n : Nat) (x : Cluster) : (s.setCluster n x).seqs = s.seqs := rfl
@[simp] theorem State.setCluster_optics (s : State) (n : Nat) (x : Cluster) : (s.setCluster n x).optics = s.optics := rfl
@[simp] theorem State.setCluster_parts (s : State) (n : Nat) (x : Cluster) : (s.setCluster n x).parts = s.parts := rfl
@[simp] theorem State.setCluster_assign (s : State) (n : Nat) (x : Cluster) : (s.setCluster n x).assign = s.assign := rfl
@[simp] theorem State.setCluster_slotTable (s : State) (n : Nat) (x : Cluster) : (s.setCluster n x).slotTable = s.slotTable := rfl
@[simp] theorem State.setCluster_clock (s : State) (n : Nat) (x : Cluster) : (s.setCluster n x).clock = s.clock := rfl
@[simp] theorem State.setCluster_fabric (s : State) (n : Nat) (x : Cluster) : (s.setCluster n x).fabric = s.fabric := rfl
@[simp] theorem State.setCluster_service (s : State) (n : Nat) (x : Cluster) : (s.setCluster n x).service = s.service := rfl
@[simp] theorem State.setCluster_ptime (s : State) (n : Nat) (x : Cluster) : (s.setCluster n x).ptime = s.ptime := rfl
@[simp] theorem State.setCluster_curU (s : State) (n : Nat) (x : Cluster) : (s.setCluster n x).curU = s.curU := rfl
@[simp] theorem State.setCluster_curK (s : State) (n : Nat) (x : Cluster) : (s.setCluster n x).curK = s.curK := rfl
@[simp] theorem State.setCluster_agenda (s : State) (n : Nat) (x : Cluster) : (s.setCluster n x).agenda = s.agenda := rfl
@[simp] theorem State.setCluster_tick (s : State) (n : Nat) (x : Cluster) : (s.setCluster n x).tick = s.tick := rfl

/-! ### setPart -/

@[simp] theorem State.setPart_mem (s : State) (p : Nat) (x : Part) : (s.setPart p x).mem = s.mem := rfl
@[simp] theorem State.setPart_poison (s : State) (p : Nat) (x : Part) : (s.setPart p x).poison = s.poison := rfl
@[simp] theorem State.setPart_codeLog (s : State) (p : Nat) (x : Part) : (s.setPart p x).codeLog = s.codeLog := rfl
@[simp] theorem State.setPart_units (s : State) (p : Nat) (x : Part) : (s.setPart p x).units = s.units := rfl
@[simp] theorem State.setPart_strands (s : State) (p : Nat) (x : Part) : (s.setPart p x).strands = s.strands := rfl
@[simp] theorem State.setPart_clusters (s : State) (p : Nat) (x : Part) : (s.setPart p x).clusters = s.clusters := rfl
@[simp] theorem State.setPart_homes (s : State) (p : Nat) (x : Part) : (s.setPart p x).homes = s.homes := rfl
@[simp] theorem State.setPart_seqs (s : State) (p : Nat) (x : Part) : (s.setPart p x).seqs = s.seqs := rfl
@[simp] theorem State.setPart_optics (s : State) (p : Nat) (x : Part) : (s.setPart p x).optics = s.optics := rfl
@[simp] theorem State.setPart_assign (s : State) (p : Nat) (x : Part) : (s.setPart p x).assign = s.assign := rfl
@[simp] theorem State.setPart_slotTable (s : State) (p : Nat) (x : Part) : (s.setPart p x).slotTable = s.slotTable := rfl
@[simp] theorem State.setPart_clock (s : State) (p : Nat) (x : Part) : (s.setPart p x).clock = s.clock := rfl
@[simp] theorem State.setPart_fabric (s : State) (p : Nat) (x : Part) : (s.setPart p x).fabric = s.fabric := rfl
@[simp] theorem State.setPart_service (s : State) (p : Nat) (x : Part) : (s.setPart p x).service = s.service := rfl
@[simp] theorem State.setPart_ptime (s : State) (p : Nat) (x : Part) : (s.setPart p x).ptime = s.ptime := rfl
@[simp] theorem State.setPart_curU (s : State) (p : Nat) (x : Part) : (s.setPart p x).curU = s.curU := rfl
@[simp] theorem State.setPart_curK (s : State) (p : Nat) (x : Part) : (s.setPart p x).curK = s.curK := rfl
@[simp] theorem State.setPart_agenda (s : State) (p : Nat) (x : Part) : (s.setPart p x).agenda = s.agenda := rfl
@[simp] theorem State.setPart_tick (s : State) (p : Nat) (x : Part) : (s.setPart p x).tick = s.tick := rfl

/-! ### setMe -/

@[simp] theorem State.setMe_mem (s : State) (t : Strand) : (s.setMe t).mem = s.mem := rfl
@[simp] theorem State.setMe_poison (s : State) (t : Strand) : (s.setMe t).poison = s.poison := rfl
@[simp] theorem State.setMe_codeLog (s : State) (t : Strand) : (s.setMe t).codeLog = s.codeLog := rfl
@[simp] theorem State.setMe_units (s : State) (t : Strand) : (s.setMe t).units = s.units := rfl
@[simp] theorem State.setMe_clusters (s : State) (t : Strand) : (s.setMe t).clusters = s.clusters := rfl
@[simp] theorem State.setMe_homes (s : State) (t : Strand) : (s.setMe t).homes = s.homes := rfl
@[simp] theorem State.setMe_seqs (s : State) (t : Strand) : (s.setMe t).seqs = s.seqs := rfl
@[simp] theorem State.setMe_optics (s : State) (t : Strand) : (s.setMe t).optics = s.optics := rfl
@[simp] theorem State.setMe_parts (s : State) (t : Strand) : (s.setMe t).parts = s.parts := rfl
@[simp] theorem State.setMe_assign (s : State) (t : Strand) : (s.setMe t).assign = s.assign := rfl
@[simp] theorem State.setMe_slotTable (s : State) (t : Strand) : (s.setMe t).slotTable = s.slotTable := rfl
@[simp] theorem State.setMe_clock (s : State) (t : Strand) : (s.setMe t).clock = s.clock := rfl
@[simp] theorem State.setMe_fabric (s : State) (t : Strand) : (s.setMe t).fabric = s.fabric := rfl
@[simp] theorem State.setMe_service (s : State) (t : Strand) : (s.setMe t).service = s.service := rfl
@[simp] theorem State.setMe_ptime (s : State) (t : Strand) : (s.setMe t).ptime = s.ptime := rfl
@[simp] theorem State.setMe_curU (s : State) (t : Strand) : (s.setMe t).curU = s.curU := rfl
@[simp] theorem State.setMe_curK (s : State) (t : Strand) : (s.setMe t).curK = s.curK := rfl
@[simp] theorem State.setMe_agenda (s : State) (t : Strand) : (s.setMe t).agenda = s.agenda := rfl
@[simp] theorem State.setMe_tick (s : State) (t : Strand) : (s.setMe t).tick = s.tick := rfl

/-! ### setMyCore -/

@[simp] theorem State.setMyCore_mem (s : State) (c : Core) : (s.setMyCore c).mem = s.mem := rfl
@[simp] theorem State.setMyCore_poison (s : State) (c : Core) : (s.setMyCore c).poison = s.poison := rfl
@[simp] theorem State.setMyCore_codeLog (s : State) (c : Core) : (s.setMyCore c).codeLog = s.codeLog := rfl
@[simp] theorem State.setMyCore_strands (s : State) (c : Core) : (s.setMyCore c).strands = s.strands := rfl
@[simp] theorem State.setMyCore_clusters (s : State) (c : Core) : (s.setMyCore c).clusters = s.clusters := rfl
@[simp] theorem State.setMyCore_homes (s : State) (c : Core) : (s.setMyCore c).homes = s.homes := rfl
@[simp] theorem State.setMyCore_seqs (s : State) (c : Core) : (s.setMyCore c).seqs = s.seqs := rfl
@[simp] theorem State.setMyCore_optics (s : State) (c : Core) : (s.setMyCore c).optics = s.optics := rfl
@[simp] theorem State.setMyCore_parts (s : State) (c : Core) : (s.setMyCore c).parts = s.parts := rfl
@[simp] theorem State.setMyCore_assign (s : State) (c : Core) : (s.setMyCore c).assign = s.assign := rfl
@[simp] theorem State.setMyCore_slotTable (s : State) (c : Core) : (s.setMyCore c).slotTable = s.slotTable := rfl
@[simp] theorem State.setMyCore_clock (s : State) (c : Core) : (s.setMyCore c).clock = s.clock := rfl
@[simp] theorem State.setMyCore_fabric (s : State) (c : Core) : (s.setMyCore c).fabric = s.fabric := rfl
@[simp] theorem State.setMyCore_service (s : State) (c : Core) : (s.setMyCore c).service = s.service := rfl
@[simp] theorem State.setMyCore_ptime (s : State) (c : Core) : (s.setMyCore c).ptime = s.ptime := rfl
@[simp] theorem State.setMyCore_curU (s : State) (c : Core) : (s.setMyCore c).curU = s.curU := rfl
@[simp] theorem State.setMyCore_curK (s : State) (c : Core) : (s.setMyCore c).curK = s.curK := rfl
@[simp] theorem State.setMyCore_agenda (s : State) (c : Core) : (s.setMyCore c).agenda = s.agenda := rfl
@[simp] theorem State.setMyCore_tick (s : State) (c : Core) : (s.setMyCore c).tick = s.tick := rfl

/-! ### setSeq -/

@[simp] theorem State.setSeq_mem (s : State) (x : Nat) (q : Seq) : (s.setSeq x q).mem = s.mem := rfl
@[simp] theorem State.setSeq_poison (s : State) (x : Nat) (q : Seq) : (s.setSeq x q).poison = s.poison := rfl
@[simp] theorem State.setSeq_codeLog (s : State) (x : Nat) (q : Seq) : (s.setSeq x q).codeLog = s.codeLog := rfl
@[simp] theorem State.setSeq_units (s : State) (x : Nat) (q : Seq) : (s.setSeq x q).units = s.units := rfl
@[simp] theorem State.setSeq_strands (s : State) (x : Nat) (q : Seq) : (s.setSeq x q).strands = s.strands := rfl
@[simp] theorem State.setSeq_clusters (s : State) (x : Nat) (q : Seq) : (s.setSeq x q).clusters = s.clusters := rfl
@[simp] theorem State.setSeq_homes (s : State) (x : Nat) (q : Seq) : (s.setSeq x q).homes = s.homes := rfl
@[simp] theorem State.setSeq_optics (s : State) (x : Nat) (q : Seq) : (s.setSeq x q).optics = s.optics := rfl
@[simp] theorem State.setSeq_parts (s : State) (x : Nat) (q : Seq) : (s.setSeq x q).parts = s.parts := rfl
@[simp] theorem State.setSeq_assign (s : State) (x : Nat) (q : Seq) : (s.setSeq x q).assign = s.assign := rfl
@[simp] theorem State.setSeq_slotTable (s : State) (x : Nat) (q : Seq) : (s.setSeq x q).slotTable = s.slotTable := rfl
@[simp] theorem State.setSeq_clock (s : State) (x : Nat) (q : Seq) : (s.setSeq x q).clock = s.clock := rfl
@[simp] theorem State.setSeq_fabric (s : State) (x : Nat) (q : Seq) : (s.setSeq x q).fabric = s.fabric := rfl
@[simp] theorem State.setSeq_service (s : State) (x : Nat) (q : Seq) : (s.setSeq x q).service = s.service := rfl
@[simp] theorem State.setSeq_ptime (s : State) (x : Nat) (q : Seq) : (s.setSeq x q).ptime = s.ptime := rfl
@[simp] theorem State.setSeq_curU (s : State) (x : Nat) (q : Seq) : (s.setSeq x q).curU = s.curU := rfl
@[simp] theorem State.setSeq_curK (s : State) (x : Nat) (q : Seq) : (s.setSeq x q).curK = s.curK := rfl
@[simp] theorem State.setSeq_agenda (s : State) (x : Nat) (q : Seq) : (s.setSeq x q).agenda = s.agenda := rfl
@[simp] theorem State.setSeq_tick (s : State) (x : Nat) (q : Seq) : (s.setSeq x q).tick = s.tick := rfl

/-! ### setPair -/

@[simp] theorem State.setPair_mem (s : State) (n : Nat) (p : Pair) : (s.setPair n p).mem = s.mem := rfl
@[simp] theorem State.setPair_poison (s : State) (n : Nat) (p : Pair) : (s.setPair n p).poison = s.poison := rfl
@[simp] theorem State.setPair_codeLog (s : State) (n : Nat) (p : Pair) : (s.setPair n p).codeLog = s.codeLog := rfl
@[simp] theorem State.setPair_units (s : State) (n : Nat) (p : Pair) : (s.setPair n p).units = s.units := rfl
@[simp] theorem State.setPair_strands (s : State) (n : Nat) (p : Pair) : (s.setPair n p).strands = s.strands := rfl
@[simp] theorem State.setPair_clusters (s : State) (n : Nat) (p : Pair) : (s.setPair n p).clusters = s.clusters := rfl
@[simp] theorem State.setPair_homes (s : State) (n : Nat) (p : Pair) : (s.setPair n p).homes = s.homes := rfl
@[simp] theorem State.setPair_seqs (s : State) (n : Nat) (p : Pair) : (s.setPair n p).seqs = s.seqs := rfl
@[simp] theorem State.setPair_optics (s : State) (n : Nat) (p : Pair) : (s.setPair n p).optics = s.optics := rfl
@[simp] theorem State.setPair_parts (s : State) (n : Nat) (p : Pair) : (s.setPair n p).parts = s.parts := rfl
@[simp] theorem State.setPair_assign (s : State) (n : Nat) (p : Pair) : (s.setPair n p).assign = s.assign := rfl
@[simp] theorem State.setPair_slotTable (s : State) (n : Nat) (p : Pair) : (s.setPair n p).slotTable = s.slotTable := rfl
@[simp] theorem State.setPair_clock (s : State) (n : Nat) (p : Pair) : (s.setPair n p).clock = s.clock := rfl
@[simp] theorem State.setPair_service (s : State) (n : Nat) (p : Pair) : (s.setPair n p).service = s.service := rfl
@[simp] theorem State.setPair_ptime (s : State) (n : Nat) (p : Pair) : (s.setPair n p).ptime = s.ptime := rfl
@[simp] theorem State.setPair_curU (s : State) (n : Nat) (p : Pair) : (s.setPair n p).curU = s.curU := rfl
@[simp] theorem State.setPair_curK (s : State) (n : Nat) (p : Pair) : (s.setPair n p).curK = s.curK := rfl
@[simp] theorem State.setPair_agenda (s : State) (n : Nat) (p : Pair) : (s.setPair n p).agenda = s.agenda := rfl
@[simp] theorem State.setPair_tick (s : State) (n : Nat) (p : Pair) : (s.setPair n p).tick = s.tick := rfl

/-! ### tickCore -/

@[simp] theorem State.tickCore_mem (s : State) (u : UnitNo) (n : Nat) : (s.tickCore u n).mem = s.mem := rfl
@[simp] theorem State.tickCore_poison (s : State) (u : UnitNo) (n : Nat) : (s.tickCore u n).poison = s.poison := rfl
@[simp] theorem State.tickCore_codeLog (s : State) (u : UnitNo) (n : Nat) : (s.tickCore u n).codeLog = s.codeLog := rfl
@[simp] theorem State.tickCore_strands (s : State) (u : UnitNo) (n : Nat) : (s.tickCore u n).strands = s.strands := rfl
@[simp] theorem State.tickCore_clusters (s : State) (u : UnitNo) (n : Nat) : (s.tickCore u n).clusters = s.clusters := rfl
@[simp] theorem State.tickCore_homes (s : State) (u : UnitNo) (n : Nat) : (s.tickCore u n).homes = s.homes := rfl
@[simp] theorem State.tickCore_seqs (s : State) (u : UnitNo) (n : Nat) : (s.tickCore u n).seqs = s.seqs := rfl
@[simp] theorem State.tickCore_optics (s : State) (u : UnitNo) (n : Nat) : (s.tickCore u n).optics = s.optics := rfl
@[simp] theorem State.tickCore_parts (s : State) (u : UnitNo) (n : Nat) : (s.tickCore u n).parts = s.parts := rfl
@[simp] theorem State.tickCore_assign (s : State) (u : UnitNo) (n : Nat) : (s.tickCore u n).assign = s.assign := rfl
@[simp] theorem State.tickCore_slotTable (s : State) (u : UnitNo) (n : Nat) : (s.tickCore u n).slotTable = s.slotTable := rfl
@[simp] theorem State.tickCore_clock (s : State) (u : UnitNo) (n : Nat) : (s.tickCore u n).clock = s.clock := rfl
@[simp] theorem State.tickCore_fabric (s : State) (u : UnitNo) (n : Nat) : (s.tickCore u n).fabric = s.fabric := rfl
@[simp] theorem State.tickCore_service (s : State) (u : UnitNo) (n : Nat) : (s.tickCore u n).service = s.service := rfl
@[simp] theorem State.tickCore_ptime (s : State) (u : UnitNo) (n : Nat) : (s.tickCore u n).ptime = s.ptime := rfl
@[simp] theorem State.tickCore_curU (s : State) (u : UnitNo) (n : Nat) : (s.tickCore u n).curU = s.curU := rfl
@[simp] theorem State.tickCore_curK (s : State) (u : UnitNo) (n : Nat) : (s.tickCore u n).curK = s.curK := rfl
@[simp] theorem State.tickCore_agenda (s : State) (u : UnitNo) (n : Nat) : (s.tickCore u n).agenda = s.agenda := rfl
@[simp] theorem State.tickCore_tick (s : State) (u : UnitNo) (n : Nat) : (s.tickCore u n).tick = s.tick := rfl

/-! ### toHost -/

@[simp] theorem State.toHost_mem (s : State) (m : HostMsg) : (s.toHost m).mem = s.mem := rfl
@[simp] theorem State.toHost_poison (s : State) (m : HostMsg) : (s.toHost m).poison = s.poison := rfl
@[simp] theorem State.toHost_codeLog (s : State) (m : HostMsg) : (s.toHost m).codeLog = s.codeLog := rfl
@[simp] theorem State.toHost_units (s : State) (m : HostMsg) : (s.toHost m).units = s.units := rfl
@[simp] theorem State.toHost_strands (s : State) (m : HostMsg) : (s.toHost m).strands = s.strands := rfl
@[simp] theorem State.toHost_clusters (s : State) (m : HostMsg) : (s.toHost m).clusters = s.clusters := rfl
@[simp] theorem State.toHost_homes (s : State) (m : HostMsg) : (s.toHost m).homes = s.homes := rfl
@[simp] theorem State.toHost_seqs (s : State) (m : HostMsg) : (s.toHost m).seqs = s.seqs := rfl
@[simp] theorem State.toHost_optics (s : State) (m : HostMsg) : (s.toHost m).optics = s.optics := rfl
@[simp] theorem State.toHost_parts (s : State) (m : HostMsg) : (s.toHost m).parts = s.parts := rfl
@[simp] theorem State.toHost_assign (s : State) (m : HostMsg) : (s.toHost m).assign = s.assign := rfl
@[simp] theorem State.toHost_slotTable (s : State) (m : HostMsg) : (s.toHost m).slotTable = s.slotTable := rfl
@[simp] theorem State.toHost_clock (s : State) (m : HostMsg) : (s.toHost m).clock = s.clock := rfl
@[simp] theorem State.toHost_fabric (s : State) (m : HostMsg) : (s.toHost m).fabric = s.fabric := rfl
@[simp] theorem State.toHost_ptime (s : State) (m : HostMsg) : (s.toHost m).ptime = s.ptime := rfl
@[simp] theorem State.toHost_curU (s : State) (m : HostMsg) : (s.toHost m).curU = s.curU := rfl
@[simp] theorem State.toHost_curK (s : State) (m : HostMsg) : (s.toHost m).curK = s.curK := rfl
@[simp] theorem State.toHost_agenda (s : State) (m : HostMsg) : (s.toHost m).agenda = s.agenda := rfl
@[simp] theorem State.toHost_tick (s : State) (m : HostMsg) : (s.toHost m).tick = s.tick := rfl

/-! ### actAs -/

@[simp] theorem State.actAs_mem (s : State) (u : UnitNo) (k : StrandNo) : (s.actAs u k).mem = s.mem := rfl
@[simp] theorem State.actAs_poison (s : State) (u : UnitNo) (k : StrandNo) : (s.actAs u k).poison = s.poison := rfl
@[simp] theorem State.actAs_codeLog (s : State) (u : UnitNo) (k : StrandNo) : (s.actAs u k).codeLog = s.codeLog := rfl
@[simp] theorem State.actAs_units (s : State) (u : UnitNo) (k : StrandNo) : (s.actAs u k).units = s.units := rfl
@[simp] theorem State.actAs_strands (s : State) (u : UnitNo) (k : StrandNo) : (s.actAs u k).strands = s.strands := rfl
@[simp] theorem State.actAs_clusters (s : State) (u : UnitNo) (k : StrandNo) : (s.actAs u k).clusters = s.clusters := rfl
@[simp] theorem State.actAs_homes (s : State) (u : UnitNo) (k : StrandNo) : (s.actAs u k).homes = s.homes := rfl
@[simp] theorem State.actAs_seqs (s : State) (u : UnitNo) (k : StrandNo) : (s.actAs u k).seqs = s.seqs := rfl
@[simp] theorem State.actAs_optics (s : State) (u : UnitNo) (k : StrandNo) : (s.actAs u k).optics = s.optics := rfl
@[simp] theorem State.actAs_parts (s : State) (u : UnitNo) (k : StrandNo) : (s.actAs u k).parts = s.parts := rfl
@[simp] theorem State.actAs_assign (s : State) (u : UnitNo) (k : StrandNo) : (s.actAs u k).assign = s.assign := rfl
@[simp] theorem State.actAs_slotTable (s : State) (u : UnitNo) (k : StrandNo) : (s.actAs u k).slotTable = s.slotTable := rfl
@[simp] theorem State.actAs_clock (s : State) (u : UnitNo) (k : StrandNo) : (s.actAs u k).clock = s.clock := rfl
@[simp] theorem State.actAs_fabric (s : State) (u : UnitNo) (k : StrandNo) : (s.actAs u k).fabric = s.fabric := rfl
@[simp] theorem State.actAs_service (s : State) (u : UnitNo) (k : StrandNo) : (s.actAs u k).service = s.service := rfl
@[simp] theorem State.actAs_ptime (s : State) (u : UnitNo) (k : StrandNo) : (s.actAs u k).ptime = s.ptime := rfl
@[simp] theorem State.actAs_agenda (s : State) (u : UnitNo) (k : StrandNo) : (s.actAs u k).agenda = s.agenda := rfl
@[simp] theorem State.actAs_tick (s : State) (u : UnitNo) (k : StrandNo) : (s.actAs u k).tick = s.tick := rfl
@[simp] theorem State.actAs_curU (s : State) (u : UnitNo) (k : StrandNo) : (s.actAs u k).curU = u := rfl
@[simp] theorem State.actAs_curK (s : State) (u : UnitNo) (k : StrandNo) : (s.actAs u k).curK = k := rfl

/-! ### Read after update -/

theorem strandKey_inj {u v : UnitNo} {k j : StrandNo} (h : strandKey u k = strandKey v j) : u = v ∧ k = j := by
  unfold strandKey at h
  have := k.isLt
  have := j.isLt
  constructor <;> apply BitVec.eq_of_toNat_eq <;> omega

theorem State.strand_setStrand (s : State) (u v : UnitNo) (k j : StrandNo) (t : Strand) :
    (s.setStrand u k t).strand v j = if u = v ∧ k = j then t else s.strand v j := by
  unfold State.strand State.setStrand
  simp only [Table.get_set]
  by_cases h : u = v ∧ k = j
  · simp [h]
  · have : strandKey u k ≠ strandKey v j := fun e => h (strandKey_inj e)
    simp [h, this]

@[simp] theorem State.strand_setStrand_self (s : State) (u : UnitNo) (k : StrandNo) (t : Strand) :
    (s.setStrand u k t).strand u k = t := by simp [State.strand_setStrand]

theorem State.core_setCore (s : State) (u v : UnitNo) (c : Core) :
    (s.setCore u c).core v = if u = v then c else s.core v := by
  unfold State.core State.setCore
  simp only [Table.get_set]
  by_cases h : u = v
  · simp [h]
  · have : u.toNat ≠ v.toNat := fun e => h (BitVec.eq_of_toNat_eq e)
    simp [h, this]

@[simp] theorem State.core_setCore_self (s : State) (u : UnitNo) (c : Core) : (s.setCore u c).core u = c := by
  simp [State.core_setCore]

@[simp] theorem State.core_setStrand (s : State) (u v : UnitNo) (k : StrandNo) (t : Strand) :
    (s.setStrand u k t).core v = s.core v := rfl
@[simp] theorem State.strand_setCore (s : State) (u v : UnitNo) (k : StrandNo) (c : Core) :
    (s.setCore u c).strand v k = s.strand v k := rfl

@[simp] theorem State.me_setMe (s : State) (t : Strand) : (s.setMe t).me = t := by
  simp [State.me, State.setMe]
@[simp] theorem State.myCore_setMyCore (s : State) (c : Core) : (s.setMyCore c).myCore = c := by
  simp [State.myCore, State.setMyCore]
@[simp] theorem State.me_setMyCore (s : State) (c : Core) : (s.setMyCore c).me = s.me := rfl
@[simp] theorem State.myCore_setMe (s : State) (t : Strand) : (s.setMe t).myCore = s.myCore := rfl
@[simp] theorem State.strand_setMyCore (s : State) (c : Core) (u : UnitNo) (k : StrandNo) :
    (s.setMyCore c).strand u k = s.strand u k := rfl
@[simp] theorem State.core_setMe (s : State) (t : Strand) (u : UnitNo) : (s.setMe t).core u = s.core u := rfl

theorem State.strand_setMe (s : State) (t : Strand) (u : UnitNo) (k : StrandNo) :
    (s.setMe t).strand u k = if s.curU = u ∧ s.curK = k then t else s.strand u k :=
  State.strand_setStrand s s.curU u s.curK k t

theorem State.core_setMyCore (s : State) (c : Core) (u : UnitNo) :
    (s.setMyCore c).core u = if s.curU = u then c else s.core u :=
  State.core_setCore s s.curU u c

@[simp] theorem State.strand_tickCore (s : State) (u v : UnitNo) (n : Nat) (k : StrandNo) :
    (s.tickCore u n).strand v k = s.strand v k := rfl
@[simp] theorem State.me_tickCore (s : State) (u : UnitNo) (n : Nat) : (s.tickCore u n).me = s.me := rfl

theorem State.core_tickCore (s : State) (u v : UnitNo) (n : Nat) :
    (s.tickCore u n).core v = if u = v then { s.core u with cycle := (s.core u).cycle + BitVec.ofNat 64 n, tlOld := [], barOld := [], ivOld := [] } else s.core v :=
  State.core_setCore s u v _

@[simp] theorem State.cluster_setCluster (s : State) (n : Nat) (x : Cluster) : (s.setCluster n x).cluster n = x := by
  simp [State.cluster, State.setCluster]
@[simp] theorem State.partOf_setPart (s : State) (p : Nat) (x : Part) : (s.setPart p x).partOf p = x := by
  simp [State.partOf, State.setPart]

/-! ### Registers -/

@[simp] theorem Strand.getW_setW_self (t : Strand) (n : BitVec 6) (v : W32) : (t.setW n v).getW n = v := by
  simp [Strand.getW, Strand.setW]

theorem Strand.getW_setW (t : Strand) (n m : BitVec 6) (v : W32) :
    (t.setW n v).getW m = if n = m then v else t.getW m := by
  unfold Strand.getW Strand.setW
  simp only [Table.get_set]
  by_cases h : n = m
  · simp [h]
  · have : n.toNat ≠ m.toNat := fun e => h (BitVec.eq_of_toNat_eq e)
    simp [h, this]

/-- a0 reads 0 whatever was written (Table 2-4). -/
theorem Strand.getA_setA (t : Strand) (n m : BitVec 6) (v : W64) :
    (t.setA n v).getA m = if n = m ∧ m ≠ 0 then v else t.getA m := by
  by_cases hm : m = 0
  · subst hm
    simp [Strand.getA]
  by_cases hn : n = 0
  · subst hn
    have h : ¬((0 : BitVec 6) = m ∧ m ≠ 0) := fun e => hm e.1.symm
    rw [if_neg h]
    rfl
  simp only [Strand.getA, Strand.setA, if_neg hn, if_neg hm, Table.get_set]
  by_cases h : n = m
  · subst h
    rw [if_pos rfl, if_pos ⟨rfl, hm⟩]
  · have hk : n.toNat ≠ m.toNat := fun e => h (BitVec.eq_of_toNat_eq e)
    rw [if_neg hk, if_neg (fun e => h e.1)]

@[simp] theorem Strand.getP_zero (t : Strand) : t.getP 0 = true := rfl

end Sys2Proof.Machine
end

