-- ==== Sys2Proof/Laws/Engines.lean ====
section
/-! SUPPORT. What an engine command that its engine takes starts with. -/

namespace Sys2Proof.Machine

/-- What a command that its engine takes does: with the outcome of its meaning it is under way, or, where it has to
wait, only the bytes that it misses are asked for. -/
theorem State.startCommand_eq {q : QRef} {op : Nat} {c : Cmd} {s : State} {e : QEntry} {f : CmdFun} {t : State}
    {out : CmdOut} (h : Takes q op c s e) (hf : f (ctxOf q op c s e) c (s.turned q op c) = (out, t)) :
    s.startCommand q op c f =
      if out.status = stWait then
        s.waitStart q.unit (BitVec.ofNat 3 (q.queue.toNat / 4)) (queueMark q.queue.toNat) (t.core q.unit).reach
      else { (t.setCore q.unit { t.core q.unit with
          eng := Table.set (t.core q.unit).eng (q.queue.toNat % 4) (runOf q op e t out), reach := none }).dropReqs
            (fun r => r.owner == some (q.unit.toNat, queueMark q.queue.toNat)) with tick := t.tick + 1 } := by
  obtain ⟨⟨rest, h1⟩, h2, h3, h4⟩ := h
  unfold State.startCommand State.startWith
  dsimp only
  split
  · next heq => rw [h1] at heq; cases heq
  · next e' r' heq =>
    rw [h1] at heq
    injection heq with ha hb
    subst ha
    rw [if_neg (by simp [h2, h3, h4])]
    unfold ctxOf preOf State.turned chainOf at hf
    by_cases hq : q.queue.toNat % 4 = 0 <;> simp only [hq, if_true, if_false] at hf ⊢ <;> rw [hf] <;>
      by_cases hw : out.status = stWait <;> simp [hw, runOf]

/-- A command that is taken starts with the outcome of its meaning. -/
theorem startsAt_of {i : Instr} {q : QRef} {op : Nat} {c : Cmd} {s : State} {e : QEntry} {f : CmdFun} {t : State}
    {out : CmdOut} (he : exec i s = .next (s.startCommand q op c f)) (h : Takes q op c s e) (hw : out.status ≠ stWait)
    (hf : f (ctxOf q op c s e) c (s.turned q op c) = (out, t)) : StartsAt i s q op e t out := by
  rw [StartsAt, he, State.startCommand_eq h hf, if_neg hw]

/-- A command that is taken and has to wait. -/
theorem waitsAt_of {i : Instr} {q : QRef} {op : Nat} {c : Cmd} {s : State} {e : QEntry} {f : CmdFun} {t : State}
    {out : CmdOut} (he : exec i s = .next (s.startCommand q op c f)) (h : Takes q op c s e) (hw : out.status = stWait)
    (hf : f (ctxOf q op c s e) c (s.turned q op c) = (out, t)) : WaitsAt i s q t := by
  rw [WaitsAt, he, State.startCommand_eq h hf, if_pos hw]

end Sys2Proof.Machine
end

