-- ==== Sys2Proof/Laws/Issue.lean ====
section
/-! SUPPORT. What becomes of a slot instruction that issues alone, by what its meaning answers. -/

namespace Sys2Proof.Machine

/-- The conditions of Issues, for a major opcode and a syllable. -/
def State.Ready (s : State) (maj : Nat) (y : Syl) : Prop :=
  s.me.repSkip = false ∧ (s.me.repn = 0 ∨ maj < 0x0B ∨ 0x0F < maj) ∧ (maj = 0x6E → unitClass s.curU = 0)
    ∧ (marksBad maj y.form.toNat = true → s.me.untaken = none) ∧ guardOn s.me y.guard = true

theorem issues_iff {i : Instr} {s : State} {maj : Nat} {y : Syl} (h : i.syl? = some (maj, y)) :
    Issues i s ↔ s.Ready maj y := by
  unfold Issues
  rw [h]
  exact Iff.rfl

theorem find?_one_none {α : Type} {p : α → Bool} {x : α} (h : p x = false) : [x].find? p = none := by
  simp [h]

theorem find?_one_some {α : Type} {p : α → Bool} {x : α} (h : p x = true) : [x].find? p = some x := by
  simp [h]

/-- A lone slot takes no counter value before it (R20). -/
theorem slotResults_one {t : Strand} {len : Nat} {x : SlotRun} (h : guardOn t x.guard = true) :
    slotResults len t [x] = [(x, x.run ⟨0, len⟩)] := by
  have hg : [x].filter (fun x => guardOn t x.guard) = [x] := by simp [h]
  unfold slotResults
  simp only [hg, List.map_cons, List.map_nil]
  by_cases c1 : x.cls = 1
  · simp [c1]
  · have h1 : [x].find? (fun x => x.cls == 1) = none := find?_one_none (by simp [c1])
    by_cases c3 : x.cls = 3
    · simp [h1, c3]
    · have h3 : [x].find? (fun x => x.cls == 3) = none := find?_one_none (by simp [c3])
      simp [h1, h3]

/-- A lone syllable that issues answers what its meaning does with no counter value taken before it. -/
theorem runOne_eq {s : State} {maj : Nat} {y : Syl} (f : Ctx → Rd Done) (h : s.Ready maj y) :
    s.runOne maj y f = s.settleBundle y.len.bytes [(mkSlot maj 0 y f, f ⟨0, y.len.bytes⟩)] := by
  obtain ⟨h1, h2, h3, h4, h5⟩ := h
  have hsel : (if s.me.repn != 0 then [mkSlot maj 0 y f].find? (fun x => 0x0B ≤ x.maj && x.maj ≤ 0x0F) else none)
      = none := by
    by_cases hr : s.me.repn = 0
    · simp [hr]
    · have : [mkSlot maj 0 y f].find? (fun x => 0x0B ≤ x.maj && x.maj ≤ 0x0F) = none := by
        apply find?_one_none
        show (decide (0x0B ≤ maj) && decide (maj ≤ 0x0F)) = false
        rcases h2 with h2 | h2 | h2
        · exact absurd h2 hr
        · simp only [Bool.and_eq_false_iff, decide_eq_false_iff_not]
          omega
        · simp only [Bool.and_eq_false_iff, decide_eq_false_iff_not]
          omega
      rw [this]
      simp
  have hpp : [mkSlot maj 0 y f].find? (fun x => x.maj == 0x6E && unitClass s.curU != 0) = none := by
    apply find?_one_none
    show ((maj == 0x6E) && (unitClass s.curU != 0)) = false
    by_cases hm : maj = 0x6E
    · simp [h3 hm]
    · have : (maj == 0x6E) = false := by simpa using hm
      rw [this]
      rfl
  have hres := slotResults_one (len := y.len.bytes) (x := mkSlot maj 0 y f) (t := s.me) h5
  unfold State.runOne State.runBundle
  rw [h1, if_neg (by decide), hsel]
  simp only [hpp]
  by_cases hm : marksBad maj y.form.toNat = true
  · rw [h4 hm, hres]
    split <;> simp_all [mkSlot]
  · have hn : [mkSlot maj 0 y f].find? (·.marks) = none :=
      find?_one_none (by simpa [mkSlot] using hm)
    rw [hn, hres]
    rfl

theorem settleBundle_ok (s : State) (len : Nat) (x : SlotRun) (d : Done) :
    s.settleBundle len [(x, .ok d)] = s.commit len [(x.cls, d)] := by
  simp [State.settleBundle, isBlock, isStall, donesOf, State.noRoom, List.findSome?, List.find?]

theorem settleBundle_trap (s : State) (len : Nat) (x : SlotRun) (c : BitVec 8) (a i : W64) :
    s.settleBundle len [(x, .error (.trap c a i))] = (s.noteWalk x.cls c a i).trapHere c a i x.cls x.off := by
  simp [State.settleBundle, isBlock, isStall, List.findSome?, List.find?]

/-- Only the cause of a translation fault sets a die's bit (R294, R297). -/
theorem noteWalk_other {s : State} {n : Nat} {c : BitVec 8} {a i : W64} (h1 : c ≠ causePoison) (h2 : c ≠ causePageFault)
    (h3 : c ≠ causeReservedBit) (h4 : c ≠ causeKey) (h5 : c ≠ causeProtection) : s.noteWalk n c a i = s := by
  have hc (f : XFault) : f.cause ≠ c := by
    unfold XFault.cause
    repeat' split
    all_goals exact Ne.symm ‹_›
  unfold State.noteWalk
  split
  · rfl
  · split
    · rw [if_neg]
      simp [hc]
    · rfl

/-- Only slot M translates. -/
theorem noteWalk_slot {s : State} {n : Nat} {c : BitVec 8} {a i : W64} (h : n ≠ 2) : s.noteWalk n c a i = s := if_pos h

theorem settleBundle_bad (s : State) (len : Nat) (x : SlotRun) (b : BadDest) :
    s.settleBundle len [(x, .error (.badLoad b))] = s.trapBad b x.cls x.off := by
  simp [State.settleBundle, isBlock, isStall, List.findSome?, List.find?]

theorem settleBundle_stall (s : State) (len : Nat) (x : SlotRun) :
    s.settleBundle len [(x, .error .stall)] = s.tickCore s.curU 1 := by
  simp [State.settleBundle, isBlock, isStall, State.startFills, List.findSome?]

theorem settleBundle_fill (s : State) (len : Nat) (x : SlotRun) (fs : List (Nat × Nat × Nat × Space)) (va : List W64) :
    s.settleBundle len [(x, .error (.fill fs va))] = (s.startFill fs va).tickCore s.curU 1 := by
  simp [State.settleBundle, isBlock, isStall, State.startFills, List.findSome?]

theorem settleBundle_block (s : State) (len : Nat) (x : SlotRun) (w : Wait) :
    s.settleBundle len [(x, .error (.block w))] = s.blockHere w := by
  simp [State.settleBundle, isBlock, List.findSome?]

theorem runOne_ok {s : State} {maj : Nat} {y : Syl} {f : Ctx → Rd Done} {d : Done} (h : s.Ready maj y)
    (hf : f ⟨0, y.len.bytes⟩ = .ok d) : s.runOne maj y f = s.commit y.len.bytes [(maj / 32, d)] := by
  rw [runOne_eq f h, hf, settleBundle_ok]
  rfl

theorem runOne_trap {s : State} {maj : Nat} {y : Syl} {f : Ctx → Rd Done} {c : BitVec 8} {a i : W64}
    (h : s.Ready maj y) (hf : f ⟨0, y.len.bytes⟩ = .error (.trap c a i)) :
    s.runOne maj y f = (s.noteWalk (maj / 32) c a i).trapHere c a i (maj / 32) 0 := by
  rw [runOne_eq f h, hf, settleBundle_trap]
  rfl

theorem runOne_block {s : State} {maj : Nat} {y : Syl} {f : Ctx → Rd Done} {w : Wait} (h : s.Ready maj y)
    (hf : f ⟨0, y.len.bytes⟩ = .error (.block w)) : s.runOne maj y f = s.blockHere w := by
  rw [runOne_eq f h, hf, settleBundle_block]

theorem runOne_stall {s : State} {maj : Nat} {y : Syl} {f : Ctx → Rd Done} (h : s.Ready maj y)
    (hf : f ⟨0, y.len.bytes⟩ = .error .stall) : s.runOne maj y f = s.tickCore s.curU 1 := by
  rw [runOne_eq f h, hf, settleBundle_stall]

/-- A slot instruction runs its meaning as a bundle of its own. -/
theorem exec_slot (i : Instr) (s : State) (maj : Nat) (y : Syl) (h : i.syl? = some (maj, y)) :
    exec i s = .next (s.runOne maj y (slotRun i s)) := by
  cases i <;> cases h <;> rfl

theorem completes_of {i : Instr} {maj : Nat} {y : Syl} {s : State} {f : Ctx → Rd Done} {d : Done}
    (hs : i.syl? = some (maj, y)) (he : exec i s = .next (s.runOne maj y f)) (hi : Issues i s)
    (hf : f ⟨0, y.len.bytes⟩ = .ok d) : Completes i s d := by
  unfold Completes
  rw [hs]
  simp only []
  rw [he, runOne_ok ((issues_iff hs).1 hi) hf]

theorem traps_of {i : Instr} {maj : Nat} {y : Syl} {s : State} {f : Ctx → Rd Done} {c : BitVec 8} {a n : W64}
    (hs : i.syl? = some (maj, y)) (he : exec i s = .next (s.runOne maj y f)) (hi : Issues i s)
    (hf : f ⟨0, y.len.bytes⟩ = .error (.trap c a n)) : Traps i s c a n := by
  unfold Traps
  rw [hs]
  simp only []
  rw [he, runOne_trap ((issues_iff hs).1 hi) hf]

theorem blocks_of {i : Instr} {maj : Nat} {y : Syl} {s : State} {f : Ctx → Rd Done} {w : Wait}
    (hs : i.syl? = some (maj, y)) (he : exec i s = .next (s.runOne maj y f)) (hi : Issues i s)
    (hf : f ⟨0, y.len.bytes⟩ = .error (.block w)) : Blocks i s w := by
  unfold Blocks
  rw [he, runOne_block ((issues_iff hs).1 hi) hf]

theorem stalls_of {i : Instr} {maj : Nat} {y : Syl} {s : State} {f : Ctx → Rd Done}
    (hs : i.syl? = some (maj, y)) (he : exec i s = .next (s.runOne maj y f)) (hi : Issues i s)
    (hf : f ⟨0, y.len.bytes⟩ = .error .stall) : Stalls i s := by
  unfold Stalls
  rw [he, runOne_stall ((issues_iff hs).1 hi) hf]

theorem fills_of {i : Instr} {maj : Nat} {y : Syl} {s : State} {f : Ctx → Rd Done}
    {fs : List (Nat × Nat × Nat × Space)} {va : List W64}
    (hs : i.syl? = some (maj, y)) (he : exec i s = .next (s.runOne maj y f)) (hi : Issues i s)
    (hf : f ⟨0, y.len.bytes⟩ = .error (.fill fs va)) : Fills i s fs va := by
  unfold Fills
  rw [he, runOne_eq f ((issues_iff hs).1 hi), hf, settleBundle_fill]

/-! ### Results -/

theorem putW_ok {s : State} {y : Syl} (v : W32) (h : freeW s y) : putW s y v = .ok (doneW y v) := by
  unfold putW doneW
  by_cases hn : y.nwb = true
  · simp [hn]
  · rcases h with h | h
    · exact absurd h hn
    · simp [hn, h]; rfl

theorem putA_ok {s : State} {y : Syl} (v : W64) (h : freeA s y) : putA s y v = .ok (doneA y v) := by
  unfold putA doneA
  by_cases hn : y.nwb = true
  · simp [hn]
  · rcases h with h | h
    · exact absurd h hn
    · simp [hn, h]; rfl

theorem putP_ok (y : Syl) (v : Bool) : putP y v = .ok (doneP y v) := by
  unfold putP doneP
  by_cases hn : y.nwb = true <;> simp [hn]

theorem putV_ok {s : State} {y : Syl} (r : Row) (h : freeV s y) : putV s y r = .ok (doneV s y r) := by
  unfold putV doneV
  by_cases hn : y.nwb = true
  · simp [hn]
  · rcases h with h | h
    · exact absurd h hn
    · simp [hn, h]; rfl

/-! ### Reads, ends and queue entries -/

theorem Rd.bind_ok {α β : Type} {a : α} {f : α → Rd β} {m : Rd α} (h : m = .ok a) : (m >>= f) = f a := by
  rw [h]
  rfl

theorem Rd.bind_error {α β : Type} {e : Stop} {f : α → Rd β} {m : Rd α} (h : m = .error e) : (m >>= f) = .error e := by
  rw [h]
  rfl

theorem ends_of {i : Instr} {maj : Nat} {y : Syl} {s : State} {f : Ctx → Rd Done} {e : Stop}
    (hs : i.syl? = some (maj, y)) (he : exec i s = .next (s.runOne maj y f)) (hi : Issues i s)
    (hf : f ⟨0, y.len.bytes⟩ = .error e) : EndsAs i s e := by
  cases e with
  | trap c a n => exact traps_of hs he hi hf
  | stall => exact stalls_of hs he hi hf
  | fill fs va => exact fills_of hs he hi hf
  | block w => exact blocks_of hs he hi hf
  | badLoad b =>
    unfold EndsAs
    rw [hs]
    simp only []
    rw [he, runOne_eq f ((issues_iff hs).1 hi), hf, settleBundle_bad]
    rfl

/-- Two results with the same changes and latch. -/
theorem Done.plain_congr {f g : State → State} (l : Latch) (h : ∀ t, f t = g t) :
    ({ Done.plain f with latch := l } : Done) = { Done.plain g with latch := l } := by
  rw [funext h]

/-- The fills of an access enter the load queue in order (R150). -/
theorem addFills_eq (t : Strand) (fs : List (Nat × Nat × Nat × Space)) :
    t.addFills fs false = { t with seq := t.seq + fs.length, lq := t.lq ++ fillItems t.seq fs } := by
  induction fs generalizing t with
  | nil => simp [Strand.addFills, fillItems]
  | cons f fs ih =>
    obtain ⟨k, b, g, sp⟩ := f
    have : t.addFills ((k, b, g, sp) :: fs) false = (t.addLq (.fill k b g sp false)).addFills fs false := rfl
    rw [this, ih]
    simp [Strand.addLq, fillItems]
    omega

theorem room_ok {s : State} {l q : Nat} (h : Room s l q) : needLq s l = .ok () ∧ needSq s q = .ok () := by
  unfold needLq needSq
  rw [if_pos h.1, if_pos h.2]
  exact ⟨rfl, rfl⟩

theorem needSq_ok {s : State} {q : Nat} (h : s.me.sq.length + q ≤ 32) : needSq s q = .ok () := by
  unfold needSq
  rw [if_pos h]

theorem needSq_stall {s : State} {q : Nat} (h : 32 < s.me.sq.length + q) : needSq s q = .error .stall := by
  unfold needSq
  rw [if_neg (by omega)]

theorem needOp_ok {c : Bool} (h : c = true) : needOp c = .ok () := by
  rw [h]
  rfl

theorem needOp_trap {c : Bool} (h : c = false) : needOp c = .error (.trap 0x02 0 0) := by
  rw [h]
  rfl

end Sys2Proof.Machine
end

