-- ==== Sys2Proof/Laws/Lanes.lean ====
section
/-! SUPPORT. Elements of words and rows: what is packed is read back, element by element. -/

namespace Sys2Proof.Machine

theorem joinLanes_lt (W : Nat) (l : List Nat) : joinLanes W l < 2 ^ (W * l.length) := by
  induction l with
  | nil => simp [joinLanes]
  | cons x xs ih =>
    have h1 : x % 2 ^ W < 2 ^ W := Nat.mod_lt _ (Nat.two_pow_pos W)
    have h2 : 2 ^ (W * (x :: xs).length) = 2 ^ W * 2 ^ (W * xs.length) := by
      rw [← Nat.pow_add, List.length_cons, Nat.mul_succ, Nat.add_comm]
    rw [h2, joinLanes]
    calc x % 2 ^ W + 2 ^ W * joinLanes W xs < 2 ^ W + 2 ^ W * joinLanes W xs := by omega
      _ = 2 ^ W * (joinLanes W xs + 1) := by rw [Nat.mul_add, Nat.mul_one, Nat.add_comm]
      _ ≤ 2 ^ W * 2 ^ (W * xs.length) := Nat.mul_le_mul_left _ ih

theorem joinLanes_elem (W : Nat) (l : List Nat) (e : Nat) :
    joinLanes W l / 2 ^ (W * e) % 2 ^ W = lane l e % 2 ^ W := by
  induction l generalizing e with
  | nil => simp [joinLanes, lane]
  | cons x xs ih =>
    cases e with
    | zero => simp [joinLanes, lane, Nat.add_mul_mod_self_left]
    | succ e =>
      have h : 2 ^ (W * (e + 1)) = 2 ^ W * 2 ^ (W * e) := by
        rw [← Nat.pow_add, Nat.mul_succ, Nat.add_comm]
      have hd : (x % 2 ^ W + 2 ^ W * joinLanes W xs) / 2 ^ W = joinLanes W xs := by
        rw [Nat.add_mul_div_left _ _ (Nat.two_pow_pos W), Nat.div_eq_of_lt (Nat.mod_lt _ (Nat.two_pow_pos W)),
          Nat.zero_add]
      rw [joinLanes, h, ← Nat.div_div_eq_div_mul, hd, ih]
      simp [lane]

theorem length_splitLanes (W n x : Nat) : (splitLanes W n x).length = n := by
  induction n generalizing x with
  | zero => rfl
  | succ n ih => simp [splitLanes, ih]

theorem lane_splitLanes (W n x e : Nat) (h : e < n) :
    lane (splitLanes W n x) e = x / 2 ^ (W * e) % 2 ^ W := by
  induction n generalizing x e with
  | zero => omega
  | succ n ih =>
    cases e with
    | zero => simp [splitLanes, lane]
    | succ e =>
      have h1 : lane (splitLanes W (n + 1) x) (e + 1) = lane (splitLanes W n (x / 2 ^ W)) e := by
        simp [splitLanes, lane]
      rw [h1, ih _ _ (by omega), Nat.div_div_eq_div_mul, ← Nat.pow_add, Nat.mul_succ, Nat.add_comm]

theorem lane_of_lt {l : List Nat} {e : Nat} (h : e < l.length) : lane l e = l[e] := by
  simp [lane, h]

theorem lane_map (f : Nat → Nat) (l : List Nat) (e : Nat) (h : e < l.length) :
    lane (l.map f) e = f (lane l e) := by
  simp [lane, h]

theorem lane_zipWith (f : Nat → Nat → Nat) (l m : List Nat) (e : Nat) (hl : e < l.length) (hm : e < m.length) :
    lane (List.zipWith f l m) e = f (lane l e) (lane m e) := by
  simp [lane, hl, hm, List.getElem?_zipWith]

theorem div_pow_mod_of_mod (x W e N : Nat) (h : W * e + W ≤ N) :
    x % 2 ^ N / 2 ^ (W * e) % 2 ^ W = x / 2 ^ (W * e) % 2 ^ W := by
  obtain ⟨k, rfl⟩ : ∃ k, N = W * e + (W + k) := ⟨N - (W * e + W), by omega⟩
  rw [Nat.pow_add, Nat.mod_mul_right_div_self, Nat.pow_add, Nat.mod_mul_right_mod]

/-- Element e of a packed word is element e of the list. -/
theorem elemAt_packWord (W : Nat) (l : List Nat) (e : Nat) (h : W * e + W ≤ 32) :
    elemAt W (packWord W l) e = lane l e % 2 ^ W := by
  unfold elemAt packWord
  rw [BitVec.toNat_ofNat, div_pow_mod_of_mod _ _ _ _ h, joinLanes_elem]

theorem elemAt_packRow (W : Nat) (l : List Nat) (e : Nat) (h : W * e + W ≤ 2048) :
    elemAt W (packRow W l) e = lane l e % 2 ^ W := by
  unfold elemAt packRow
  rw [BitVec.toNat_ofNat, div_pow_mod_of_mod _ _ _ _ h, joinLanes_elem]

theorem lane_wordLanes (W : Nat) (x : W32) (e : Nat) (h : e < 32 / W) : lane (wordLanes W x) e = elemAt W x e := by
  unfold wordLanes elemAt
  exact lane_splitLanes W _ _ _ h

theorem lane_rowLanes (W : Nat) (r : Row) (e : Nat) (h : e < 2048 / W) : lane (rowLanes W r) e = elemAt W r e := by
  unfold rowLanes elemAt
  exact lane_splitLanes W _ _ _ h

theorem length_wordLanes (W : Nat) (x : W32) : (wordLanes W x).length = 32 / W := length_splitLanes _ _ _
theorem length_rowLanes (W : Nat) (r : Row) : (rowLanes W r).length = 2048 / W := length_splitLanes _ _ _

theorem elemAt_lt (W : Nat) {w : Nat} (x : BitVec w) (e : Nat) : elemAt W x e < 2 ^ W :=
  Nat.mod_lt _ (Nat.two_pow_pos W)

/-- An element number within a word leaves room for the element. -/
theorem elem_room (W n e : Nat) (h : e < n / W) : W * e + W ≤ n := by
  have h1 : (e + 1) ≤ n / W := h
  have h2 : W * (e + 1) ≤ W * (n / W) := Nat.mul_le_mul_left W h1
  have h3 : W * (n / W) ≤ n := Nat.mul_div_le n W
  rw [Nat.mul_succ] at h2
  omega

theorem ITy.bits_lt (t : ITy) (x : Int) : t.bits x < 2 ^ t.width := by
  unfold ITy.bits
  have h : (0 : Int) < ((2 ^ t.width : Nat) : Int) := by exact_mod_cast Nat.two_pow_pos t.width
  have h1 := Int.emod_lt_of_pos x h
  have h2 := Int.emod_nonneg x (Int.ne_of_gt h)
  omega

end Sys2Proof.Machine
end

