-- ==== Sys2Proof/Laws/PerInstr.lean ====
section
/-! SUPPORT. For every constructor of Instr: which kind of word names it. -/

namespace Sys2Proof.Laws.Named

/-- An instruction is named by one kind of word at most: a syllable, which encodes to the words of its length, a command or a
sequencer word (R26, R57, R58); an event is named by none. -/
def Statement (i : Instr) : Prop :=
  (∀ maj y, i.syl? = some (maj, y) → i.cmd? = none ∧ i.seq? = none ∧ encode i = some (encodeSyl maj true y)
    ∧ 4 * (encodeSyl maj true y).length = y.len.bytes)
  ∧ (∀ c, i.cmd? = some c → i.syl? = none ∧ i.seq? = none) ∧ (∀ q, i.seq? = some q → i.syl? = none ∧ i.cmd? = none)

theorem of_slot {i : Instr} {maj : Nat} {y : Syl} (h : i.syl? = some (maj, y)) (hc : i.cmd? = none) (hq : i.seq? = none) :
    Statement i := by
  refine ⟨fun m x hx => ?_, fun c h1 => ?_, fun q h1 => ?_⟩
  · rw [h] at hx
    cases hx
    refine ⟨hc, hq, ?_, ?_⟩
    · unfold encode
      rw [h]
    · unfold encodeSyl
      cases y.len <;> rfl
  · rw [hc] at h1
    cases h1
  · rw [hq] at h1
    cases h1

theorem of_cmd {i : Instr} (h : i.syl? = none) (hq : i.seq? = none) : Statement i := by
  refine ⟨fun m x hx => ?_, fun c _ => ⟨h, hq⟩, fun q h1 => ?_⟩
  · rw [h] at hx
    cases hx
  · rw [hq] at h1
    cases h1

theorem of_seq {i : Instr} (h : i.syl? = none) (hc : i.cmd? = none) : Statement i := by
  refine ⟨fun m x hx => ?_, fun c h1 => ?_, fun q _ => ⟨h, hc⟩⟩
  · rw [h] at hx
    cases hx
  · rw [hc] at h1
    cases h1

end Sys2Proof.Laws.Named

namespace Sys2Proof

theorem Laws.Named.nop (y : Syl) : Laws.Named.Statement (.nop y) := Laws.Named.of_slot rfl rfl rfl
theorem Laws.Named.mov (y : Syl) : Laws.Named.Statement (.mov y) := Laws.Named.of_slot rfl rfl rfl
theorem Laws.Named.movB (y : Syl) : Laws.Named.Statement (.movB y) := Laws.Named.of_slot rfl rfl rfl
theorem Laws.Named.sel (y : Syl) : Laws.Named.Statement (.sel y) := Laws.Named.of_slot rfl rfl rfl
theorem Laws.Named.mova (y : Syl) : Laws.Named.Statement (.mova y) := Laws.Named.of_slot rfl rfl rfl
theorem Laws.Named.movha (y : Syl) : Laws.Named.Statement (.movha y) := Laws.Named.of_slot rfl rfl rfl
theorem Laws.Named.sxw (y : Syl) : Laws.Named.Statement (.sxw y) := Laws.Named.of_slot rfl rfl rfl
theorem Laws.Named.zxw (y : Syl) : Laws.Named.Statement (.zxw y) := Laws.Named.of_slot rfl rfl rfl
theorem Laws.Named.movaw (y : Syl) : Laws.Named.Statement (.movaw y) := Laws.Named.of_slot rfl rfl rfl
theorem Laws.Named.movawh (y : Syl) : Laws.Named.Statement (.movawh y) := Laws.Named.of_slot rfl rfl rfl
theorem Laws.Named.movpw (y : Syl) : Laws.Named.Statement (.movpw y) := Laws.Named.of_slot rfl rfl rfl
theorem Laws.Named.movwp (y : Syl) : Laws.Named.Statement (.movwp y) := Laws.Named.of_slot rfl rfl rfl
theorem Laws.Named.rdp (y : Syl) : Laws.Named.Statement (.rdp y) := Laws.Named.of_slot rfl rfl rfl
theorem Laws.Named.wrp (y : Syl) : Laws.Named.Statement (.wrp y) := Laws.Named.of_slot rfl rfl rfl
theorem Laws.Named.movrep (y : Syl) : Laws.Named.Statement (.movrep y) := Laws.Named.of_slot rfl rfl rfl
theorem Laws.Named.lea (y : Syl) : Laws.Named.Statement (.lea y) := Laws.Named.of_slot rfl rfl rfl
theorem Laws.Named.add (y : Syl) : Laws.Named.Statement (.add y) := Laws.Named.of_slot rfl rfl rfl
theorem Laws.Named.sub (y : Syl) : Laws.Named.Statement (.sub y) := Laws.Named.of_slot rfl rfl rfl
theorem Laws.Named.min (y : Syl) : Laws.Named.Statement (.min y) := Laws.Named.of_slot rfl rfl rfl
theorem Laws.Named.max (y : Syl) : Laws.Named.Statement (.max y) := Laws.Named.of_slot rfl rfl rfl
theorem Laws.Named.absd (y : Syl) : Laws.Named.Statement (.absd y) := Laws.Named.of_slot rfl rfl rfl
theorem Laws.Named.abs (y : Syl) : Laws.Named.Statement (.abs y) := Laws.Named.of_slot rfl rfl rfl
theorem Laws.Named.addB (y : Syl) : Laws.Named.Statement (.addB y) := Laws.Named.of_slot rfl rfl rfl
theorem Laws.Named.subB (y : Syl) : Laws.Named.Statement (.subB y) := Laws.Named.of_slot rfl rfl rfl
theorem Laws.Named.minB (y : Syl) : Laws.Named.Statement (.minB y) := Laws.Named.of_slot rfl rfl rfl
theorem Laws.Named.maxB (y : Syl) : Laws.Named.Statement (.maxB y) := Laws.Named.of_slot rfl rfl rfl
theorem Laws.Named.absdB (y : Syl) : Laws.Named.Statement (.absdB y) := Laws.Named.of_slot rfl rfl rfl
theorem Laws.Named.absB (y : Syl) : Laws.Named.Statement (.absB y) := Laws.Named.of_slot rfl rfl rfl
theorem Laws.Named.mul (y : Syl) : Laws.Named.Statement (.mul y) := Laws.Named.of_slot rfl rfl rfl
theorem Laws.Named.mulh (y : Syl) : Laws.Named.Statement (.mulh y) := Laws.Named.of_slot rfl rfl rfl
theorem Laws.Named.mad (y : Syl) : Laws.Named.Statement (.mad y) := Laws.Named.of_slot rfl rfl rfl
theorem Laws.Named.mulB (y : Syl) : Laws.Named.Statement (.mulB y) := Laws.Named.of_slot rfl rfl rfl
theorem Laws.Named.mulhB (y : Syl) : Laws.Named.Statement (.mulhB y) := Laws.Named.of_slot rfl rfl rfl
theorem Laws.Named.madB (y : Syl) : Laws.Named.Statement (.madB y) := Laws.Named.of_slot rfl rfl rfl
theorem Laws.Named.and (y : Syl) : Laws.Named.Statement (.and y) := Laws.Named.of_slot rfl rfl rfl
theorem Laws.Named.or (y : Syl) : Laws.Named.Statement (.or y) := Laws.Named.of_slot rfl rfl rfl
theorem Laws.Named.xor (y : Syl) : Laws.Named.Statement (.xor y) := Laws.Named.of_slot rfl rfl rfl
theorem Laws.Named.andn (y : Syl) : Laws.Named.Statement (.andn y) := Laws.Named.of_slot rfl rfl rfl
theorem Laws.Named.not (y : Syl) : Laws.Named.Statement (.not y) := Laws.Named.of_slot rfl rfl rfl
theorem Laws.Named.andB (y : Syl) : Laws.Named.Statement (.andB y) := Laws.Named.of_slot rfl rfl rfl
theorem Laws.Named.orB (y : Syl) : Laws.Named.Statement (.orB y) := Laws.Named.of_slot rfl rfl rfl
theorem Laws.Named.xorB (y : Syl) : Laws.Named.Statement (.xorB y) := Laws.Named.of_slot rfl rfl rfl
theorem Laws.Named.andnB (y : Syl) : Laws.Named.Statement (.andnB y) := Laws.Named.of_slot rfl rfl rfl
theorem Laws.Named.notB (y : Syl) : Laws.Named.Statement (.notB y) := Laws.Named.of_slot rfl rfl rfl
theorem Laws.Named.shl (y : Syl) : Laws.Named.Statement (.shl y) := Laws.Named.of_slot rfl rfl rfl
theorem Laws.Named.shr (y : Syl) : Laws.Named.Statement (.shr y) := Laws.Named.of_slot rfl rfl rfl
theorem Laws.Named.rol (y : Syl) : Laws.Named.Statement (.rol y) := Laws.Named.of_slot rfl rfl rfl
theorem Laws.Named.ror (y : Syl) : Laws.Named.Statement (.ror y) := Laws.Named.of_slot rfl rfl rfl
theorem Laws.Named.shlB (y : Syl) : Laws.Named.Statement (.shlB y) := Laws.Named.of_slot rfl rfl rfl
theorem Laws.Named.shrB (y : Syl) : Laws.Named.Statement (.shrB y) := Laws.Named.of_slot rfl rfl rfl
theorem Laws.Named.rolB (y : Syl) : Laws.Named.Statement (.rolB y) := Laws.Named.of_slot rfl rfl rfl
theorem Laws.Named.rorB (y : Syl) : Laws.Named.Statement (.rorB y) := Laws.Named.of_slot rfl rfl rfl
theorem Laws.Named.ext (y : Syl) : Laws.Named.Statement (.ext y) := Laws.Named.of_slot rfl rfl rfl
theorem Laws.Named.ins (y : Syl) : Laws.Named.Statement (.ins y) := Laws.Named.of_slot rfl rfl rfl
theorem Laws.Named.clz (y : Syl) : Laws.Named.Statement (.clz y) := Laws.Named.of_slot rfl rfl rfl
theorem Laws.Named.ctz (y : Syl) : Laws.Named.Statement (.ctz y) := Laws.Named.of_slot rfl rfl rfl
theorem Laws.Named.popc (y : Syl) : Laws.Named.Statement (.popc y) := Laws.Named.of_slot rfl rfl rfl
theorem Laws.Named.brev (y : Syl) : Laws.Named.Statement (.brev y) := Laws.Named.of_slot rfl rfl rfl
theorem Laws.Named.cmpeq (y : Syl) : Laws.Named.Statement (.cmpeq y) := Laws.Named.of_slot rfl rfl rfl
theorem Laws.Named.cmpne (y : Syl) : Laws.Named.Statement (.cmpne y) := Laws.Named.of_slot rfl rfl rfl
theorem Laws.Named.cmplt (y : Syl) : Laws.Named.Statement (.cmplt y) := Laws.Named.of_slot rfl rfl rfl
theorem Laws.Named.cmple (y : Syl) : Laws.Named.Statement (.cmple y) := Laws.Named.of_slot rfl rfl rfl
theorem Laws.Named.cmpgt (y : Syl) : Laws.Named.Statement (.cmpgt y) := Laws.Named.of_slot rfl rfl rfl
theorem Laws.Named.cmpge (y : Syl) : Laws.Named.Statement (.cmpge y) := Laws.Named.of_slot rfl rfl rfl
theorem Laws.Named.test (y : Syl) : Laws.Named.Statement (.test y) := Laws.Named.of_slot rfl rfl rfl
theorem Laws.Named.cmpeqB (y : Syl) : Laws.Named.Statement (.cmpeqB y) := Laws.Named.of_slot rfl rfl rfl
theorem Laws.Named.cmpneB (y : Syl) : Laws.Named.Statement (.cmpneB y) := Laws.Named.of_slot rfl rfl rfl
theorem Laws.Named.cmpltB (y : Syl) : Laws.Named.Statement (.cmpltB y) := Laws.Named.of_slot rfl rfl rfl
theorem Laws.Named.cmpleB (y : Syl) : Laws.Named.Statement (.cmpleB y) := Laws.Named.of_slot rfl rfl rfl
theorem Laws.Named.cmpgtB (y : Syl) : Laws.Named.Statement (.cmpgtB y) := Laws.Named.of_slot rfl rfl rfl
theorem Laws.Named.cmpgeB (y : Syl) : Laws.Named.Statement (.cmpgeB y) := Laws.Named.of_slot rfl rfl rfl
theorem Laws.Named.testB (y : Syl) : Laws.Named.Statement (.testB y) := Laws.Named.of_slot rfl rfl rfl
theorem Laws.Named.pand (y : Syl) : Laws.Named.Statement (.pand y) := Laws.Named.of_slot rfl rfl rfl
theorem Laws.Named.por (y : Syl) : Laws.Named.Statement (.por y) := Laws.Named.of_slot rfl rfl rfl
theorem Laws.Named.pxor (y : Syl) : Laws.Named.Statement (.pxor y) := Laws.Named.of_slot rfl rfl rfl
theorem Laws.Named.pandn (y : Syl) : Laws.Named.Statement (.pandn y) := Laws.Named.of_slot rfl rfl rfl
theorem Laws.Named.pnot (y : Syl) : Laws.Named.Statement (.pnot y) := Laws.Named.of_slot rfl rfl rfl
theorem Laws.Named.aadd (y : Syl) : Laws.Named.Statement (.aadd y) := Laws.Named.of_slot rfl rfl rfl
theorem Laws.Named.asub (y : Syl) : Laws.Named.Statement (.asub y) := Laws.Named.of_slot rfl rfl rfl
theorem Laws.Named.aidx (y : Syl) : Laws.Named.Statement (.aidx y) := Laws.Named.of_slot rfl rfl rfl
theorem Laws.Named.aand (y : Syl) : Laws.Named.Statement (.aand y) := Laws.Named.of_slot rfl rfl rfl
theorem Laws.Named.acmpeq (y : Syl) : Laws.Named.Statement (.acmpeq y) := Laws.Named.of_slot rfl rfl rfl
theorem Laws.Named.acmpne (y : Syl) : Laws.Named.Statement (.acmpne y) := Laws.Named.of_slot rfl rfl rfl
theorem Laws.Named.acmplt (y : Syl) : Laws.Named.Statement (.acmplt y) := Laws.Named.of_slot rfl rfl rfl
theorem Laws.Named.acmpge (y : Syl) : Laws.Named.Statement (.acmpge y) := Laws.Named.of_slot rfl rfl rfl
theorem Laws.Named.br (y : Syl) : Laws.Named.Statement (.br y) := Laws.Named.of_slot rfl rfl rfl
theorem Laws.Named.call (y : Syl) : Laws.Named.Statement (.call y) := Laws.Named.of_slot rfl rfl rfl
theorem Laws.Named.callr (y : Syl) : Laws.Named.Statement (.callr y) := Laws.Named.of_slot rfl rfl rfl
theorem Laws.Named.jr (y : Syl) : Laws.Named.Statement (.jr y) := Laws.Named.of_slot rfl rfl rfl
theorem Laws.Named.loop (y : Syl) : Laws.Named.Statement (.loop y) := Laws.Named.of_slot rfl rfl rfl
theorem Laws.Named.rep (y : Syl) : Laws.Named.Statement (.rep y) := Laws.Named.of_slot rfl rfl rfl
theorem Laws.Named.yield (y : Syl) : Laws.Named.Statement (.yield y) := Laws.Named.of_slot rfl rfl rfl
theorem Laws.Named.halt (y : Syl) : Laws.Named.Statement (.halt y) := Laws.Named.of_slot rfl rfl rfl
theorem Laws.Named.exit (y : Syl) : Laws.Named.Statement (.exit y) := Laws.Named.of_slot rfl rfl rfl
theorem Laws.Named.exitStatus (y : Syl) : Laws.Named.Statement (.exitStatus y) := Laws.Named.of_slot rfl rfl rfl
theorem Laws.Named.fadd (y : Syl) : Laws.Named.Statement (.fadd y) := Laws.Named.of_slot rfl rfl rfl
theorem Laws.Named.fsub (y : Syl) : Laws.Named.Statement (.fsub y) := Laws.Named.of_slot rfl rfl rfl
theorem Laws.Named.fmul (y : Syl) : Laws.Named.Statement (.fmul y) := Laws.Named.of_slot rfl rfl rfl
theorem Laws.Named.fabs (y : Syl) : Laws.Named.Statement (.fabs y) := Laws.Named.of_slot rfl rfl rfl
theorem Laws.Named.fneg (y : Syl) : Laws.Named.Statement (.fneg y) := Laws.Named.of_slot rfl rfl rfl
theorem Laws.Named.fma (y : Syl) : Laws.Named.Statement (.fma y) := Laws.Named.of_slot rfl rfl rfl
theorem Laws.Named.fms (y : Syl) : Laws.Named.Statement (.fms y) := Laws.Named.of_slot rfl rfl rfl
theorem Laws.Named.fnma (y : Syl) : Laws.Named.Statement (.fnma y) := Laws.Named.of_slot rfl rfl rfl
theorem Laws.Named.fnms (y : Syl) : Laws.Named.Statement (.fnms y) := Laws.Named.of_slot rfl rfl rfl
theorem Laws.Named.fcmpeq (y : Syl) : Laws.Named.Statement (.fcmpeq y) := Laws.Named.of_slot rfl rfl rfl
theorem Laws.Named.fcmpne (y : Syl) : Laws.Named.Statement (.fcmpne y) := Laws.Named.of_slot rfl rfl rfl
theorem Laws.Named.fcmplt (y : Syl) : Laws.Named.Statement (.fcmplt y) := Laws.Named.of_slot rfl rfl rfl
theorem Laws.Named.fcmple (y : Syl) : Laws.Named.Statement (.fcmple y) := Laws.Named.of_slot rfl rfl rfl
theorem Laws.Named.fcmpgt (y : Syl) : Laws.Named.Statement (.fcmpgt y) := Laws.Named.of_slot rfl rfl rfl
theorem Laws.Named.fcmpge (y : Syl) : Laws.Named.Statement (.fcmpge y) := Laws.Named.of_slot rfl rfl rfl
theorem Laws.Named.fmin (y : Syl) : Laws.Named.Statement (.fmin y) := Laws.Named.of_slot rfl rfl rfl
theorem Laws.Named.fmax (y : Syl) : Laws.Named.Statement (.fmax y) := Laws.Named.of_slot rfl rfl rfl
theorem Laws.Named.cvt (y : Syl) : Laws.Named.Statement (.cvt y) := Laws.Named.of_slot rfl rfl rfl
theorem Laws.Named.frcp (y : Syl) : Laws.Named.Statement (.frcp y) := Laws.Named.of_slot rfl rfl rfl
theorem Laws.Named.frsq (y : Syl) : Laws.Named.Statement (.frsq y) := Laws.Named.of_slot rfl rfl rfl
theorem Laws.Named.ldL (y : Syl) : Laws.Named.Statement (.ldL y) := Laws.Named.of_slot rfl rfl rfl
theorem Laws.Named.ldAcqL (y : Syl) : Laws.Named.Statement (.ldAcqL y) := Laws.Named.of_slot rfl rfl rfl
theorem Laws.Named.ldG (y : Syl) : Laws.Named.Statement (.ldG y) := Laws.Named.of_slot rfl rfl rfl
theorem Laws.Named.ldAcqG (y : Syl) : Laws.Named.Statement (.ldAcqG y) := Laws.Named.of_slot rfl rfl rfl
theorem Laws.Named.stL (y : Syl) : Laws.Named.Statement (.stL y) := Laws.Named.of_slot rfl rfl rfl
theorem Laws.Named.stRelL (y : Syl) : Laws.Named.Statement (.stRelL y) := Laws.Named.of_slot rfl rfl rfl
theorem Laws.Named.stG (y : Syl) : Laws.Named.Statement (.stG y) := Laws.Named.of_slot rfl rfl rfl
theorem Laws.Named.stRelG (y : Syl) : Laws.Named.Statement (.stRelG y) := Laws.Named.of_slot rfl rfl rfl
theorem Laws.Named.prefG (y : Syl) : Laws.Named.Statement (.prefG y) := Laws.Named.of_slot rfl rfl rfl
theorem Laws.Named.prefwG (y : Syl) : Laws.Named.Statement (.prefwG y) := Laws.Named.of_slot rfl rfl rfl
theorem Laws.Named.prefL (y : Syl) : Laws.Named.Statement (.prefL y) := Laws.Named.of_slot rfl rfl rfl
theorem Laws.Named.qalign (y : Syl) : Laws.Named.Statement (.qalign y) := Laws.Named.of_slot rfl rfl rfl
theorem Laws.Named.fenceCore (y : Syl) : Laws.Named.Statement (.fenceCore y) := Laws.Named.of_slot rfl rfl rfl
theorem Laws.Named.fenceClus (y : Syl) : Laws.Named.Statement (.fenceClus y) := Laws.Named.of_slot rfl rfl rfl
theorem Laws.Named.fenceDie (y : Syl) : Laws.Named.Statement (.fenceDie y) := Laws.Named.of_slot rfl rfl rfl
theorem Laws.Named.fencePkg (y : Syl) : Laws.Named.Statement (.fencePkg y) := Laws.Named.of_slot rfl rfl rfl
theorem Laws.Named.fencePod (y : Syl) : Laws.Named.Statement (.fencePod y) := Laws.Named.of_slot rfl rfl rfl
theorem Laws.Named.atomAdd (y : Syl) : Laws.Named.Statement (.atomAdd y) := Laws.Named.of_slot rfl rfl rfl
theorem Laws.Named.atomAnd (y : Syl) : Laws.Named.Statement (.atomAnd y) := Laws.Named.of_slot rfl rfl rfl
theorem Laws.Named.atomOr (y : Syl) : Laws.Named.Statement (.atomOr y) := Laws.Named.of_slot rfl rfl rfl
theorem Laws.Named.atomXor (y : Syl) : Laws.Named.Statement (.atomXor y) := Laws.Named.of_slot rfl rfl rfl
theorem Laws.Named.atomMin (y : Syl) : Laws.Named.Statement (.atomMin y) := Laws.Named.of_slot rfl rfl rfl
theorem Laws.Named.atomMax (y : Syl) : Laws.Named.Statement (.atomMax y) := Laws.Named.of_slot rfl rfl rfl
theorem Laws.Named.atomSwp (y : Syl) : Laws.Named.Statement (.atomSwp y) := Laws.Named.of_slot rfl rfl rfl
theorem Laws.Named.atomCas (y : Syl) : Laws.Named.Statement (.atomCas y) := Laws.Named.of_slot rfl rfl rfl
theorem Laws.Named.atomFadd (y : Syl) : Laws.Named.Statement (.atomFadd y) := Laws.Named.of_slot rfl rfl rfl
theorem Laws.Named.redAdd (y : Syl) : Laws.Named.Statement (.redAdd y) := Laws.Named.of_slot rfl rfl rfl
theorem Laws.Named.redAnd (y : Syl) : Laws.Named.Statement (.redAnd y) := Laws.Named.of_slot rfl rfl rfl
theorem Laws.Named.redOr (y : Syl) : Laws.Named.Statement (.redOr y) := Laws.Named.of_slot rfl rfl rfl
theorem Laws.Named.redXor (y : Syl) : Laws.Named.Statement (.redXor y) := Laws.Named.of_slot rfl rfl rfl
theorem Laws.Named.redMin (y : Syl) : Laws.Named.Statement (.redMin y) := Laws.Named.of_slot rfl rfl rfl
theorem Laws.Named.redMax (y : Syl) : Laws.Named.Statement (.redMax y) := Laws.Named.of_slot rfl rfl rfl
theorem Laws.Named.redFadd (y : Syl) : Laws.Named.Statement (.redFadd y) := Laws.Named.of_slot rfl rfl rfl
theorem Laws.Named.trap (y : Syl) : Laws.Named.Statement (.trap y) := Laws.Named.of_slot rfl rfl rfl
theorem Laws.Named.rett (y : Syl) : Laws.Named.Statement (.rett y) := Laws.Named.of_slot rfl rfl rfl
theorem Laws.Named.rdtime (y : Syl) : Laws.Named.Statement (.rdtime y) := Laws.Named.of_slot rfl rfl rfl
theorem Laws.Named.rdcyc (y : Syl) : Laws.Named.Statement (.rdcyc y) := Laws.Named.of_slot rfl rfl rfl
theorem Laws.Named.rdsr (y : Syl) : Laws.Named.Statement (.rdsr y) := Laws.Named.of_slot rfl rfl rfl
theorem Laws.Named.wrsr (y : Syl) : Laws.Named.Statement (.wrsr y) := Laws.Named.of_slot rfl rfl rfl
theorem Laws.Named.rdwid (y : Syl) : Laws.Named.Statement (.rdwid y) := Laws.Named.of_slot rfl rfl rfl
theorem Laws.Named.rdwf (y : Syl) : Laws.Named.Statement (.rdwf y) := Laws.Named.of_slot rfl rfl rfl
theorem Laws.Named.rdwfl (y : Syl) : Laws.Named.Statement (.rdwfl y) := Laws.Named.of_slot rfl rfl rfl
theorem Laws.Named.locq (y : Syl) : Laws.Named.Statement (.locq y) := Laws.Named.of_slot rfl rfl rfl
theorem Laws.Named.sleepto (y : Syl) : Laws.Named.Statement (.sleepto y) := Laws.Named.of_slot rfl rfl rfl
theorem Laws.Named.sleeptoCp0 (y : Syl) : Laws.Named.Statement (.sleeptoCp0 y) := Laws.Named.of_slot rfl rfl rfl
theorem Laws.Named.sleeptoCp1 (y : Syl) : Laws.Named.Statement (.sleeptoCp1 y) := Laws.Named.of_slot rfl rfl rfl
theorem Laws.Named.regsync (y : Syl) : Laws.Named.Statement (.regsync y) := Laws.Named.of_slot rfl rfl rfl
theorem Laws.Named.reginv (y : Syl) : Laws.Named.Statement (.reginv y) := Laws.Named.of_slot rfl rfl rfl
theorem Laws.Named.binit (y : Syl) : Laws.Named.Statement (.binit y) := Laws.Named.of_slot rfl rfl rfl
theorem Laws.Named.barr (y : Syl) : Laws.Named.Statement (.barr y) := Laws.Named.of_slot rfl rfl rfl
theorem Laws.Named.bwait (y : Syl) : Laws.Named.Statement (.bwait y) := Laws.Named.of_slot rfl rfl rfl
theorem Laws.Named.btest (y : Syl) : Laws.Named.Statement (.btest y) := Laws.Named.of_slot rfl rfl rfl
theorem Laws.Named.brd (y : Syl) : Laws.Named.Statement (.brd y) := Laws.Named.of_slot rfl rfl rfl
theorem Laws.Named.enq (y : Syl) : Laws.Named.Statement (.enq y) := Laws.Named.of_slot rfl rfl rfl
theorem Laws.Named.enqp (y : Syl) : Laws.Named.Statement (.enqp y) := Laws.Named.of_slot rfl rfl rfl
theorem Laws.Named.tlrd (y : Syl) : Laws.Named.Statement (.tlrd y) := Laws.Named.of_slot rfl rfl rfl
theorem Laws.Named.tlwait (y : Syl) : Laws.Named.Statement (.tlwait y) := Laws.Named.of_slot rfl rfl rfl
theorem Laws.Named.tlflt (y : Syl) : Laws.Named.Statement (.tlflt y) := Laws.Named.of_slot rfl rfl rfl
theorem Laws.Named.tlfltc (y : Syl) : Laws.Named.Statement (.tlfltc y) := Laws.Named.of_slot rfl rfl rfl
theorem Laws.Named.statrd (y : Syl) : Laws.Named.Statement (.statrd y) := Laws.Named.of_slot rfl rfl rfl
theorem Laws.Named.statrdc (y : Syl) : Laws.Named.Statement (.statrdc y) := Laws.Named.of_slot rfl rfl rfl
theorem Laws.Named.vwin (y : Syl) : Laws.Named.Statement (.vwin y) := Laws.Named.of_slot rfl rfl rfl
theorem Laws.Named.vwinReg (y : Syl) : Laws.Named.Statement (.vwinReg y) := Laws.Named.of_slot rfl rfl rfl
theorem Laws.Named.sgrp (y : Syl) : Laws.Named.Statement (.sgrp y) := Laws.Named.of_slot rfl rfl rfl
theorem Laws.Named.sgleave (y : Syl) : Laws.Named.Statement (.sgleave y) := Laws.Named.of_slot rfl rfl rfl
theorem Laws.Named.sgsync (y : Syl) : Laws.Named.Statement (.sgsync y) := Laws.Named.of_slot rfl rfl rfl
theorem Laws.Named.sgrd (y : Syl) : Laws.Named.Statement (.sgrd y) := Laws.Named.of_slot rfl rfl rfl
theorem Laws.Named.tlbinvVa (y : Syl) : Laws.Named.Statement (.tlbinvVa y) := Laws.Named.of_slot rfl rfl rfl
theorem Laws.Named.tlbinvTbl (y : Syl) : Laws.Named.Statement (.tlbinvTbl y) := Laws.Named.of_slot rfl rfl rfl
theorem Laws.Named.tlbinvAll (y : Syl) : Laws.Named.Statement (.tlbinvAll y) := Laws.Named.of_slot rfl rfl rfl
theorem Laws.Named.tlbwait (y : Syl) : Laws.Named.Statement (.tlbwait y) := Laws.Named.of_slot rfl rfl rfl
theorem Laws.Named.xlat (y : Syl) : Laws.Named.Statement (.xlat y) := Laws.Named.of_slot rfl rfl rfl
theorem Laws.Named.xlatW (y : Syl) : Laws.Named.Statement (.xlatW y) := Laws.Named.of_slot rfl rfl rfl
theorem Laws.Named.xlatX (y : Syl) : Laws.Named.Statement (.xlatX y) := Laws.Named.of_slot rfl rfl rfl
theorem Laws.Named.wpkr (y : Syl) : Laws.Named.Statement (.wpkr y) := Laws.Named.of_slot rfl rfl rfl
theorem Laws.Named.rpkr (y : Syl) : Laws.Named.Statement (.rpkr y) := Laws.Named.of_slot rfl rfl rfl
theorem Laws.Named.mighint (y : Syl) : Laws.Named.Statement (.mighint y) := Laws.Named.of_slot rfl rfl rfl
theorem Laws.Named.circwait (y : Syl) : Laws.Named.Statement (.circwait y) := Laws.Named.of_slot rfl rfl rfl
theorem Laws.Named.circq (y : Syl) : Laws.Named.Statement (.circq y) := Laws.Named.of_slot rfl rfl rfl
theorem Laws.Named.launch (y : Syl) : Laws.Named.Statement (.launch y) := Laws.Named.of_slot rfl rfl rfl
theorem Laws.Named.lnstat (y : Syl) : Laws.Named.Statement (.lnstat y) := Laws.Named.of_slot rfl rfl rfl
theorem Laws.Named.qpost (y : Syl) : Laws.Named.Statement (.qpost y) := Laws.Named.of_slot rfl rfl rfl
theorem Laws.Named.qarm (y : Syl) : Laws.Named.Statement (.qarm y) := Laws.Named.of_slot rfl rfl rfl
theorem Laws.Named.cntrd (y : Syl) : Laws.Named.Statement (.cntrd y) := Laws.Named.of_slot rfl rfl rfl
theorem Laws.Named.cntwait (y : Syl) : Laws.Named.Statement (.cntwait y) := Laws.Named.of_slot rfl rfl rfl
theorem Laws.Named.cntadd (y : Syl) : Laws.Named.Statement (.cntadd y) := Laws.Named.of_slot rfl rfl rfl
theorem Laws.Named.pncfg (y : Syl) : Laws.Named.Statement (.pncfg y) := Laws.Named.of_slot rfl rfl rfl
theorem Laws.Named.pnstat (y : Syl) : Laws.Named.Statement (.pnstat y) := Laws.Named.of_slot rfl rfl rfl
theorem Laws.Named.vfadd (y : Syl) : Laws.Named.Statement (.vfadd y) := Laws.Named.of_slot rfl rfl rfl
theorem Laws.Named.vfsub (y : Syl) : Laws.Named.Statement (.vfsub y) := Laws.Named.of_slot rfl rfl rfl
theorem Laws.Named.vfmul (y : Syl) : Laws.Named.Statement (.vfmul y) := Laws.Named.of_slot rfl rfl rfl
theorem Laws.Named.vfabs (y : Syl) : Laws.Named.Statement (.vfabs y) := Laws.Named.of_slot rfl rfl rfl
theorem Laws.Named.vfma (y : Syl) : Laws.Named.Statement (.vfma y) := Laws.Named.of_slot rfl rfl rfl
theorem Laws.Named.vfms (y : Syl) : Laws.Named.Statement (.vfms y) := Laws.Named.of_slot rfl rfl rfl
theorem Laws.Named.vfnma (y : Syl) : Laws.Named.Statement (.vfnma y) := Laws.Named.of_slot rfl rfl rfl
theorem Laws.Named.vfnms (y : Syl) : Laws.Named.Statement (.vfnms y) := Laws.Named.of_slot rfl rfl rfl
theorem Laws.Named.vfmin (y : Syl) : Laws.Named.Statement (.vfmin y) := Laws.Named.of_slot rfl rfl rfl
theorem Laws.Named.vfmax (y : Syl) : Laws.Named.Statement (.vfmax y) := Laws.Named.of_slot rfl rfl rfl
theorem Laws.Named.vfneg (y : Syl) : Laws.Named.Statement (.vfneg y) := Laws.Named.of_slot rfl rfl rfl
theorem Laws.Named.vadd (y : Syl) : Laws.Named.Statement (.vadd y) := Laws.Named.of_slot rfl rfl rfl
theorem Laws.Named.vsub (y : Syl) : Laws.Named.Statement (.vsub y) := Laws.Named.of_slot rfl rfl rfl
theorem Laws.Named.vmin (y : Syl) : Laws.Named.Statement (.vmin y) := Laws.Named.of_slot rfl rfl rfl
theorem Laws.Named.vmax (y : Syl) : Laws.Named.Statement (.vmax y) := Laws.Named.of_slot rfl rfl rfl
theorem Laws.Named.vmul (y : Syl) : Laws.Named.Statement (.vmul y) := Laws.Named.of_slot rfl rfl rfl
theorem Laws.Named.vmulh (y : Syl) : Laws.Named.Statement (.vmulh y) := Laws.Named.of_slot rfl rfl rfl
theorem Laws.Named.vmad (y : Syl) : Laws.Named.Statement (.vmad y) := Laws.Named.of_slot rfl rfl rfl
theorem Laws.Named.vabsd (y : Syl) : Laws.Named.Statement (.vabsd y) := Laws.Named.of_slot rfl rfl rfl
theorem Laws.Named.vabs (y : Syl) : Laws.Named.Statement (.vabs y) := Laws.Named.of_slot rfl rfl rfl
theorem Laws.Named.vand (y : Syl) : Laws.Named.Statement (.vand y) := Laws.Named.of_slot rfl rfl rfl
theorem Laws.Named.vor (y : Syl) : Laws.Named.Statement (.vor y) := Laws.Named.of_slot rfl rfl rfl
theorem Laws.Named.vxor (y : Syl) : Laws.Named.Statement (.vxor y) := Laws.Named.of_slot rfl rfl rfl
theorem Laws.Named.vandn (y : Syl) : Laws.Named.Statement (.vandn y) := Laws.Named.of_slot rfl rfl rfl
theorem Laws.Named.vnot (y : Syl) : Laws.Named.Statement (.vnot y) := Laws.Named.of_slot rfl rfl rfl
theorem Laws.Named.vshl (y : Syl) : Laws.Named.Statement (.vshl y) := Laws.Named.of_slot rfl rfl rfl
theorem Laws.Named.vshr (y : Syl) : Laws.Named.Statement (.vshr y) := Laws.Named.of_slot rfl rfl rfl
theorem Laws.Named.vrol (y : Syl) : Laws.Named.Statement (.vrol y) := Laws.Named.of_slot rfl rfl rfl
theorem Laws.Named.vror (y : Syl) : Laws.Named.Statement (.vror y) := Laws.Named.of_slot rfl rfl rfl
theorem Laws.Named.vcmpeq (y : Syl) : Laws.Named.Statement (.vcmpeq y) := Laws.Named.of_slot rfl rfl rfl
theorem Laws.Named.vcmpne (y : Syl) : Laws.Named.Statement (.vcmpne y) := Laws.Named.of_slot rfl rfl rfl
theorem Laws.Named.vcmplt (y : Syl) : Laws.Named.Statement (.vcmplt y) := Laws.Named.of_slot rfl rfl rfl
theorem Laws.Named.vcmple (y : Syl) : Laws.Named.Statement (.vcmple y) := Laws.Named.of_slot rfl rfl rfl
theorem Laws.Named.vcmpgt (y : Syl) : Laws.Named.Statement (.vcmpgt y) := Laws.Named.of_slot rfl rfl rfl
theorem Laws.Named.vcmpge (y : Syl) : Laws.Named.Statement (.vcmpge y) := Laws.Named.of_slot rfl rfl rfl
theorem Laws.Named.vtest (y : Syl) : Laws.Named.Statement (.vtest y) := Laws.Named.of_slot rfl rfl rfl
theorem Laws.Named.vfcmpeq (y : Syl) : Laws.Named.Statement (.vfcmpeq y) := Laws.Named.of_slot rfl rfl rfl
theorem Laws.Named.vfcmpne (y : Syl) : Laws.Named.Statement (.vfcmpne y) := Laws.Named.of_slot rfl rfl rfl
theorem Laws.Named.vfcmplt (y : Syl) : Laws.Named.Statement (.vfcmplt y) := Laws.Named.of_slot rfl rfl rfl
theorem Laws.Named.vfcmple (y : Syl) : Laws.Named.Statement (.vfcmple y) := Laws.Named.of_slot rfl rfl rfl
theorem Laws.Named.vfcmpgt (y : Syl) : Laws.Named.Statement (.vfcmpgt y) := Laws.Named.of_slot rfl rfl rfl
theorem Laws.Named.vfcmpge (y : Syl) : Laws.Named.Statement (.vfcmpge y) := Laws.Named.of_slot rfl rfl rfl
theorem Laws.Named.vsel (y : Syl) : Laws.Named.Statement (.vsel y) := Laws.Named.of_slot rfl rfl rfl
theorem Laws.Named.vcvt (y : Syl) : Laws.Named.Statement (.vcvt y) := Laws.Named.of_slot rfl rfl rfl
theorem Laws.Named.vrcp (y : Syl) : Laws.Named.Statement (.vrcp y) := Laws.Named.of_slot rfl rfl rfl
theorem Laws.Named.vrsq (y : Syl) : Laws.Named.Statement (.vrsq y) := Laws.Named.of_slot rfl rfl rfl
theorem Laws.Named.vexp2 (y : Syl) : Laws.Named.Statement (.vexp2 y) := Laws.Named.of_slot rfl rfl rfl
theorem Laws.Named.vlog2 (y : Syl) : Laws.Named.Statement (.vlog2 y) := Laws.Named.of_slot rfl rfl rfl
theorem Laws.Named.vtanh (y : Syl) : Laws.Named.Statement (.vtanh y) := Laws.Named.of_slot rfl rfl rfl
theorem Laws.Named.vredsum (y : Syl) : Laws.Named.Statement (.vredsum y) := Laws.Named.of_slot rfl rfl rfl
theorem Laws.Named.vredmin (y : Syl) : Laws.Named.Statement (.vredmin y) := Laws.Named.of_slot rfl rfl rfl
theorem Laws.Named.vredmax (y : Syl) : Laws.Named.Statement (.vredmax y) := Laws.Named.of_slot rfl rfl rfl
theorem Laws.Named.vscansum (y : Syl) : Laws.Named.Statement (.vscansum y) := Laws.Named.of_slot rfl rfl rfl
theorem Laws.Named.vscanmin (y : Syl) : Laws.Named.Statement (.vscanmin y) := Laws.Named.of_slot rfl rfl rfl
theorem Laws.Named.vscanmax (y : Syl) : Laws.Named.Statement (.vscanmax y) := Laws.Named.of_slot rfl rfl rfl
theorem Laws.Named.vcomp (y : Syl) : Laws.Named.Statement (.vcomp y) := Laws.Named.of_slot rfl rfl rfl
theorem Laws.Named.vexpd (y : Syl) : Laws.Named.Statement (.vexpd y) := Laws.Named.of_slot rfl rfl rfl
theorem Laws.Named.vperm (y : Syl) : Laws.Named.Statement (.vperm y) := Laws.Named.of_slot rfl rfl rfl
theorem Laws.Named.vrotr (y : Syl) : Laws.Named.Statement (.vrotr y) := Laws.Named.of_slot rfl rfl rfl
theorem Laws.Named.vzipl (y : Syl) : Laws.Named.Statement (.vzipl y) := Laws.Named.of_slot rfl rfl rfl
theorem Laws.Named.vziph (y : Syl) : Laws.Named.Statement (.vziph y) := Laws.Named.of_slot rfl rfl rfl
theorem Laws.Named.vuzpe (y : Syl) : Laws.Named.Statement (.vuzpe y) := Laws.Named.of_slot rfl rfl rfl
theorem Laws.Named.vuzpo (y : Syl) : Laws.Named.Statement (.vuzpo y) := Laws.Named.of_slot rfl rfl rfl
theorem Laws.Named.vsplat (y : Syl) : Laws.Named.Statement (.vsplat y) := Laws.Named.of_slot rfl rfl rfl
theorem Laws.Named.viota (y : Syl) : Laws.Named.Statement (.viota y) := Laws.Named.of_slot rfl rfl rfl
theorem Laws.Named.vrand (y : Syl) : Laws.Named.Statement (.vrand y) := Laws.Named.of_slot rfl rfl rfl
theorem Laws.Named.vld (y : Syl) : Laws.Named.Statement (.vld y) := Laws.Named.of_slot rfl rfl rfl
theorem Laws.Named.vst (y : Syl) : Laws.Named.Statement (.vst y) := Laws.Named.of_slot rfl rfl rfl
theorem Laws.Named.vstm (y : Syl) : Laws.Named.Statement (.vstm y) := Laws.Named.of_slot rfl rfl rfl
theorem Laws.Named.vext (y : Syl) : Laws.Named.Statement (.vext y) := Laws.Named.of_slot rfl rfl rfl
theorem Laws.Named.vins (y : Syl) : Laws.Named.Statement (.vins y) := Laws.Named.of_slot rfl rfl rfl
theorem Laws.Named.vmov (y : Syl) : Laws.Named.Statement (.vmov y) := Laws.Named.of_slot rfl rfl rfl
theorem Laws.Named.mand (y : Syl) : Laws.Named.Statement (.mand y) := Laws.Named.of_slot rfl rfl rfl
theorem Laws.Named.mor (y : Syl) : Laws.Named.Statement (.mor y) := Laws.Named.of_slot rfl rfl rfl
theorem Laws.Named.mxor (y : Syl) : Laws.Named.Statement (.mxor y) := Laws.Named.of_slot rfl rfl rfl
theorem Laws.Named.mandn (y : Syl) : Laws.Named.Statement (.mandn y) := Laws.Named.of_slot rfl rfl rfl
theorem Laws.Named.mnot (y : Syl) : Laws.Named.Statement (.mnot y) := Laws.Named.of_slot rfl rfl rfl
theorem Laws.Named.mfirst (y : Syl) : Laws.Named.Statement (.mfirst y) := Laws.Named.of_slot rfl rfl rfl
theorem Laws.Named.mcnt (y : Syl) : Laws.Named.Statement (.mcnt y) := Laws.Named.of_slot rfl rfl rfl
theorem Laws.Named.ppset (y : Syl) : Laws.Named.Statement (.ppset y) := Laws.Named.of_slot rfl rfl rfl
theorem Laws.Named.ppdeg (y : Syl) : Laws.Named.Statement (.ppdeg y) := Laws.Named.of_slot rfl rfl rfl
theorem Laws.Named.ppmul (y : Syl) : Laws.Named.Statement (.ppmul y) := Laws.Named.of_slot rfl rfl rfl
theorem Laws.Named.ppmulv (y : Syl) : Laws.Named.Statement (.ppmulv y) := Laws.Named.of_slot rfl rfl rfl
theorem Laws.Named.ppdiv (y : Syl) : Laws.Named.Statement (.ppdiv y) := Laws.Named.of_slot rfl rfl rfl
theorem Laws.Named.ppmrg (y : Syl) : Laws.Named.Statement (.ppmrg y) := Laws.Named.of_slot rfl rfl rfl
theorem Laws.Named.ppscl (y : Syl) : Laws.Named.Statement (.ppscl y) := Laws.Named.of_slot rfl rfl rfl
theorem Laws.Named.pprd (y : Syl) : Laws.Named.Statement (.pprd y) := Laws.Named.of_slot rfl rfl rfl
theorem Laws.Named.pprdx (y : Syl) : Laws.Named.Statement (.pprdx y) := Laws.Named.of_slot rfl rfl rfl
theorem Laws.Named.pprdst (y : Syl) : Laws.Named.Statement (.pprdst y) := Laws.Named.of_slot rfl rfl rfl
theorem Laws.Named.ppwr (y : Syl) : Laws.Named.Statement (.ppwr y) := Laws.Named.of_slot rfl rfl rfl
theorem Laws.Named.ppaApplyFactor (u : UnitNo) (pp : BitVec 3) : Laws.Named.Statement (.ppaApplyFactor u pp) := Laws.Named.of_seq rfl rfl
theorem Laws.Named.ppaApplyMerge (u : UnitNo) (pp : BitVec 3) : Laws.Named.Statement (.ppaApplyMerge u pp) := Laws.Named.of_seq rfl rfl
theorem Laws.Named.ppaApplyRemove (u : UnitNo) (pp : BitVec 3) : Laws.Named.Statement (.ppaApplyRemove u pp) := Laws.Named.of_seq rfl rfl
theorem Laws.Named.ppaApplySet (u : UnitNo) (pp : BitVec 3) : Laws.Named.Statement (.ppaApplySet u pp) := Laws.Named.of_seq rfl rfl
theorem Laws.Named.mma (q : QRef) (c : Cmd) : Laws.Named.Statement (.mma q c) := Laws.Named.of_cmd rfl rfl
theorem Laws.Named.mmas (q : QRef) (c : Cmd) : Laws.Named.Statement (.mmas q c) := Laws.Named.of_cmd rfl rfl
theorem Laws.Named.mzero (q : QRef) (c : Cmd) : Laws.Named.Statement (.mzero q c) := Laws.Named.of_cmd rfl rfl
theorem Laws.Named.mload (q : QRef) (c : Cmd) : Laws.Named.Statement (.mload q c) := Laws.Named.of_cmd rfl rfl
theorem Laws.Named.mdrain (q : QRef) (c : Cmd) : Laws.Named.Statement (.mdrain q c) := Laws.Named.of_cmd rfl rfl
theorem Laws.Named.pacc (q : QRef) (c : Cmd) : Laws.Named.Statement (.pacc q c) := Laws.Named.of_cmd rfl rfl
theorem Laws.Named.copy (q : QRef) (c : Cmd) : Laws.Named.Statement (.copy q c) := Laws.Named.of_cmd rfl rfl
theorem Laws.Named.feed (q : QRef) (c : Cmd) : Laws.Named.Statement (.feed q c) := Laws.Named.of_cmd rfl rfl
theorem Laws.Named.feedm (q : QRef) (c : Cmd) : Laws.Named.Statement (.feedm q c) := Laws.Named.of_cmd rfl rfl
theorem Laws.Named.send (q : QRef) (c : Cmd) : Laws.Named.Statement (.send q c) := Laws.Named.of_cmd rfl rfl
theorem Laws.Named.gather (q : QRef) (c : Cmd) : Laws.Named.Statement (.gather q c) := Laws.Named.of_cmd rfl rfl
theorem Laws.Named.scatter (q : QRef) (c : Cmd) : Laws.Named.Statement (.scatter q c) := Laws.Named.of_cmd rfl rfl
theorem Laws.Named.notify (q : QRef) (c : Cmd) : Laws.Named.Statement (.notify q c) := Laws.Named.of_cmd rfl rfl
theorem Laws.Named.commandComplete (q : QRef) : Laws.Named.Statement (.commandComplete q) := Laws.Named.of_seq rfl rfl
theorem Laws.Named.chainTimeout (q : QRef) : Laws.Named.Statement (.chainTimeout q) := Laws.Named.of_seq rfl rfl
theorem Laws.Named.paccData (u : UnitNo) : Laws.Named.Statement (.paccData u) := Laws.Named.of_seq rfl rfl
theorem Laws.Named.paccCommit (u : UnitNo) : Laws.Named.Statement (.paccCommit u) := Laws.Named.of_seq rfl rfl
theorem Laws.Named.paccMismatch (u : UnitNo) : Laws.Named.Statement (.paccMismatch u) := Laws.Named.of_seq rfl rfl
theorem Laws.Named.paccAbort (u : UnitNo) : Laws.Named.Statement (.paccAbort u) := Laws.Named.of_seq rfl rfl
theorem Laws.Named.paccWithdraw (u : UnitNo) : Laws.Named.Statement (.paccWithdraw u) := Laws.Named.of_seq rfl rfl
theorem Laws.Named.paccClosed (u : UnitNo) : Laws.Named.Statement (.paccClosed u) := Laws.Named.of_seq rfl rfl
theorem Laws.Named.paccFaulted (u : UnitNo) : Laws.Named.Statement (.paccFaulted u) := Laws.Named.of_seq rfl rfl
theorem Laws.Named.paccParked (u : UnitNo) : Laws.Named.Statement (.paccParked u) := Laws.Named.of_seq rfl rfl
theorem Laws.Named.pairTimeoutLower (u : UnitNo) : Laws.Named.Statement (.pairTimeoutLower u) := Laws.Named.of_seq rfl rfl
theorem Laws.Named.pairTimeoutHigher (u : UnitNo) : Laws.Named.Statement (.pairTimeoutHigher u) := Laws.Named.of_seq rfl rfl
theorem Laws.Named.runStart (u : UnitNo) : Laws.Named.Statement (.runStart u) := Laws.Named.of_seq rfl rfl
theorem Laws.Named.quantumEnd (u : UnitNo) : Laws.Named.Statement (.quantumEnd u) := Laws.Named.of_seq rfl rfl
theorem Laws.Named.strandWake (u : UnitNo) (k : StrandNo) : Laws.Named.Statement (.strandWake u k) := Laws.Named.of_seq rfl rfl
theorem Laws.Named.trapEntry (u : UnitNo) (k : StrandNo) : Laws.Named.Statement (.trapEntry u k) := Laws.Named.of_seq rfl rfl
theorem Laws.Named.loadPerform (u : UnitNo) (k : StrandNo) : Laws.Named.Statement (.loadPerform u k) := Laws.Named.of_seq rfl rfl
theorem Laws.Named.storeVisible (u : UnitNo) (k : StrandNo) : Laws.Named.Statement (.storeVisible u k) := Laws.Named.of_seq rfl rfl
theorem Laws.Named.atomicPerform (u : UnitNo) (k : StrandNo) : Laws.Named.Statement (.atomicPerform u k) := Laws.Named.of_seq rfl rfl
theorem Laws.Named.postedAtomicPerform (u : UnitNo) (k : StrandNo) : Laws.Named.Statement (.postedAtomicPerform u k) := Laws.Named.of_seq rfl rfl
theorem Laws.Named.farStoreArrive (m : BitVec 6) : Laws.Named.Statement (.farStoreArrive m) := Laws.Named.of_seq rfl rfl
theorem Laws.Named.regionFill (u : UnitNo) (region : BitVec 5) (block : BitVec 9) : Laws.Named.Statement (.regionFill u region block) := Laws.Named.of_seq rfl rfl
theorem Laws.Named.regsyncWriteback (u : UnitNo) (k : StrandNo) : Laws.Named.Statement (.regsyncWriteback u k) := Laws.Named.of_seq rfl rfl
theorem Laws.Named.barrArrival (u : UnitNo) (k : StrandNo) : Laws.Named.Statement (.barrArrival u k) := Laws.Named.of_seq rfl rfl
theorem Laws.Named.binitEffect (u : UnitNo) (k : StrandNo) : Laws.Named.Statement (.binitEffect u k) := Laws.Named.of_seq rfl rfl
theorem Laws.Named.cntaddRaise (u : UnitNo) (k : StrandNo) : Laws.Named.Statement (.cntaddRaise u k) := Laws.Named.of_seq rfl rfl
theorem Laws.Named.qarmEffect (u : UnitNo) (k : StrandNo) : Laws.Named.Statement (.qarmEffect u k) := Laws.Named.of_seq rfl rfl
theorem Laws.Named.cmdareaWrite (u : UnitNo) (k : StrandNo) (v : BitVec 64) : Laws.Named.Statement (.cmdareaWrite u k v) := Laws.Named.of_seq rfl rfl
theorem Laws.Named.regionEntryWrite (u : UnitNo) (k : StrandNo) (region : BitVec 5) (high : Bool) (v : BitVec 64) : Laws.Named.Statement (.regionEntryWrite u k region high v) := Laws.Named.of_seq rfl rfl
theorem Laws.Named.mxposWrite (u : UnitNo) (k : StrandNo) (v : BitVec 64) : Laws.Named.Statement (.mxposWrite u k v) := Laws.Named.of_seq rfl rfl
theorem Laws.Named.slcfgWrite (u : UnitNo) (k : StrandNo) (v : BitVec 64) : Laws.Named.Statement (.slcfgWrite u k v) := Laws.Named.of_seq rfl rfl
theorem Laws.Named.splitChangeDone (c : ClusterNo) : Laws.Named.Statement (.splitChangeDone c) := Laws.Named.of_seq rfl rfl
theorem Laws.Named.xrootWrite (u : UnitNo) (k : StrandNo) (v : BitVec 64) : Laws.Named.Statement (.xrootWrite u k v) := Laws.Named.of_seq rfl rfl
theorem Laws.Named.repstatWrite (u : UnitNo) (k : StrandNo) (v : BitVec 64) : Laws.Named.Statement (.repstatWrite u k v) := Laws.Named.of_seq rfl rfl
theorem Laws.Named.groupStart (c : ClusterNo) (g : BitVec 2) : Laws.Named.Statement (.groupStart c g) := Laws.Named.of_seq rfl rfl
theorem Laws.Named.groupUnpark (c : ClusterNo) (g : BitVec 2) : Laws.Named.Statement (.groupUnpark c g) := Laws.Named.of_seq rfl rfl
theorem Laws.Named.groupBroken (c : ClusterNo) (g : BitVec 2) : Laws.Named.Statement (.groupBroken c g) := Laws.Named.of_seq rfl rfl
theorem Laws.Named.moveAdmit (u : UnitNo) (k : StrandNo) : Laws.Named.Statement (.moveAdmit u k) := Laws.Named.of_seq rfl rfl
theorem Laws.Named.migrationCommit (move : Nat) : Laws.Named.Statement (.migrationCommit move) := Laws.Named.of_seq rfl rfl
theorem Laws.Named.migrationRelease (move : Nat) : Laws.Named.Statement (.migrationRelease move) := Laws.Named.of_seq rfl rfl
theorem Laws.Named.migrationAbort (e : MoveEnd) : Laws.Named.Statement (.migrationAbort e) := Laws.Named.of_seq rfl rfl
theorem Laws.Named.budgetPeriod : Laws.Named.Statement .budgetPeriod := Laws.Named.of_seq rfl rfl
theorem Laws.Named.tlbinvDispatch (u : UnitNo) (k : StrandNo) : Laws.Named.Statement (.tlbinvDispatch u k) := Laws.Named.of_seq rfl rfl
theorem Laws.Named.tlbinvAck (u : UnitNo) (k : StrandNo) (n : BitVec 64) (die : BitVec 4) : Laws.Named.Statement (.tlbinvAck u k n die) := Laws.Named.of_seq rfl rfl
theorem Laws.Named.sqest (x : SeqCtx) (w : SeqArg) : Laws.Named.Statement (.sqest x w) := Laws.Named.of_seq rfl rfl
theorem Laws.Named.sqhold (x : SeqCtx) (w : SeqArg) : Laws.Named.Statement (.sqhold x w) := Laws.Named.of_seq rfl rfl
theorem Laws.Named.sqtear (x : SeqCtx) (w : SeqArg) : Laws.Named.Statement (.sqtear x w) := Laws.Named.of_seq rfl rfl
theorem Laws.Named.sqwait (x : SeqCtx) (w : SeqArg) : Laws.Named.Statement (.sqwait x w) := Laws.Named.of_seq rfl rfl
theorem Laws.Named.sqjmp (x : SeqCtx) (w : SeqArg) : Laws.Named.Statement (.sqjmp x w) := Laws.Named.of_seq rfl rfl
theorem Laws.Named.sqloop (x : SeqCtx) (w : SeqArg) : Laws.Named.Statement (.sqloop x w) := Laws.Named.of_seq rfl rfl
theorem Laws.Named.sqsig (x : SeqCtx) (w : SeqArg) : Laws.Named.Statement (.sqsig x w) := Laws.Named.of_seq rfl rfl
theorem Laws.Named.sqhalt (x : SeqCtx) (w : SeqArg) : Laws.Named.Statement (.sqhalt x w) := Laws.Named.of_seq rfl rfl
theorem Laws.Named.segmentApply : Laws.Named.Statement .segmentApply := Laws.Named.of_seq rfl rfl
theorem Laws.Named.leaseExpiry (x : SeqCtx) (h : BitVec 8) : Laws.Named.Statement (.leaseExpiry x h) := Laws.Named.of_seq rfl rfl
theorem Laws.Named.circuitLive (x : SeqCtx) (h : BitVec 8) : Laws.Named.Statement (.circuitLive x h) := Laws.Named.of_seq rfl rfl
theorem Laws.Named.laserFault (port : BitVec 7) (detail : Byte) : Laws.Named.Statement (.laserFault port detail) := Laws.Named.of_seq rfl rfl
theorem Laws.Named.ringTuningFault (port : BitVec 7) (detail : Byte) (crossing : List (BitVec 11)) : Laws.Named.Statement (.ringTuningFault port detail crossing) := Laws.Named.of_seq rfl rfl
theorem Laws.Named.dbell (p : PartNo) (v : BitVec 64) : Laws.Named.Statement (.dbell p v) := Laws.Named.of_seq rfl rfl
theorem Laws.Named.launchAccept (p : PartNo) (ticket : BitVec 64) : Laws.Named.Statement (.launchAccept p ticket) := Laws.Named.of_seq rfl rfl
theorem Laws.Named.gangDispatch (p : PartNo) (ticket : BitVec 64) (node : BitVec 6) (gang : Nat) (place : List UnitNo) (x : SeqCtx) : Laws.Named.Statement (.gangDispatch p ticket node gang place x) := Laws.Named.of_seq rfl rfl
theorem Laws.Named.instanceComplete (u : UnitNo) (k : StrandNo) : Laws.Named.Statement (.instanceComplete u k) := Laws.Named.of_seq rfl rfl
theorem Laws.Named.launchComplete (p : PartNo) (ticket : BitVec 64) : Laws.Named.Statement (.launchComplete p ticket) := Laws.Named.of_seq rfl rfl
theorem Laws.Named.launchSlot (e : BitVec 10) : Laws.Named.Statement (.launchSlot e) := Laws.Named.of_seq rfl rfl
theorem Laws.Named.preempt (p : PartNo) (ticket : BitVec 64) : Laws.Named.Statement (.preempt p ticket) := Laws.Named.of_seq rfl rfl
theorem Laws.Named.preemptStop (p : PartNo) (ticket : BitVec 64) : Laws.Named.Statement (.preemptStop p ticket) := Laws.Named.of_seq rfl rfl
theorem Laws.Named.restore (p : PartNo) (ticket : BitVec 64) (place : List UnitNo) : Laws.Named.Statement (.restore p ticket place) := Laws.Named.of_seq rfl rfl
theorem Laws.Named.unitpartWrite (u : BitVec 10) (v : BitVec 64) : Laws.Named.Statement (.unitpartWrite u v) := Laws.Named.of_seq rfl rfl
theorem Laws.Named.oportpartWrite (port : BitVec 7) (v : BitVec 64) : Laws.Named.Statement (.oportpartWrite port v) := Laws.Named.of_seq rfl rfl
theorem Laws.Named.seqpartWrite (sq : BitVec 3) (v : BitVec 64) : Laws.Named.Statement (.seqpartWrite sq v) := Laws.Named.of_seq rfl rfl
theorem Laws.Named.vfpartWrite (vf : BitVec 9) (v : BitVec 64) : Laws.Named.Statement (.vfpartWrite vf v) := Laws.Named.of_seq rfl rfl
theorem Laws.Named.policyWrite (p : PartNo) (v : BitVec 64) : Laws.Named.Statement (.policyWrite p v) := Laws.Named.of_seq rfl rfl
theorem Laws.Named.frtWrite (p : PartNo) (v : BitVec 64) : Laws.Named.Statement (.frtWrite p v) := Laws.Named.of_seq rfl rfl
theorem Laws.Named.cntWrite (p : PartNo) (c : BitVec 14) (v : BitVec 64) : Laws.Named.Statement (.cntWrite p c v) := Laws.Named.of_seq rfl rfl
theorem Laws.Named.qpcfgWrite (p : PartNo) (q : PairRef) (v : BitVec 64) : Laws.Named.Statement (.qpcfgWrite p q v) := Laws.Named.of_seq rfl rfl
theorem Laws.Named.qpringWrite (p : PartNo) (q : PairRef) (v : BitVec 64) : Laws.Named.Statement (.qpringWrite p q v) := Laws.Named.of_seq rfl rfl
theorem Laws.Named.qperrWrite (p : PartNo) (q : PairRef) (v : BitVec 64) : Laws.Named.Statement (.qperrWrite p q v) := Laws.Named.of_seq rfl rfl
theorem Laws.Named.apertureWrite (off : BitVec 40) (v : BitVec 64) : Laws.Named.Statement (.apertureWrite off v) := Laws.Named.of_seq rfl rfl
theorem Laws.Named.ptctlWrite (v : BitVec 64) : Laws.Named.Statement (.ptctlWrite v) := Laws.Named.of_seq rfl rfl
theorem Laws.Named.ptoffWrite (v : BitVec 64) : Laws.Named.Statement (.ptoffWrite v) := Laws.Named.of_seq rfl rfl
theorem Laws.Named.ptpMessage (off : BitVec 32) (port : BitVec 4) : Laws.Named.Statement (.ptpMessage off port) := Laws.Named.of_seq rfl rfl
theorem Laws.Named.pcfgWrite (p : BitVec 4) (v : BitVec 64) : Laws.Named.Statement (.pcfgWrite p v) := Laws.Named.of_seq rfl rfl
theorem Laws.Named.kswWrite (l : LinkRef) (v : BitVec 64) : Laws.Named.Statement (.kswWrite l v) := Laws.Named.of_seq rfl rfl
theorem Laws.Named.fecctlWrite (l : LinkRef) (v : BitVec 64) : Laws.Named.Statement (.fecctlWrite l v) := Laws.Named.of_seq rfl rfl
theorem Laws.Named.keySlotWrite (rx : Bool) (l : LinkRef) (slot : Bool) (word : BitVec 3) (v : BitVec 64) : Laws.Named.Statement (.keySlotWrite rx l slot word v) := Laws.Named.of_seq rfl rfl
theorem Laws.Named.lendingBoundary (e : BitVec 2) : Laws.Named.Statement (.lendingBoundary e) := Laws.Named.of_seq rfl rfl
theorem Laws.Named.laneServe (e : BitVec 2) (lane : BitVec 6) : Laws.Named.Statement (.laneServe e lane) := Laws.Named.of_seq rfl rfl
theorem Laws.Named.flitData (l : LinkRef) (f : Flit) : Laws.Named.Statement (.flitData l f) := Laws.Named.of_seq rfl rfl
theorem Laws.Named.req (l : LinkRef) (f : Flit) : Laws.Named.Statement (.req l f) := Laws.Named.of_seq rfl rfl
theorem Laws.Named.resp (l : LinkRef) (f : Flit) : Laws.Named.Statement (.resp l f) := Laws.Named.of_seq rfl rfl
theorem Laws.Named.flitAck (l : LinkRef) (f : Flit) : Laws.Named.Statement (.flitAck l f) := Laws.Named.of_seq rfl rfl
theorem Laws.Named.nak (l : LinkRef) (f : Flit) : Laws.Named.Statement (.nak l f) := Laws.Named.of_seq rfl rfl
theorem Laws.Named.keysw (l : LinkRef) (f : Flit) : Laws.Named.Statement (.keysw l f) := Laws.Named.of_seq rfl rfl
theorem Laws.Named.propose (l : LinkRef) (f : Flit) : Laws.Named.Statement (.propose l f) := Laws.Named.of_seq rfl rfl
theorem Laws.Named.accept (l : LinkRef) (f : Flit) : Laws.Named.Statement (.accept l f) := Laws.Named.of_seq rfl rfl
theorem Laws.Named.fecCommit (l : LinkRef) (f : Flit) : Laws.Named.Statement (.fecCommit l f) := Laws.Named.of_seq rfl rfl
theorem Laws.Named.decline (l : LinkRef) (f : Flit) : Laws.Named.Statement (.decline l f) := Laws.Named.of_seq rfl rfl
theorem Laws.Named.flitAckTimeout (l : LinkRef) : Laws.Named.Statement (.flitAckTimeout l) := Laws.Named.of_seq rfl rfl
theorem Laws.Named.flitPassDeadline (l : LinkRef) : Laws.Named.Statement (.flitPassDeadline l) := Laws.Named.of_seq rfl rfl
theorem Laws.Named.fecAcceptTimeout (l : LinkRef) : Laws.Named.Statement (.fecAcceptTimeout l) := Laws.Named.of_seq rfl rfl
theorem Laws.Named.fecWaitExpiry (l : LinkRef) : Laws.Named.Statement (.fecWaitExpiry l) := Laws.Named.of_seq rfl rfl
theorem Laws.Named.linkDown (l : LinkRef) (detail : Byte) : Laws.Named.Statement (.linkDown l detail) := Laws.Named.of_seq rfl rfl
theorem Laws.Named.farAccessTimeout (id : Nat) : Laws.Named.Statement (.farAccessTimeout id) := Laws.Named.of_seq rfl rfl
theorem Laws.Named.uetPacket (p : UetPacket) : Laws.Named.Statement (.uetPacket p) := Laws.Named.of_seq rfl rfl
theorem Laws.Named.entryFire (p : PairRef) : Laws.Named.Statement (.entryFire p) := Laws.Named.of_seq rfl rfl
theorem Laws.Named.write (p : PairRef) (piece : Nat) : Laws.Named.Statement (.write p piece) := Laws.Named.of_seq rfl rfl
theorem Laws.Named.wred (p : PairRef) (piece : Nat) : Laws.Named.Statement (.wred p piece) := Laws.Named.of_seq rfl rfl
theorem Laws.Named.orderedCombine (p : PairRef) : Laws.Named.Statement (.orderedCombine p) := Laws.Named.of_seq rfl rfl
theorem Laws.Named.entryRetire (p : PairRef) : Laws.Named.Statement (.entryRetire p) := Laws.Named.of_seq rfl rfl
theorem Laws.Named.pnb (p : PairRef) : Laws.Named.Statement (.pnb p) := Laws.Named.of_seq rfl rfl
theorem Laws.Named.ruleStart (p : PartNo) (t : Byte) (b : BitVec 10) (u : UnitNo) (k : StrandNo) : Laws.Named.Statement (.ruleStart p t b u k) := Laws.Named.of_seq rfl rfl
theorem Laws.Named.blockCommit (p : PartNo) (t : Byte) (b : BitVec 10) : Laws.Named.Statement (.blockCommit p t b) := Laws.Named.of_seq rfl rfl
theorem Laws.Named.pnNotice (p : PartNo) (t : Byte) : Laws.Named.Statement (.pnNotice p t) := Laws.Named.of_seq rfl rfl
theorem Laws.Named.pnAck (p : PartNo) (t : Byte) : Laws.Named.Statement (.pnAck p t) := Laws.Named.of_seq rfl rfl
theorem Laws.Named.pnDemote (p : PartNo) (t : Byte) : Laws.Named.Statement (.pnDemote p t) := Laws.Named.of_seq rfl rfl
theorem Laws.Named.pnTakeover (p : PartNo) (t : Byte) : Laws.Named.Statement (.pnTakeover p t) := Laws.Named.of_seq rfl rfl
theorem Laws.Named.pnFenced (p : PartNo) (t : Byte) : Laws.Named.Statement (.pnFenced p t) := Laws.Named.of_seq rfl rfl
theorem Laws.Named.stepDeadline (p : PartNo) (t : Byte) (step : BitVec 48) : Laws.Named.Statement (.stepDeadline p t step) := Laws.Named.of_seq rfl rfl
theorem Laws.Named.pncfgEffect (u : UnitNo) (k : StrandNo) : Laws.Named.Statement (.pncfgEffect u k) := Laws.Named.of_seq rfl rfl
theorem Laws.Named.strandEccError (u : UnitNo) (k : StrandNo) (e : StrandErr) : Laws.Named.Statement (.strandEccError u k e) := Laws.Named.of_seq rfl rfl
theorem Laws.Named.coreEccError (u : UnitNo) (e : CoreErr) : Laws.Named.Statement (.coreEccError u e) := Laws.Named.of_seq rfl rfl
theorem Laws.Named.dieLoss (d : BitVec 4) : Laws.Named.Statement (.dieLoss d) := Laws.Named.of_seq rfl rfl
theorem Laws.Named.hostDma (write : Bool) (addr : BitVec 52) (data : List Byte) (stale : List ClusterNo) : Laws.Named.Statement (.hostDma write addr data stale) := Laws.Named.of_seq rfl rfl
theorem Laws.Named.boot (b : BootInfo) : Laws.Named.Statement (.boot b) := Laws.Named.of_seq rfl rfl
theorem Laws.Named.clockStep (x : PowerSample) : Laws.Named.Statement (.clockStep x) := Laws.Named.of_seq rfl rfl
theorem Laws.Named.thermalP2 (hot inlet : Byte) : Laws.Named.Statement (.thermalP2 hot inlet) := Laws.Named.of_seq rfl rfl
theorem Laws.Named.trip (hot : Byte) (lowFlow : Bool) : Laws.Named.Statement (.trip hot lowFlow) := Laws.Named.of_seq rfl rfl
theorem Laws.Named.getVersion : Laws.Named.Statement .getVersion := Laws.Named.of_seq rfl rfl
theorem Laws.Named.getCapabilities : Laws.Named.Statement .getCapabilities := Laws.Named.of_seq rfl rfl
theorem Laws.Named.negotiateAlgorithms (offered : List (BitVec 32)) : Laws.Named.Statement (.negotiateAlgorithms offered) := Laws.Named.of_seq rfl rfl
theorem Laws.Named.getCertificate : Laws.Named.Statement .getCertificate := Laws.Named.of_seq rfl rfl
theorem Laws.Named.challenge (nonce : BitVec 256) : Laws.Named.Statement (.challenge nonce) := Laws.Named.of_seq rfl rfl
theorem Laws.Named.getMeasurements (nonce : BitVec 256) : Laws.Named.Statement (.getMeasurements nonce) := Laws.Named.of_seq rfl rfl
theorem Laws.Named.telemetrySample (watts : BitVec 16) (temps : BitVec 32) (flow : BitVec 16) (dropped : Bool) : Laws.Named.Statement (.telemetrySample watts temps flow dropped) := Laws.Named.of_seq rfl rfl
theorem Laws.Named.pcapWrite (v : BitVec 64) : Laws.Named.Statement (.pcapWrite v) := Laws.Named.of_seq rfl rfl
theorem Laws.Named.mext (v : BitVec 64) : Laws.Named.Statement (.mext v) := Laws.Named.of_seq rfl rfl
theorem Laws.Named.enterP0 (watts : BitVec 16) (heat : Heat) : Laws.Named.Statement (.enterP0 watts heat) := Laws.Named.of_seq rfl rfl
theorem Laws.Named.memoryEccError (e : MemErr) : Laws.Named.Statement (.memoryEccError e) := Laws.Named.of_seq rfl rfl
theorem Laws.Named.clusterEccError (c : ClusterNo) (e : ClusterErr) : Laws.Named.Statement (.clusterEccError c e) := Laws.Named.of_seq rfl rfl
theorem Laws.Named.entryAckTimeout (p : PairRef) (n : BitVec 64) : Laws.Named.Statement (.entryAckTimeout p n) := Laws.Named.of_seq rfl rfl
theorem Laws.Named.launchSlotDispatchTimeout (e : BitVec 10) : Laws.Named.Statement (.launchSlotDispatchTimeout e) := Laws.Named.of_seq rfl rfl
theorem Laws.Named.hostCxlMemAccess (write : Bool) (addr : BitVec 52) (data : List Byte) : Laws.Named.Statement (.hostCxlMemAccess write addr data) := Laws.Named.of_seq rfl rfl

end Sys2Proof
end

