-- ==== Sys2Proof/Tests/Slice0.lean ====
section
/-! SUPPORT. Tests: words written out from the spec's encodings, ill-formed terms, a witness for the hypotheses of each
statement, and a few single steps on small states. -/

namespace Sys2Proof.Tests

set_option Elab.async false

open Sys2Proof Sys2Proof.Machine

/-! ### Decoding: words of the spec's examples, and words written out from Tables 2-1 to 2-3, 2-10 and 2-12 -/

/-- A syllable of three words, and of two, as a number. -/
def x96 (w0 w1 w2 : Nat) : Nat := w2 * 2 ^ 64 + w1 * 2 ^ 32 + w0
def l64 (w0 w1 : Nat) : Nat := w1 * 2 ^ 32 + w0
/-- No guard; register 0. -/
def g0 : Guard := ⟨0, false⟩
def z : Src := .reg 0

theorem test_decode_mov : decodeTableWord 96 (x96 0x08000012 0 5) = some (.mov ⟨.x96, g0, false, 2, z, z, z, 0, 0, 0, 0, 5⟩) := by decide
theorem test_decode_movB : decodeTableWord 96 (x96 0x0400015E 0 0) = some (.movB ⟨.x96, g0, false, 1, z, z, z, 0, 0, 0, 0, 0⟩) := by decide
theorem test_decode_loop : decodeTableWord 96 (x96 0x0010006A 0 0x18) = some (.loop ⟨.x96, g0, false, 0, .reg 2, z, z, 0, 0, 0, 0, 0x18⟩) := by decide
theorem test_decode_add : decodeTableWord 96 (x96 0x0C18001A 0 1) = some (.add ⟨.x96, g0, false, 3, .reg 3, z, z, 0, 0, 0, 0, 1⟩) := by decide
theorem test_decode_addB : decodeTableWord 32 0x0408310C = some (.addB ⟨.s32, g0, false, 1, .reg 1, .reg 3, z, 0, 0, 0, 0, 0⟩) := by decide
theorem test_decode_stG : decodeTableWord 96 (x96 0x00100226 0x00280000 0x10) = some (.stG ⟨.x96, g0, false, 0, .reg 2, z, .reg 5, 0, 0, 0, 0, 0x10⟩) := by decide
theorem test_decode_ldG : decodeTableWord 96 (x96 0x1818021E 0 0x10) = some (.ldG ⟨.x96, g0, false, 6, .reg 3, z, z, 0, 0, 0, 0, 0x10⟩) := by decide
theorem test_decode_viota : decodeTableWord 96 (x96 0x00000756 0 0) = some (.viota ⟨.x96, g0, false, 0, z, z, z, 1, 0, 0, 0, 0⟩) := by decide
theorem test_decode_vcvt : decodeTableWord 64 (l64 0x0400032D 0x00017000) = some (.vcvt ⟨.l64, g0, false, 1, z, z, z, 8, 7, 0, 0, 0⟩) := by decide
theorem test_decode_vfcmplt : decodeTableWord 96 (x96 0x04080B26 0x00010000 0x40800000) = some (.vfcmplt ⟨.x96, g0, false, 1, .reg 1, z, z, 10, 0, 0, 0, 0x40800000⟩) := by decide
theorem test_decode_vcomp : decodeTableWord 64 (l64 0x08083345 0x00080000) = some (.vcomp ⟨.l64, g0, false, 2, .reg 1, .reg 3, .reg 1, 0, 0, 0, 0, 0⟩) := by decide
theorem test_decode_vredsum : decodeTableWord 64 (l64 0x1008033D 0x000A7000) = some (.vredsum ⟨.l64, g0, false, 4, .reg 1, z, .reg 1, 16, 7, 0, 0, 0⟩) := by decide
theorem test_decode_sgrp : decodeTableWord 96 (x96 0x0000027E 0 0x0F) = some (.sgrp ⟨.x96, g0, false, 0, z, z, z, 0, 0, 0, 0, 0x0F⟩) := by decide
theorem test_decode_mighint : decodeTableWord 96 (x96 0x14180286 0x00020000 3) = some (.mighint ⟨.x96, g0, false, 5, .reg 3, z, z, 16, 0, 0, 0, 3⟩) := by decide
theorem test_decode_qpost : decodeTableWord 96 (x96 0x1418029E 0 0x10) = some (.qpost ⟨.x96, g0, false, 5, .reg 3, z, z, 0, 0, 0, 0, 0x10⟩) := by decide
theorem test_decode_qarm : decodeTableWord 96 (x96 0x00280A9E 0 0x10) = some (.qarm ⟨.x96, g0, false, 0, .reg 5, z, z, 2, 0, 0, 0, 0x10⟩) := by decide
theorem test_decode_cntwait : decodeTableWord 96 (x96 0x00080A9E 0x8000 0x11) = some (.cntwait ⟨.x96, g0, false, 0, .reg 1, z, z, 6, 0, 0, 0, 0x11⟩) := by decide
theorem test_decode_cntadd : decodeTableWord 96 (x96 0x0008029E 0x10000 0x10) = some (.cntadd ⟨.x96, g0, false, 0, .reg 1, z, z, 8, 0, 0, 0, 0x10⟩) := by decide
theorem test_decode_pncfg : decodeTableWord 96 (x96 0x081802A6 0 5) = some (.pncfg ⟨.x96, g0, false, 2, .reg 3, z, z, 0, 0, 0, 0, 5⟩) := by decide
theorem test_decode_ppdiv : decodeTableWord 96 (x96 0x00180376 0xF000 0x3F400000) = some (.ppdiv ⟨.x96, g0, false, 0, .reg 3, z, z, 4, 7, 0, 0, 0x3F400000⟩) := by decide
theorem test_decode_pprdst : decodeTableWord 64 (l64 0x10000775 0x10000) = some (.pprdst ⟨.l64, g0, false, 4, z, z, z, 9, 0, 0, 0, 0⟩) := by decide
theorem test_decode_enq : decodeTableWord 96 (x96 0x2C000266 0 0x1F0040) = some (.enq ⟨.x96, g0, false, 11, z, z, z, 0, 0, 0, 0, 0x1F0040⟩) := by decide
theorem test_decode_tlwait : decodeTableWord 96 (x96 0x00580A6E 0 0x20) = some (.tlwait ⟨.x96, g0, false, 0, .reg 11, z, z, 2, 0, 0, 0, 0x20⟩) := by decide
theorem test_decode_statrd : decodeTableWord 64 (l64 0x0C20066D 0x00010000) = some (.statrd ⟨.l64, g0, false, 3, .reg 4, z, z, 9, 0, 0, 0, 0⟩) := by decide
theorem test_decode_bwait : decodeTableWord 96 (x96 0x0000025E 0x8000 7) = some (.bwait ⟨.x96, g0, false, 0, z, z, z, 4, 0, 0, 0, 7⟩) := by decide
/-- The matrix command of the GEMM example: RM 7, and tile, accumulate and release bits in its payload (Table 2-10). -/
theorem test_decode_mma : decodeTableWord 256 (0x9B * 2 ^ 128 + 0x701) = some (.mma ⟨0, 0⟩ ⟨7, false, false, 0, 0, 0, false, 0, 0, 0, 0x9B⟩) := by decide
theorem test_decode_sqest : decodeTableWord 64 0x1050638008000000 = some (.sqest 0 0x050638008000000) := by decide
theorem test_decode_sqsig : decodeTableWord 64 0x7801085000000000 = some (.sqsig 0 0x801085000000000) := by decide
theorem test_decode_sqhold : decodeTableWord 64 0x2050000008000000 = some (.sqhold 0 0x050000008000000) := by decide
/-- The syllable of destination d and sources s1, s2, s3. -/
def q (len : Len) (d : BitVec 6) (s1 s2 s3 : BitVec 6) (form : BitVec 6) (rm : BitVec 3) : Syl :=
  ⟨len, g0, false, d, .reg s1, .reg s2, .reg s3, form, rm, 0, 0, 0⟩

theorem test_words_01 : [decodeTableWord 32 0x0000000C] = [some (.nop (q .s32 0 0 0 0 0 0))] := by decide
theorem test_words_02 : [decodeTableWord 32 0x04003014,
    decodeTableWord 32 0x04003414,
    decodeTableWord 96 (x96 0x04000816 0x00000000 0),
    decodeTableWord 32 0x04003C14,
    decodeTableWord 64 (l64 0x04003015 0x00008000),
    decodeTableWord 64 (l64 0x04003415 0x00008000),
    decodeTableWord 64 (l64 0x04003815 0x00008000),
    decodeTableWord 64 (l64 0x04003C15 0x00008000),
    decodeTableWord 64 (l64 0x04003015 0x00010000),
    decodeTableWord 64 (l64 0x04000415 0x00010000),
    decodeTableWord 64 (l64 0x00003815 0x00010000),
    decodeTableWord 64 (l64 0x04000C15 0x00010000),
    decodeTableWord 96 (x96 0x04000016 0x00018000 0)] = [some (.mov (q .s32 1 0 3 0 0 0)),
    some (.mova (q .s32 1 0 3 0 1 0)),
    some (.movha (q .x96 1 0 0 0 2 0)),
    some (.sxw (q .s32 1 0 3 0 3 0)),
    some (.zxw (q .l64 1 0 3 0 4 0)),
    some (.movaw (q .l64 1 0 3 0 5 0)),
    some (.movawh (q .l64 1 0 3 0 6 0)),
    some (.movpw (q .l64 1 0 3 0 7 0)),
    some (.movwp (q .l64 1 0 3 0 8 0)),
    some (.rdp (q .l64 1 0 0 0 9 0)),
    some (.wrp (q .l64 0 0 3 0 10 0)),
    some (.movrep (q .l64 1 0 0 0 11 0)),
    some (.lea (q .x96 1 0 0 0 12 0))] := by decide
theorem test_words_03 : [decodeTableWord 32 0x0410301C,
    decodeTableWord 32 0x0410341C,
    decodeTableWord 32 0x0410381C,
    decodeTableWord 32 0x04103C1C,
    decodeTableWord 64 (l64 0x0410301D 0x00008000),
    decodeTableWord 64 (l64 0x0410041D 0x00008000)] = [some (.add (q .s32 1 2 3 0 0 0)),
    some (.sub (q .s32 1 2 3 0 1 0)),
    some (.min (q .s32 1 2 3 0 2 0)),
    some (.max (q .s32 1 2 3 0 3 0)),
    some (.absd (q .l64 1 2 3 0 4 0)),
    some (.abs (q .l64 1 2 0 0 5 0))] := by decide
theorem test_words_04 : [decodeTableWord 32 0x04103024,
    decodeTableWord 32 0x04103424,
    decodeTableWord 64 (l64 0x04103825 0x00200000)] = [some (.mul (q .s32 1 2 3 0 0 0)),
    some (.mulh (q .s32 1 2 3 0 1 0)),
    some (.mad (q .l64 1 2 3 4 2 0))] := by decide
theorem test_words_05 : [decodeTableWord 32 0x0410302C,
    decodeTableWord 32 0x0410342C,
    decodeTableWord 32 0x0410382C,
    decodeTableWord 32 0x04103C2C,
    decodeTableWord 64 (l64 0x0410002D 0x00008000)] = [some (.and (q .s32 1 2 3 0 0 0)),
    some (.or (q .s32 1 2 3 0 1 0)),
    some (.xor (q .s32 1 2 3 0 2 0)),
    some (.andn (q .s32 1 2 3 0 3 0)),
    some (.not (q .l64 1 2 0 0 4 0))] := by decide
theorem test_words_06 : [decodeTableWord 32 0x04103034,
    decodeTableWord 32 0x04103434,
    decodeTableWord 32 0x04103834,
    decodeTableWord 32 0x04103C34] = [some (.shl (q .s32 1 2 3 0 0 0)),
    some (.shr (q .s32 1 2 3 0 1 0)),
    some (.rol (q .s32 1 2 3 0 2 0)),
    some (.ror (q .s32 1 2 3 0 3 0))] := by decide
theorem test_words_07 : [decodeTableWord 32 0x0410303C,
    decodeTableWord 32 0x0410343C,
    decodeTableWord 32 0x0410083C,
    decodeTableWord 32 0x04100C3C,
    decodeTableWord 64 (l64 0x0410003D 0x00008000),
    decodeTableWord 64 (l64 0x0410043D 0x00008000)] = [some (.ext (q .s32 1 2 3 0 0 0)),
    some (.ins (q .s32 1 2 3 0 1 0)),
    some (.clz (q .s32 1 2 0 0 2 0)),
    some (.ctz (q .s32 1 2 0 0 3 0)),
    some (.popc (q .l64 1 2 0 0 4 0)),
    some (.brev (q .l64 1 2 0 0 5 0))] := by decide
theorem test_words_08 : [decodeTableWord 32 0x04103044,
    decodeTableWord 32 0x04103444,
    decodeTableWord 32 0x04103844,
    decodeTableWord 32 0x04103C44,
    decodeTableWord 64 (l64 0x04103045 0x00208000),
    decodeTableWord 64 (l64 0x04103445 0x00208000),
    decodeTableWord 64 (l64 0x04103845 0x00208000)] = [some (.cmpeq (q .s32 1 2 3 0 0 0)),
    some (.cmpne (q .s32 1 2 3 0 1 0)),
    some (.cmplt (q .s32 1 2 3 0 2 0)),
    some (.cmple (q .s32 1 2 3 0 3 0)),
    some (.cmpgt (q .l64 1 2 3 4 4 0)),
    some (.cmpge (q .l64 1 2 3 4 5 0)),
    some (.test (q .l64 1 2 3 4 6 0))] := by decide
theorem test_words_09 : [decodeTableWord 32 0x0410304C,
    decodeTableWord 32 0x0410344C,
    decodeTableWord 32 0x0410384C,
    decodeTableWord 32 0x04103C4C,
    decodeTableWord 64 (l64 0x0410004D 0x00008000)] = [some (.pand (q .s32 1 2 3 0 0 0)),
    some (.por (q .s32 1 2 3 0 1 0)),
    some (.pxor (q .s32 1 2 3 0 2 0)),
    some (.pandn (q .s32 1 2 3 0 3 0)),
    some (.pnot (q .l64 1 2 0 0 4 0))] := by decide
theorem test_words_0A : [decodeTableWord 32 0x04103054,
    decodeTableWord 32 0x04103454,
    decodeTableWord 32 0x04103854,
    decodeTableWord 64 (l64 0x04103C55 0x00010000),
    decodeTableWord 64 (l64 0x04103055 0x00218000),
    decodeTableWord 64 (l64 0x04103455 0x00218000),
    decodeTableWord 64 (l64 0x04103855 0x00218000),
    decodeTableWord 64 (l64 0x04103C55 0x00218000)] = [some (.aadd (q .s32 1 2 3 0 0 0)),
    some (.asub (q .s32 1 2 3 0 1 0)),
    some (.aidx (q .s32 1 2 3 0 2 0)),
    some (.aand (q .l64 1 2 3 0 11 0)),
    some (.acmpeq (q .l64 1 2 3 4 12 0)),
    some (.acmpne (q .l64 1 2 3 4 13 0)),
    some (.acmplt (q .l64 1 2 3 4 14 0)),
    some (.acmpge (q .l64 1 2 3 4 15 0))] := by decide
theorem test_words_0B : [decodeTableWord 96 (x96 0x0000005E 0x00000000 0)] = [some (.br (q .x96 0 0 0 0 0 0))] := by decide
theorem test_words_0C : [decodeTableWord 96 (x96 0x04000066 0x00000000 0),
    decodeTableWord 32 0x04100464,
    decodeTableWord 32 0x00100864] = [some (.call (q .x96 1 0 0 0 0 0)),
    some (.callr (q .s32 1 2 0 0 1 0)),
    some (.jr (q .s32 0 2 0 0 2 0))] := by decide
theorem test_words_0D : [decodeTableWord 96 (x96 0x0410006E 0x00000000 0)] = [some (.loop (q .x96 1 2 0 0 0 0))] := by decide
theorem test_words_0E : [decodeTableWord 32 0x00100074] = [some (.rep (q .s32 0 2 0 0 0 0))] := by decide
theorem test_words_0F : [decodeTableWord 32 0x0000007C,
    decodeTableWord 32 0x0000047C,
    decodeTableWord 32 0x0000087C,
    decodeTableWord 32 0x00100C7C] = [some (.yield (q .s32 0 0 0 0 0 0)),
    some (.halt (q .s32 0 0 0 0 1 0)),
    some (.exit (q .s32 0 0 0 0 2 0)),
    some (.exitStatus (q .s32 0 2 0 0 3 0))] := by decide
theorem test_words_21 : [decodeTableWord 32 0x0410310C,
    decodeTableWord 32 0x0410350C,
    decodeTableWord 32 0x0410390C,
    decodeTableWord 32 0x04103D0C,
    decodeTableWord 64 (l64 0x0410310D 0x00008000),
    decodeTableWord 64 (l64 0x0410050D 0x00008000)] = [some (.addB (q .s32 1 2 3 0 0 0)),
    some (.subB (q .s32 1 2 3 0 1 0)),
    some (.minB (q .s32 1 2 3 0 2 0)),
    some (.maxB (q .s32 1 2 3 0 3 0)),
    some (.absdB (q .l64 1 2 3 0 4 0)),
    some (.absB (q .l64 1 2 0 0 5 0))] := by decide
theorem test_words_22 : [decodeTableWord 32 0x04103114,
    decodeTableWord 32 0x04103514,
    decodeTableWord 64 (l64 0x04103915 0x00200000)] = [some (.mulB (q .s32 1 2 3 0 0 0)),
    some (.mulhB (q .s32 1 2 3 0 1 0)),
    some (.madB (q .l64 1 2 3 4 2 0))] := by decide
theorem test_words_23 : [decodeTableWord 32 0x0410311C,
    decodeTableWord 32 0x0410351C,
    decodeTableWord 32 0x0410391C,
    decodeTableWord 32 0x04103D1C,
    decodeTableWord 64 (l64 0x0410011D 0x00008000)] = [some (.andB (q .s32 1 2 3 0 0 0)),
    some (.orB (q .s32 1 2 3 0 1 0)),
    some (.xorB (q .s32 1 2 3 0 2 0)),
    some (.andnB (q .s32 1 2 3 0 3 0)),
    some (.notB (q .l64 1 2 0 0 4 0))] := by decide
theorem test_words_24 : [decodeTableWord 32 0x04103124,
    decodeTableWord 32 0x04103524,
    decodeTableWord 32 0x04103924,
    decodeTableWord 32 0x04103D24] = [some (.shlB (q .s32 1 2 3 0 0 0)),
    some (.shrB (q .s32 1 2 3 0 1 0)),
    some (.rolB (q .s32 1 2 3 0 2 0)),
    some (.rorB (q .s32 1 2 3 0 3 0))] := by decide
theorem test_words_25 : [decodeTableWord 32 0x0410312C,
    decodeTableWord 32 0x0410352C,
    decodeTableWord 32 0x0410392C,
    decodeTableWord 32 0x04103D2C,
    decodeTableWord 64 (l64 0x0410312D 0x00208000),
    decodeTableWord 64 (l64 0x0410352D 0x00208000),
    decodeTableWord 64 (l64 0x0410392D 0x00208000)] = [some (.cmpeqB (q .s32 1 2 3 0 0 0)),
    some (.cmpneB (q .s32 1 2 3 0 1 0)),
    some (.cmpltB (q .s32 1 2 3 0 2 0)),
    some (.cmpleB (q .s32 1 2 3 0 3 0)),
    some (.cmpgtB (q .l64 1 2 3 4 4 0)),
    some (.cmpgeB (q .l64 1 2 3 4 5 0)),
    some (.testB (q .l64 1 2 3 4 6 0))] := by decide
theorem test_words_26 : [decodeTableWord 32 0x04103134,
    decodeTableWord 32 0x04103534,
    decodeTableWord 32 0x04103934,
    decodeTableWord 32 0x04100D34,
    decodeTableWord 64 (l64 0x04100135 0x00008000)] = [some (.fadd (q .s32 1 2 3 0 0 7)),
    some (.fsub (q .s32 1 2 3 0 1 7)),
    some (.fmul (q .s32 1 2 3 0 2 7)),
    some (.fabs (q .s32 1 2 0 0 3 0)),
    some (.fneg (q .l64 1 2 0 0 4 0))] := by decide
theorem test_words_27 : [decodeTableWord 64 (l64 0x0410313D 0x00207000),
    decodeTableWord 64 (l64 0x0410353D 0x00207000),
    decodeTableWord 64 (l64 0x0410393D 0x00207000),
    decodeTableWord 64 (l64 0x04103D3D 0x00207000)] = [some (.fma (q .l64 1 2 3 4 0 7)),
    some (.fms (q .l64 1 2 3 4 1 7)),
    some (.fnma (q .l64 1 2 3 4 2 7)),
    some (.fnms (q .l64 1 2 3 4 3 7))] := by decide
theorem test_words_28 : [decodeTableWord 32 0x04103144,
    decodeTableWord 32 0x04103544,
    decodeTableWord 32 0x04103944,
    decodeTableWord 32 0x04103D44,
    decodeTableWord 64 (l64 0x04103145 0x00208000),
    decodeTableWord 64 (l64 0x04103545 0x00208000),
    decodeTableWord 64 (l64 0x04103945 0x00008000),
    decodeTableWord 64 (l64 0x04103D45 0x00008000)] = [some (.fcmpeq (q .s32 1 2 3 0 0 0)),
    some (.fcmpne (q .s32 1 2 3 0 1 0)),
    some (.fcmplt (q .s32 1 2 3 0 2 0)),
    some (.fcmple (q .s32 1 2 3 0 3 0)),
    some (.fcmpgt (q .l64 1 2 3 4 4 0)),
    some (.fcmpge (q .l64 1 2 3 4 5 0)),
    some (.fmin (q .l64 1 2 3 0 6 0)),
    some (.fmax (q .l64 1 2 3 0 7 0))] := by decide
theorem test_words_2A : [decodeTableWord 32 0x04100154,
    decodeTableWord 32 0x04100554] = [some (.frcp (q .s32 1 2 0 0 0 0)),
    some (.frsq (q .s32 1 2 0 0 1 0))] := by decide
theorem test_words_2B : [decodeTableWord 32 0x0400315C,
    decodeTableWord 64 (l64 0x0410355D 0x00200000)] = [some (.movB (q .s32 1 0 3 0 0 0)),
    some (.sel (q .l64 1 2 3 4 1 0))] := by decide
theorem test_words_41 : [decodeTableWord 32 0x0410020C,
    decodeTableWord 32 0x04100A0C] = [some (.ldL (q .s32 1 2 0 0 0 0)),
    some (.ldAcqL (q .s32 1 2 0 0 2 0))] := by decide
theorem test_words_42 : [decodeTableWord 64 (l64 0x00100215 0x00200000),
    decodeTableWord 64 (l64 0x00100A15 0x00200000)] = [some (.stL (q .l64 0 2 0 4 0 0)),
    some (.stRelL (q .l64 0 2 0 4 2 0))] := by decide
theorem test_words_43 : [decodeTableWord 32 0x0410021C,
    decodeTableWord 32 0x04100A1C] = [some (.ldG (q .s32 1 2 0 0 0 0)),
    some (.ldAcqG (q .s32 1 2 0 0 2 0))] := by decide
theorem test_words_44 : [decodeTableWord 64 (l64 0x00100225 0x00200000),
    decodeTableWord 64 (l64 0x00100A25 0x00200000)] = [some (.stG (q .l64 0 2 0 4 0 0)),
    some (.stRelG (q .l64 0 2 0 4 2 0))] := by decide
theorem test_words_45 : [decodeTableWord 32 0x0010022C,
    decodeTableWord 32 0x0010062C,
    decodeTableWord 32 0x00100A2C] = [some (.prefG (q .s32 0 2 0 0 0 0)),
    some (.prefwG (q .s32 0 2 0 0 1 0)),
    some (.prefL (q .s32 0 2 0 0 2 0))] := by decide
theorem test_words_46 : [decodeTableWord 32 0x00000234,
    decodeTableWord 32 0x00000634,
    decodeTableWord 32 0x00000A34,
    decodeTableWord 32 0x00000E34,
    decodeTableWord 64 (l64 0x00000235 0x00008000),
    decodeTableWord 64 (l64 0x00000635 0x00008000)] = [some (.qalign (q .s32 0 0 0 0 0 0)),
    some (.fenceCore (q .s32 0 0 0 0 1 0)),
    some (.fenceClus (q .s32 0 0 0 0 2 0)),
    some (.fenceDie (q .s32 0 0 0 0 3 0)),
    some (.fencePkg (q .l64 0 0 0 0 4 0)),
    some (.fencePod (q .l64 0 0 0 0 5 0))] := by decide
theorem test_words_47 : [decodeTableWord 64 (l64 0x0410023D 0x00200000),
    decodeTableWord 64 (l64 0x0410063D 0x00200000),
    decodeTableWord 64 (l64 0x04100A3D 0x00200000),
    decodeTableWord 64 (l64 0x04100E3D 0x00200000),
    decodeTableWord 64 (l64 0x0410023D 0x00208000),
    decodeTableWord 64 (l64 0x0410063D 0x00208000),
    decodeTableWord 64 (l64 0x04100A3D 0x00208000),
    decodeTableWord 64 (l64 0x04103E3D 0x00208000),
    decodeTableWord 64 (l64 0x0410023D 0x0021F000),
    decodeTableWord 64 (l64 0x0010023D 0x00240000),
    decodeTableWord 64 (l64 0x0010063D 0x00240000),
    decodeTableWord 64 (l64 0x00100A3D 0x00240000),
    decodeTableWord 64 (l64 0x00100E3D 0x00240000),
    decodeTableWord 64 (l64 0x0010023D 0x00248000),
    decodeTableWord 64 (l64 0x0010063D 0x00248000),
    decodeTableWord 64 (l64 0x0010023D 0x0025F000)] = [some (.atomAdd (q .l64 1 2 0 4 0 0)),
    some (.atomAnd (q .l64 1 2 0 4 1 0)),
    some (.atomOr (q .l64 1 2 0 4 2 0)),
    some (.atomXor (q .l64 1 2 0 4 3 0)),
    some (.atomMin (q .l64 1 2 0 4 4 0)),
    some (.atomMax (q .l64 1 2 0 4 5 0)),
    some (.atomSwp (q .l64 1 2 0 4 6 0)),
    some (.atomCas (q .l64 1 2 3 4 7 0)),
    some (.atomFadd (q .l64 1 2 0 4 12 7)),
    some (.redAdd (q .l64 0 2 0 4 32 0)),
    some (.redAnd (q .l64 0 2 0 4 33 0)),
    some (.redOr (q .l64 0 2 0 4 34 0)),
    some (.redXor (q .l64 0 2 0 4 35 0)),
    some (.redMin (q .l64 0 2 0 4 36 0)),
    some (.redMax (q .l64 0 2 0 4 37 0)),
    some (.redFadd (q .l64 0 2 0 4 44 7))] := by decide
theorem test_words_48 : [decodeTableWord 32 0x00000244,
    decodeTableWord 32 0x00000644,
    decodeTableWord 32 0x04000A44,
    decodeTableWord 32 0x04000E44,
    decodeTableWord 96 (x96 0x04000246 0x00008000 0),
    decodeTableWord 96 (x96 0x00100A46 0x00008000 0),
    decodeTableWord 64 (l64 0x04000245 0x00010000),
    decodeTableWord 64 (l64 0x04003645 0x00010000),
    decodeTableWord 64 (l64 0x04003A45 0x00010000),
    decodeTableWord 64 (l64 0x04100E45 0x00010000)] = [some (.trap (q .s32 0 0 0 0 0 0)),
    some (.rett (q .s32 0 0 0 0 1 0)),
    some (.rdtime (q .s32 1 0 0 0 2 0)),
    some (.rdcyc (q .s32 1 0 0 0 3 0)),
    some (.rdsr (q .x96 1 0 0 0 4 0)),
    some (.wrsr (q .x96 0 2 0 0 6 0)),
    some (.rdwid (q .l64 1 0 0 0 8 0)),
    some (.rdwf (q .l64 1 0 3 0 9 0)),
    some (.rdwfl (q .l64 1 0 3 0 10 0)),
    some (.locq (q .l64 1 2 0 0 11 0))] := by decide
theorem test_words_49 : [decodeTableWord 32 0x0010024C,
    decodeTableWord 32 0x0010364C,
    decodeTableWord 32 0x00103A4C] = [some (.sleepto (q .s32 0 2 0 0 0 0)),
    some (.sleeptoCp0 (q .s32 0 2 3 0 1 0)),
    some (.sleeptoCp1 (q .s32 0 2 3 0 2 0))] := by decide
theorem test_words_4A : [decodeTableWord 96 (x96 0x00000256 0x00000000 0),
    decodeTableWord 96 (x96 0x00000A56 0x00000000 0)] = [some (.regsync (q .x96 0 0 0 0 0 0)),
    some (.reginv (q .x96 0 0 0 0 2 0))] := by decide
theorem test_words_4B : [decodeTableWord 96 (x96 0x0000025E 0x00000000 0),
    decodeTableWord 96 (x96 0x00000A5E 0x00000000 0),
    decodeTableWord 96 (x96 0x0000025E 0x00008000 0),
    decodeTableWord 96 (x96 0x04000A5E 0x00008000 0),
    decodeTableWord 96 (x96 0x0400025E 0x00010000 0)] = [some (.binit (q .x96 0 0 0 0 0 0)),
    some (.barr (q .x96 0 0 0 0 2 0)),
    some (.bwait (q .x96 0 0 0 0 4 0)),
    some (.btest (q .x96 1 0 0 0 6 0)),
    some (.brd (q .x96 1 0 0 0 8 0))] := by decide
theorem test_words_4C : [decodeTableWord 96 (x96 0x04000266 0x00000000 0),
    decodeTableWord 96 (x96 0x04000266 0x00010000 0)] = [some (.enq (q .x96 1 0 0 0 0 0)),
    some (.enqp (q .x96 1 0 0 0 8 0))] := by decide
theorem test_words_4D : [decodeTableWord 96 (x96 0x0400026E 0x00000000 0),
    decodeTableWord 96 (x96 0x00100A6E 0x00000000 0),
    decodeTableWord 96 (x96 0x0400026E 0x00008000 0),
    decodeTableWord 96 (x96 0x04000A6E 0x00008000 0),
    decodeTableWord 64 (l64 0x0410026D 0x00010000),
    decodeTableWord 64 (l64 0x04100A6D 0x00010000)] = [some (.tlrd (q .x96 1 0 0 0 0 0)),
    some (.tlwait (q .x96 0 2 0 0 2 0)),
    some (.tlflt (q .x96 1 0 0 0 4 0)),
    some (.tlfltc (q .x96 1 0 0 0 6 0)),
    some (.statrd (q .l64 1 2 0 0 8 0)),
    some (.statrdc (q .l64 1 2 0 0 10 0))] := by decide
theorem test_words_4E : [decodeTableWord 32 0x00100274,
    decodeTableWord 32 0x00003674] = [some (.vwin (q .s32 0 2 0 0 0 0)),
    some (.vwinReg (q .s32 0 0 3 0 1 0))] := by decide
theorem test_words_4F : [decodeTableWord 96 (x96 0x0000027E 0x00000000 0),
    decodeTableWord 32 0x00000A7C,
    decodeTableWord 32 0x00000E7C,
    decodeTableWord 64 (l64 0x0400027D 0x00008000)] = [some (.sgrp (q .x96 0 0 0 0 0 0)),
    some (.sgleave (q .s32 0 0 0 0 2 0)),
    some (.sgsync (q .s32 0 0 0 0 3 0)),
    some (.sgrd (q .l64 1 0 0 0 4 0))] := by decide
theorem test_words_50 : [decodeTableWord 32 0x04103284,
    decodeTableWord 32 0x04100684,
    decodeTableWord 32 0x04000A84,
    decodeTableWord 32 0x00100E84,
    decodeTableWord 64 (l64 0x04100285 0x00008000),
    decodeTableWord 64 (l64 0x04100685 0x00008000),
    decodeTableWord 64 (l64 0x04100A85 0x00008000),
    decodeTableWord 64 (l64 0x00100285 0x00010000),
    decodeTableWord 64 (l64 0x04000A85 0x00010000),
    decodeTableWord 96 (x96 0x04100286 0x00020000 0)] = [some (.tlbinvVa (q .s32 1 2 3 0 0 0)),
    some (.tlbinvTbl (q .s32 1 2 0 0 1 0)),
    some (.tlbinvAll (q .s32 1 0 0 0 2 0)),
    some (.tlbwait (q .s32 0 2 0 0 3 0)),
    some (.xlat (q .l64 1 2 0 0 4 0)),
    some (.xlatW (q .l64 1 2 0 0 5 0)),
    some (.xlatX (q .l64 1 2 0 0 6 0)),
    some (.wpkr (q .l64 0 2 0 0 8 0)),
    some (.rpkr (q .l64 1 0 0 0 10 0)),
    some (.mighint (q .x96 1 2 0 0 16 0))] := by decide
theorem test_words_51 : [decodeTableWord 96 (x96 0x0400028E 0x00000000 0),
    decodeTableWord 96 (x96 0x0400028E 0x00008000 0)] = [some (.circwait (q .x96 1 0 0 0 0 0)),
    some (.circq (q .x96 1 0 0 0 4 0))] := by decide
theorem test_words_52 : [decodeTableWord 32 0x04100294,
    decodeTableWord 32 0x04100A94] = [some (.launch (q .s32 1 2 0 0 0 0)),
    some (.lnstat (q .s32 1 2 0 0 2 0))] := by decide
theorem test_words_53 : [decodeTableWord 96 (x96 0x0410029E 0x00000000 0),
    decodeTableWord 96 (x96 0x00100A9E 0x00000000 0),
    decodeTableWord 96 (x96 0x0400029E 0x00008000 0),
    decodeTableWord 96 (x96 0x00100A9E 0x00008000 0),
    decodeTableWord 96 (x96 0x0010029E 0x00010000 0)] = [some (.qpost (q .x96 1 2 0 0 0 0)),
    some (.qarm (q .x96 0 2 0 0 2 0)),
    some (.cntrd (q .x96 1 0 0 0 4 0)),
    some (.cntwait (q .x96 0 2 0 0 6 0)),
    some (.cntadd (q .x96 0 2 0 0 8 0))] := by decide
theorem test_words_54 : [decodeTableWord 96 (x96 0x041002A6 0x00000000 0),
    decodeTableWord 96 (x96 0x04000AA6 0x00000000 0)] = [some (.pncfg (q .x96 1 2 0 0 0 0)),
    some (.pnstat (q .x96 1 0 0 0 2 0))] := by decide
theorem test_words_61 : [decodeTableWord 32 0x0410330C,
    decodeTableWord 32 0x0410370C,
    decodeTableWord 32 0x04103B0C,
    decodeTableWord 32 0x04100F0C,
    decodeTableWord 64 (l64 0x0410330D 0x0020F000),
    decodeTableWord 64 (l64 0x0410370D 0x0020F000),
    decodeTableWord 64 (l64 0x04103B0D 0x0020F000),
    decodeTableWord 64 (l64 0x04103F0D 0x0020F000),
    decodeTableWord 64 (l64 0x0410330D 0x00010000),
    decodeTableWord 64 (l64 0x0410370D 0x00010000),
    decodeTableWord 64 (l64 0x04100B0D 0x00010000)] = [some (.vfadd (q .s32 1 2 3 0 0 7)),
    some (.vfsub (q .s32 1 2 3 0 1 7)),
    some (.vfmul (q .s32 1 2 3 0 2 7)),
    some (.vfabs (q .s32 1 2 0 0 3 0)),
    some (.vfma (q .l64 1 2 3 4 4 7)),
    some (.vfms (q .l64 1 2 3 4 5 7)),
    some (.vfnma (q .l64 1 2 3 4 6 7)),
    some (.vfnms (q .l64 1 2 3 4 7 7)),
    some (.vfmin (q .l64 1 2 3 0 8 0)),
    some (.vfmax (q .l64 1 2 3 0 9 0)),
    some (.vfneg (q .l64 1 2 0 0 10 0))] := by decide
theorem test_words_62 : [decodeTableWord 32 0x04103314,
    decodeTableWord 32 0x04103714,
    decodeTableWord 32 0x04103B14,
    decodeTableWord 32 0x04103F14,
    decodeTableWord 64 (l64 0x04103315 0x00008000),
    decodeTableWord 64 (l64 0x04103715 0x00008000),
    decodeTableWord 64 (l64 0x04103B15 0x00208000),
    decodeTableWord 64 (l64 0x04103F15 0x00008000),
    decodeTableWord 64 (l64 0x04100315 0x00010000)] = [some (.vadd (q .s32 1 2 3 0 0 0)),
    some (.vsub (q .s32 1 2 3 0 1 0)),
    some (.vmin (q .s32 1 2 3 0 2 0)),
    some (.vmax (q .s32 1 2 3 0 3 0)),
    some (.vmul (q .l64 1 2 3 0 4 0)),
    some (.vmulh (q .l64 1 2 3 0 5 0)),
    some (.vmad (q .l64 1 2 3 4 6 0)),
    some (.vabsd (q .l64 1 2 3 0 7 0)),
    some (.vabs (q .l64 1 2 0 0 8 0))] := by decide
theorem test_words_63 : [decodeTableWord 32 0x0410331C,
    decodeTableWord 32 0x0410371C,
    decodeTableWord 32 0x04103B1C,
    decodeTableWord 32 0x04103F1C,
    decodeTableWord 64 (l64 0x0410031D 0x00008000),
    decodeTableWord 64 (l64 0x0410371D 0x00008000),
    decodeTableWord 64 (l64 0x04103B1D 0x00008000),
    decodeTableWord 64 (l64 0x04103F1D 0x00008000),
    decodeTableWord 64 (l64 0x0410331D 0x00010000)] = [some (.vand (q .s32 1 2 3 0 0 0)),
    some (.vor (q .s32 1 2 3 0 1 0)),
    some (.vxor (q .s32 1 2 3 0 2 0)),
    some (.vandn (q .s32 1 2 3 0 3 0)),
    some (.vnot (q .l64 1 2 0 0 4 0)),
    some (.vshl (q .l64 1 2 3 0 5 0)),
    some (.vshr (q .l64 1 2 3 0 6 0)),
    some (.vrol (q .l64 1 2 3 0 7 0)),
    some (.vror (q .l64 1 2 3 0 8 0))] := by decide
theorem test_words_64 : [decodeTableWord 32 0x04103324,
    decodeTableWord 32 0x04103724,
    decodeTableWord 32 0x04103B24,
    decodeTableWord 32 0x04103F24,
    decodeTableWord 64 (l64 0x04103325 0x00008000),
    decodeTableWord 64 (l64 0x04103725 0x00008000),
    decodeTableWord 64 (l64 0x04103B25 0x00008000),
    decodeTableWord 64 (l64 0x04103325 0x00010000),
    decodeTableWord 64 (l64 0x04103725 0x00010000),
    decodeTableWord 64 (l64 0x04103B25 0x00010000),
    decodeTableWord 64 (l64 0x04103F25 0x00010000),
    decodeTableWord 64 (l64 0x04103325 0x00018000),
    decodeTableWord 64 (l64 0x04103725 0x00018000),
    decodeTableWord 64 (l64 0x04103325 0x00240000)] = [some (.vcmpeq (q .s32 1 2 3 0 0 0)),
    some (.vcmpne (q .s32 1 2 3 0 1 0)),
    some (.vcmplt (q .s32 1 2 3 0 2 0)),
    some (.vcmple (q .s32 1 2 3 0 3 0)),
    some (.vcmpgt (q .l64 1 2 3 0 4 0)),
    some (.vcmpge (q .l64 1 2 3 0 5 0)),
    some (.vtest (q .l64 1 2 3 0 6 0)),
    some (.vfcmpeq (q .l64 1 2 3 0 8 0)),
    some (.vfcmpne (q .l64 1 2 3 0 9 0)),
    some (.vfcmplt (q .l64 1 2 3 0 10 0)),
    some (.vfcmple (q .l64 1 2 3 0 11 0)),
    some (.vfcmpgt (q .l64 1 2 3 0 12 0)),
    some (.vfcmpge (q .l64 1 2 3 0 13 0)),
    some (.vsel (q .l64 1 2 3 4 32 0))] := by decide
theorem test_words_66 : [decodeTableWord 32 0x04100334,
    decodeTableWord 32 0x04100734,
    decodeTableWord 32 0x04100B34,
    decodeTableWord 32 0x04100F34,
    decodeTableWord 64 (l64 0x04100335 0x00008000)] = [some (.vrcp (q .s32 1 2 0 0 0 0)),
    some (.vrsq (q .s32 1 2 0 0 1 0)),
    some (.vexp2 (q .s32 1 2 0 0 2 0)),
    some (.vlog2 (q .s32 1 2 0 0 3 0)),
    some (.vtanh (q .l64 1 2 0 0 4 0))] := by decide
theorem test_words_67 : [decodeTableWord 32 0x0410033C,
    decodeTableWord 32 0x0410073C,
    decodeTableWord 32 0x04100B3C,
    decodeTableWord 64 (l64 0x0410033D 0x00017000),
    decodeTableWord 64 (l64 0x0410073D 0x00010000),
    decodeTableWord 64 (l64 0x04100B3D 0x00010000)] = [some (.vredsum (q .s32 1 2 0 0 0 7)),
    some (.vredmin (q .s32 1 2 0 0 1 0)),
    some (.vredmax (q .s32 1 2 0 0 2 0)),
    some (.vscansum (q .l64 1 2 0 0 8 7)),
    some (.vscanmin (q .l64 1 2 0 0 9 0)),
    some (.vscanmax (q .l64 1 2 0 0 10 0))] := by decide
theorem test_words_68 : [decodeTableWord 64 (l64 0x04103345 0x00200000),
    decodeTableWord 64 (l64 0x04100745 0x00200000)] = [some (.vcomp (q .l64 1 2 3 4 0 0)),
    some (.vexpd (q .l64 1 2 0 4 1 0))] := by decide
theorem test_words_69 : [decodeTableWord 32 0x0410334C,
    decodeTableWord 32 0x0410374C,
    decodeTableWord 32 0x04103B4C,
    decodeTableWord 32 0x04103F4C,
    decodeTableWord 64 (l64 0x0410334D 0x00008000),
    decodeTableWord 64 (l64 0x0410374D 0x00008000)] = [some (.vperm (q .s32 1 2 3 0 0 0)),
    some (.vrotr (q .s32 1 2 3 0 1 0)),
    some (.vzipl (q .s32 1 2 3 0 2 0)),
    some (.vziph (q .s32 1 2 3 0 3 0)),
    some (.vuzpe (q .l64 1 2 3 0 4 0)),
    some (.vuzpo (q .l64 1 2 3 0 5 0))] := by decide
theorem test_words_6A : [decodeTableWord 32 0x04003354,
    decodeTableWord 32 0x04003754,
    decodeTableWord 64 (l64 0x04103B55 0x00200000)] = [some (.vsplat (q .s32 1 0 3 0 0 0)),
    some (.viota (q .s32 1 0 3 0 1 0)),
    some (.vrand (q .l64 1 2 3 4 2 0))] := by decide
theorem test_words_6B : [decodeTableWord 32 0x0410035C,
    decodeTableWord 64 (l64 0x0010075D 0x00200000),
    decodeTableWord 64 (l64 0x00103B5D 0x00200000)] = [some (.vld (q .s32 1 2 0 0 0 0)),
    some (.vst (q .l64 0 2 0 4 1 0)),
    some (.vstm (q .l64 0 2 3 4 2 0))] := by decide
theorem test_words_6C : [decodeTableWord 32 0x04103364,
    decodeTableWord 64 (l64 0x04103765 0x00000000),
    decodeTableWord 32 0x04003B64] = [some (.vext (q .s32 1 2 3 0 0 0)),
    some (.vins (q .l64 1 2 3 0 1 0)),
    some (.vmov (q .s32 1 0 3 0 2 0))] := by decide
theorem test_words_6D : [decodeTableWord 32 0x0410336C,
    decodeTableWord 32 0x0410376C,
    decodeTableWord 32 0x04103B6C,
    decodeTableWord 32 0x04103F6C,
    decodeTableWord 64 (l64 0x0410036D 0x00008000),
    decodeTableWord 64 (l64 0x0400376D 0x00008000),
    decodeTableWord 64 (l64 0x04100B6D 0x00008000)] = [some (.mand (q .s32 1 2 3 0 0 0)),
    some (.mor (q .s32 1 2 3 0 1 0)),
    some (.mxor (q .s32 1 2 3 0 2 0)),
    some (.mandn (q .s32 1 2 3 0 3 0)),
    some (.mnot (q .l64 1 2 0 0 4 0)),
    some (.mfirst (q .l64 1 0 3 0 5 0)),
    some (.mcnt (q .l64 1 2 0 0 6 0))] := by decide
theorem test_words_6E : [decodeTableWord 32 0x04003374,
    decodeTableWord 32 0x04003774,
    decodeTableWord 32 0x04103B74,
    decodeTableWord 64 (l64 0x04103F75 0x00207000),
    decodeTableWord 64 (l64 0x04103375 0x0000F000),
    decodeTableWord 64 (l64 0x04100775 0x0000F000),
    decodeTableWord 64 (l64 0x04003B75 0x00008000),
    decodeTableWord 64 (l64 0x04100F75 0x00008000),
    decodeTableWord 64 (l64 0x04100375 0x00010000),
    decodeTableWord 64 (l64 0x04100775 0x00010000),
    decodeTableWord 64 (l64 0x04103B75 0x00210000)] = [some (.ppset (q .s32 1 0 3 0 0 0)),
    some (.ppdeg (q .s32 1 0 3 0 1 0)),
    some (.ppmul (q .s32 1 2 3 0 2 7)),
    some (.ppmulv (q .l64 1 2 3 4 3 7)),
    some (.ppdiv (q .l64 1 2 3 0 4 7)),
    some (.ppmrg (q .l64 1 2 0 0 5 7)),
    some (.ppscl (q .l64 1 0 3 0 6 0)),
    some (.pprd (q .l64 1 2 0 0 7 0)),
    some (.pprdx (q .l64 1 2 0 0 8 0)),
    some (.pprdst (q .l64 1 2 0 0 9 0)),
    some (.ppwr (q .l64 1 2 3 4 10 0))] := by decide

/-- A command word with nothing but an opcode, and with a payload. -/
def c0 : Cmd := ⟨0, false, false, 0, 0, 0, false, 0, 0, 0, 0⟩

/-- Table 2-11. -/
theorem test_words_commands :
    [0x01, 0x02, 0x03, 0x04, 0x05, 0x06, 0x10, 0x11, 0x12, 0x13, 0x20, 0x21, 0x3F].map (decodeTableWord 256)
      = [some (.mma ⟨0, 0⟩ c0), some (.mmas ⟨0, 0⟩ c0), some (.mzero ⟨0, 0⟩ c0), some (.mload ⟨0, 0⟩ c0), some (.mdrain ⟨0, 0⟩ c0),
        some (.pacc ⟨0, 0⟩ c0), some (.copy ⟨0, 1⟩ c0), some (.feed ⟨0, 1⟩ c0), some (.feedm ⟨0, 1⟩ c0), some (.send ⟨0, 1⟩ c0),
        some (.gather ⟨0, 3⟩ c0), some (.scatter ⟨0, 3⟩ c0), some (.notify ⟨0, 0⟩ c0)] := by decide
/-- Table 2-12. -/
theorem test_words_sequencer :
    [0x1050638008000000, 0x2050000008000000, 0x3050000000000000, 0x4000000000000001, 0x5000000000000002, 0x6000000300000002,
      0x7801085000000000, 0x8800000000000000].map (decodeTableWord 64)
      = [some (.sqest 0 0x050638008000000), some (.sqhold 0 0x050000008000000), some (.sqtear 0 0x050000000000000),
        some (.sqwait 0 0x1), some (.sqjmp 0 0x2), some (.sqloop 0 0x000000300000002), some (.sqsig 0 0x801085000000000),
        some (.sqhalt 0 0x800000000000000)] := by decide
/-- Words that are no instruction: length 11, no form, a reserved field, the guard (!p0), a reserved command opcode, a command
frame bit, a reserved sequencer opcode and a reserved sequencer bit (R38, R43, R57, R59, Table 2-8). -/
theorem test_words_refused : [decodeTableWord 32 0x0000000B, decodeTableWord 32 0x0000000A, decodeTableWord 32 0x04000008,
    decodeTableWord 64 (l64 0x0C08201D 0x80000000), decodeTableWord 256 0x07, decodeTableWord 256 0x80001, decodeTableWord 64 0x9000000000000000,
    decodeTableWord 64 0x8000000000000001] = List.replicate 8 none := by decide
/-- R29, R42, R43: a guard, NWB, SAT and LIT are read from their places. -/
theorem test_fields : decodeTableWord 96 (x96 0x00102019 0xA4000100 0) = none
    ∧ decodeTableWord 64 (l64 0x00102019 0xA4000100) = some (.add ⟨.l64, ⟨4, true⟩, true, 0, .reg 2, .reg 2, z, 0, 0, 1, 0, 0⟩) := by decide

/-! ### Well-formedness: one ill-formed term for each check -/

/-- The plain syllable of each length. -/
def yS : Syl := ⟨.s32, g0, false, 0, z, z, z, 0, 0, 0, 0, 0⟩
def yL : Syl := ⟨.l64, g0, false, 0, z, z, z, 0, 0, 0, 0, 0⟩
def yX : Syl := ⟨.x96, g0, false, 0, z, z, z, 0, 0, 0, 0, 0⟩
/-- A queue of unit 0, and one of no unit. -/
def q0 : QRef := ⟨0, 0⟩
def qNo : QRef := ⟨560, 0⟩

/-- What each of these terms breaks: the length, the guard, NWB with a destination or without a result, the destination, a
source, RM, TY, MOD, LIT, the entry's own rule, S32 fields, a latch in a blocking form. -/
theorem test_wf_slots : [Instr.nop yL, .add { yL with guard := ⟨0, true⟩ }, .add { yL with nwb := true, d := 1 }, .nop { yS with nwb := true },
    .aadd { yS with d := 16 }, .pand { yL with s1 := .reg 16 }, .mand { yL with s1 := .latch 0 }, .add { yL with rm := 1 }, .fadd { yL with rm := 5 },
    .min { yL with form := 2, ty := 1 }, .fadd { yL with mod := 255, ty := 3 }, .aadd { yL with mod := 1 }, .add { yL with lit := 1 },
    .shl { yX with lit := 64 }, .add { yS with s3 := .reg 1 }, .add { yS with guard := ⟨1, false⟩ }, .add { yS with form := 4 },
    .bwait { yL with form := 5, s2 := .latch 0 }, .sub yS].map Instr.wf = List.replicate 19 false := by decide
/-- The same forms without the fault are well-formed. -/
theorem test_wf_slots_good : [Instr.nop yS, .add yL, .add { yL with nwb := true }, .aadd { yS with d := 15 }, .pand { yL with s1 := .reg 15 }, .mand yL,
    .fadd { yL with rm := 4 }, .min { yL with form := 2 }, .shl { yX with lit := 63 }, .bwait { yL with form := 5, s2 := .reg 1 }].map Instr.wf
    = List.replicate 10 true := by decide
/-- A command on the wrong engine, with AWK 3, RSK 2, RM 5 or a field of a kind not selected; a unit that does not exist; a
sequencer word with a reserved bit. -/
theorem test_wf_commands : [Instr.mma ⟨0, 1⟩ c0, .copy q0 c0, .mma q0 { c0 with awk := 3 }, .mma q0 { c0 with rsk := 2 }, .mma q0 { c0 with rm := 5 },
    .mma q0 { c0 with awb := 1 }, .mma q0 { c0 with rsb := 1 }, .mma q0 { c0 with awq := 1 }, .mma q0 { c0 with awv := 1 }, .notify q0 { c0 with sat := true },
    .mma qNo c0, .sqhalt 0 1].map Instr.wf = List.replicate 12 false
    ∧ [Instr.mma q0 c0, .copy ⟨0, 1⟩ c0, .sqhalt 0 0].map Instr.wf = List.replicate 3 true := by decide
/-- Events whose parameters name nothing of the module: a unit, a partition, a port, a virtual function, a die, a die of
translations, a link's reason, a range of memory, an offset, a word of a key slot, a packet. -/
theorem test_wf_events : [Instr.runStart 560, .dbell 32 0, .laserFault 80 0, .vfpartWrite 384 0, .dieLoss 10, .tlbinvAck 0 0 0 11,
    .linkDown ⟨0, 0⟩ 2, .hostDma true (BitVec.ofNat 52 (2 ^ 52 - 1)) [0, 0] [], .apertureWrite 4 0, .keySlotWrite true ⟨0, 0⟩ false 5 0,
    .uetPacket (.data 0 0 false 0 1 1 [0]), .gangDispatch 0 0 0 0 [560] 0, .ruleStart 0 0 0 560 0].map Instr.wf = List.replicate 13 false
    ∧ [Instr.runStart 559, .dbell 31 0, .laserFault 79 0, .vfpartWrite 383 0, .dieLoss 9, .tlbinvAck 0 0 0 10, .linkDown ⟨0, 0⟩ 8,
      .hostDma true (BitVec.ofNat 52 (2 ^ 52 - 1)) [0] [], .apertureWrite 8 0, .keySlotWrite true ⟨0, 0⟩ false 4 0].map Instr.wf
      = List.replicate 10 true := by decide

/-! ### Witnesses: for the hypotheses of each statement, states and operands that meet them together -/

/-- The conditions of Issues, to be evaluated. -/
def issuesB (i : Instr) (s : State) : Bool :=
  match i.syl? with
  | some (maj, y) => !s.me.repSkip && (s.me.repn == 0 || decide (maj < 0x0B) || decide (0x0F < maj))
    && (maj != 0x6E || unitClass s.curU == 0) && (!marksBad maj y.form.toNat || s.me.untaken.isNone) && guardOn s.me y.guard
  | none => false

theorem issues_of {i : Instr} {s : State} (h : issuesB i s = true) : Issues i s := by
  unfold issuesB at h
  split at h
  · rename_i maj y e
    simp only [Bool.and_eq_true, Bool.or_eq_true, Bool.not_eq_true', beq_iff_eq, bne_iff_ne, decide_eq_true_eq] at h
    obtain ⟨⟨⟨⟨h1, h2⟩, h3⟩, h4⟩, h5⟩ := h
    refine (issues_iff e).2 ⟨h1, or_assoc.mp h2, fun q => h3.resolve_left (by simp [q]), fun q => ?_, h5⟩
    simpa [q] using h4
  · cases h

theorem issues_all {s : State} {l : List Instr} (h : l.all (fun i => issuesB i s) = true) : ∀ i ∈ l, Issues i s :=
  fun _ hi => issues_of (List.all_eq_true.mp h _ hi)

/-- Every instruction of a list of forms, at one syllable. -/
def atSyl (y : Syl) (l : List (Syl → Instr)) : List Instr := l.map (fun i => i y)

/-- The state after reset. -/
def r : State := State.reset
/-- The module brought up. -/
def up : State := r.broughtUp
/-- Strand 0 of unit 0 as t. -/
def withMe (t : Strand) : State := r.setStrand 0 0 t
/-- Core 0 as c. -/
def withCore (c : Core) : State := r.setCore 0 c
/-- A strand, and a core, after reset. -/
def t0 : Strand := Strand.reset
def k0 : Core := r.core 0
/-- A store queue and a load queue that are full. -/
def full : State := withMe { t0 with sq := List.replicate 32 ⟨1, .marker false⟩, lq := List.replicate 32 ⟨1, .marker false⟩ }

/-- What an answer is, to be evaluated. -/
def isOk {α : Type} : Rd α → Bool
  | .ok _ => true
  | .error _ => false
def stopOf {α : Type} : Rd α → Option Stop
  | .ok _ => none
  | .error e => some e

theorem ok_of {α : Type} [DecidableEq α] {x : Rd α} {a : α}
    (h : (match x with | .ok b => decide (b = a) | .error _ => false) = true) : x = .ok a := by
  cases x with
  | ok b => exact congrArg _ (of_decide_eq_true h)
  | error e => cases h
theorem err_of {α : Type} {x : Rd α} {e : Stop} (h : decide (stopOf x = some e) = true) : x = .error e := by
  cases x with
  | ok b => cases of_decide_eq_true h
  | error f => exact congrArg _ (Option.some.inj (of_decide_eq_true h))

theorem witness_LoneBundleOutcomes :
    (Issues (.nop yS) r ∧ isOk (slotRun (.nop yS) r ⟨0, 4⟩) = true)
    ∧ (Issues (.trap yS) r ∧ stopOf (slotRun (.trap yS) r ⟨0, 4⟩) = some (.trap 0x06 0 0))
    ∧ (Issues (.add yL) (withMe { t0 with bad := [⟨1, .w 0, false, causePoison, 0, 0⟩] })
      ∧ stopOf (slotRun (.add yL) (withMe { t0 with bad := [⟨1, .w 0, false, causePoison, 0, 0⟩] }) ⟨0, 8⟩)
        = some (.badLoad ⟨1, .w 0, false, causePoison, 0, 0⟩))
    ∧ (Issues (.qalign yS) full ∧ stopOf (slotRun (.qalign yS) full ⟨0, 4⟩) = some .stall)
    ∧ (Issues (.bwait { yX with form := 4 }) r
      ∧ stopOf (slotRun (.bwait { yX with form := 4 }) r ⟨0, 12⟩) = some (.block (.barrier 0 false)))
    ∧ (r.me.repSkip = false ∧ r.me.repn = 0 ∧ unitClass r.curU = 0 ∧ r.me.untaken = none ∧ guardOn r.me ⟨1, false⟩ = false)
    ∧ (let s := withMe { t0 with bad := [⟨1, .w 0, false, causePoison, 0, 0⟩] }
      marksBad 0x46 0 = true ∧ s.me.untaken = some ⟨1, .w 0, false, causePoison, 0, 0⟩ ∧ guardOn s.me ⟨1, false⟩ = false)
    ∧ ((withMe { t0 with repn := 2 }).me.repn ≠ 0 ∧ 0x0B ≤ 0x0B ∧ 0x0B ≤ 0x0F ∧ unitClass ({ r with curU := 512 } : State).curU ≠ 0
      ∧ ((Instr.br yX).syl?.map Prod.fst) = some 0x0B ∧ ((Instr.ppset yL).syl?.map Prod.fst) = some 0x6E) :=
  ⟨⟨issues_of (by decide), by decide⟩, ⟨issues_of (by decide), by decide⟩, ⟨issues_of (by decide), by decide⟩,
    ⟨issues_of (by decide), by decide⟩, ⟨issues_of (by decide), by decide⟩, by decide, by decide, by decide⟩

/-- Two registers and a result, both rows of reset. -/
abbrev WordOps (s : State) (y : Syl) : Prop :=
  readW s y.s1 = .ok 0 ∧ src2W s y = .ok 0 ∧ readW s y.s3 = .ok 0 ∧ (y.nwb = true ∨ s.writable (.w y.d.toNat) = .ok ())
/-- w1 = 5, w2 = 0x0300 (a field spec of length 3 at bit 0), p1 = 1, a1 = 0x1003, a2 = 0x2000. -/
def regs : State := withMe { t0 with w := [(1, 5), (2, 0x0300)], p := 3, a := [(1, 0x1003), (2, 0x2000)] }

theorem witness_IntegerArithmeticElementwise :
    (∀ i ∈ atSyl yL [.add, .addB, .sub, .subB, .min, .minB, .max, .maxB, .absd, .absdB, .abs, .absB, .mul, .mulB, .mulh, .mulhB, .mad, .madB],
      Issues i r) ∧ WordOps r yL ∧ 0 < (elemTy yL.ty).width ∧ 0 < 32 / (elemTy yL.ty).width := by
  repeat' apply And.intro
  all_goals first | decide | exact ok_of (by decide) | exact issues_all (by decide) | exact .inr (ok_of (by decide))

theorem witness_LogicAndShiftsElementwise :
    (∀ i ∈ atSyl yL [.and, .andB, .or, .orB, .xor, .xorB, .andn, .andnB, .not, .notB, .shl, .shlB, .shr, .shrB, .rol, .rolB, .ror, .rorB],
      Issues i r) ∧ WordOps r yL ∧ WordOps r { yX with lit := 0 } ∧ Issues (.shl yX) r := by
  repeat' apply And.intro
  all_goals first | decide | exact ok_of (by decide) | exact issues_all (by decide) | exact .inr (ok_of (by decide))

theorem witness_BitFieldsAndCounts :
    (∀ i ∈ atSyl yL [.ext, .ins, .clz, .ctz, .popc, .brev], Issues i r) ∧ WordOps r yL ∧ r.readable (.w yL.d.toNat) = .ok ()
    ∧ fieldPos (0x0300 : W32) + fieldLen (0x0300 : W32) = 3 ∧ 0 < fieldLen (0x0300 : W32) ∧ fieldLen (0 : W32) = 0
    ∧ 0 < 32 / (elemTy yL.ty).width := by
  repeat' apply And.intro
  all_goals first | decide | exact ok_of (by decide) | exact issues_all (by decide) | exact .inr (ok_of (by decide))

theorem witness_ComparesAndPredicateForms :
    (∀ i ∈ atSyl yL [.cmpeq, .cmpeqB, .cmpne, .cmpneB, .cmplt, .cmpltB, .cmple, .cmpleB, .cmpgt, .cmpgtB, .cmpge, .cmpgeB, .test, .testB,
      .pand, .por, .pxor, .pandn, .pnot, .acmpeq, .acmpne, .acmplt, .acmpge, .fcmpeq, .fcmpne, .fcmplt, .fcmple, .fcmpgt, .fcmpge], Issues i r)
    ∧ modeWidth yL.ty = 32 ∧ WordOps r yL ∧ readP r yL.s3 = .ok true ∧ readP r yL.s1 = .ok true ∧ readP r yL.s2 = .ok true
    ∧ readA r yL.s1 = .ok 0 ∧ src2A r yL = .ok 0 := by
  repeat' apply And.intro
  all_goals first | decide | exact ok_of (by decide) | exact issues_all (by decide) | exact .inr (ok_of (by decide))

theorem witness_MovesAsTheirRowsSay :
    (∀ i ∈ atSyl yL [.mov, .movB, .sxw, .zxw, .movwp, .wrp, .sel, .mova, .movaw, .movawh, .movha, .movpw, .rdp, .movrep, .lea], Issues i r)
    ∧ WordOps r yL ∧ src2A r yL = .ok 0 ∧ readP r yL.s1 = .ok true ∧ readP r yL.s2 = .ok true ∧ r.readable (destA yL.d) = .ok ()
    ∧ r.writable (destA yL.d) = .ok () ∧ readP regs (.reg 2) = .ok false ∧ src2W regs { yL with s2 := .reg 1 } = .ok 5 := by
  repeat' apply And.intro
  all_goals first | exact ok_of (by decide) | exact issues_all (by decide) | exact .inr (ok_of (by decide))

theorem witness_AddressArithmeticWraps :
    (∀ i ∈ atSyl { yL with form := 5 } [.aadd, .asub, .aand, .aidx], Issues i r) ∧ readA r yL.s1 = .ok 0 ∧ src2A r yL = .ok 0
    ∧ src2W r yL = .ok 0 ∧ r.writable (destA yL.d) = .ok () ∧ 2 ≤ ({ yL with form := 5 } : Syl).form.toNat := by
  repeat' apply And.intro
  all_goals first | decide | exact ok_of (by decide) | exact issues_all (by decide)

theorem witness_FloatArithmeticSelectAndConvert :
    (∀ i ∈ atSyl yL [.fadd, .fsub, .fmul, .fma, .fms, .fnma, .fnms, .fabs, .fneg, .fmin, .fmax, .cvt, .frcp, .frsq], Issues i r)
    ∧ WordOps r yL ∧ 0 < 32 / (elemFmt yL.ty).width
    ∧ (0x7E ≤ e4m3.maxCode ∧ e4m3.maxCode < 0x7F ∧ 0x7F < 2 ^ (e4m3.width - 1) ∧ f16.maxCode + 1 < 0x7FFF ∧ 0x7FFF < 2 ^ (f16.width - 1))
    ∧ (0 < 1 ∧ (-149 : Int) ≤ 0 ∧ (-149 : Int) ≤ leastExp f32 ∧ (∀ c, Mode.rsto 5 = .rsto c → c < 2 ^ 16))
    ∧ (FV.nan ∈ [FV.nan] ∧ (FV.inf true ∈ [FV.inf true] ∧ FV.inf false ∉ [FV.inf true]) ∧ (∀ x ∈ [FV.fin false 1 0], x.isFinite = true ∧ (-1 : Int) ≤ x.expo))
    ∧ (f32.decode 0x7FC00000 = .nan ∧ f32.decode 0 ≠ .nan ∧ FV.Below (f32.decode 0xFF800000) (f32.decode 0)
      ∧ ¬FV.Below (f32.decode 0x7F800000) (f32.decode 0xFF800000))
    ∧ (2 ^ 12 ≤ 4096 ∧ 4096 < 2 ^ 13 ∧ 0 ≤ 12 - (0 : Int) - 0 ∧ 4096 * 1 ≤ 2 ^ (12 - (0 : Int) - 0).toNat ∧ 2 ^ (12 - (0 : Int) - 0).toNat < (4096 + 1) * 1
      ∧ 4096 * 4096 * 1 ≤ 2 ^ (24 - 2 * (0 : Int) - 0).toNat ∧ 2 ^ (24 - 2 * (0 : Int) - 0).toNat < (4096 + 1) * (4096 + 1) * 1) := by
  repeat' apply And.intro
  all_goals first | decide | exact .inl ⟨by decide, by decide⟩ | (rintro (⟨h, -⟩ | ⟨h, -⟩ | ⟨h, -⟩) <;> exact absurd h (by decide)) | (rintro c ⟨⟩; decide) | exact ok_of (by decide) | exact issues_all (by decide) | exact .inr (ok_of (by decide))

theorem witness_ControlTransfers :
    (∀ i ∈ atSyl yX [.nop, .br, .call, .callr, .jr], Issues i r) ∧ r.writable (destA yX.d) = .ok ()
    ∧ (r.me.pc + yX.lit.signExtend 64).toNat % 4 = 0 ∧ Issues (.br { yX with lit := 2 }) r ∧ Issues (.call { yX with lit := 2 }) r
    ∧ (r.me.pc + ({ yX with lit := 2 } : Syl).lit.signExtend 64).toNat % 4 ≠ 0
    ∧ readA r yX.s1 = .ok 0 ∧ readA regs (.reg 1) = .ok 0x1003 ∧ Issues (.jr { yS with s1 := .reg 1 }) regs ∧ Issues (.callr { yS with s1 := .reg 1 }) regs := by
  repeat' apply And.intro
  all_goals first | decide | exact ok_of (by decide) | exact issues_all (by decide)

/-- A strand at 0x100; in its loop with LCNT0 = 1; at the end of the loop; and with a REP of 0 behind it. -/
def pc100 : State := withMe { t0 with pc := 0x100 }
def looping : State := withMe { t0 with lcnt0 := 1, lend0 := 12 }
def skipping : State := withMe { t0 with repSkip := true }
theorem witness_LoopAndRep :
    (Issues (.loop yX) looping ∧ readW looping yX.s1 = .ok 0 ∧ looping.me.lcnt yX.d.toNat ≠ 0)
    ∧ (Issues (.loop { yX with lit := 2 }) pc100 ∧ pc100.me.lcnt 0 = 0 ∧ (pc100.me.pc + (2 : W32).signExtend 64).toNat % 4 ≠ 0)
    ∧ (Issues (.loop { yX with lit := 8 }) pc100 ∧ (pc100.me.pc + (8 : W32).signExtend 64).toNat % 4 = 0
      ∧ (pc100.me.pc + (8 : W32).signExtend 64).toNat < (pc100.me.pc + BitVec.ofNat 64 Len.x96.bytes).toNat)
    ∧ (Issues (.loop { yX with lit := 12 }) pc100 ∧ readW pc100 yX.s1 = .ok 0
      ∧ (pc100.me.pc + BitVec.ofNat 64 Len.x96.bytes).toNat ≤ (pc100.me.pc + (12 : W32).signExtend 64).toNat)
    ∧ (Issues (.rep { yX with lit := 65535 }) r ∧ r.me.atLoopEnd = false) ∧ Issues (.rep { yX with lit := 65536 }) r
    ∧ (Issues (.rep yX) (withMe { t0 with lcnt0 := 2 }) ∧ (withMe { t0 with lcnt0 := 2 }).me.atLoopEnd = true)
    ∧ ((Instr.nop yS).syl? = some (1, yS) ∧ skipping.me.repSkip = true) := by
  repeat' apply And.intro
  all_goals first | decide | exact ok_of (by decide)

theorem witness_YieldHaltExit : (∀ i ∈ atSyl yS [.yield, .halt, .exit, .exitStatus], Issues i r) ∧ readW r yS.s1 = .ok 0 := by
  repeat' apply And.intro
  all_goals first | exact ok_of (by decide) | exact issues_all (by decide)

theorem ex_of {α : Type} {x : Rd α} {P : α → Prop} [DecidablePred P]
    (h : (match x with | .ok b => decide (P b) | .error _ => false) = true) : ∃ b, x = .ok b ∧ P b := by
  cases x with
  | ok b => exact ⟨b, rfl, of_decide_eq_true h⟩
  | error e => cases h

/-- Unit 0 is of partition 0, where the page of virtual address 0 lies in the first frame of CD0's local aperture and may be read, written and executed. -/
def page0 : TlbEntry := { part := 0, base := 0, size := 4096, leaf := BitVec.ofNat 64 (0x008000000000 + 0xC3F), level := 1, entry := 0, table := 0 }
def paged : State := { withCore { k0 with tlb := [page0] } with assign := { r.assign with unit := [(0, 0x20)] } }
/-- Strand 0 of unit 0 is the supervisor strand of partition 0. -/
def supd : State := { paged with assign := { r.assign with unit := [(0, 0x120)] } }
/-- An access's result has room in both queues. -/
abbrev Fits (s : State) (x : Rd Access) (l q : Nat) : Prop := ∃ a, x = .ok a ∧ s.me.lqLen + (a.fills.length + l) ≤ 32 ∧ s.me.sq.length + q ≤ 32

theorem witness_AccessChecks :
    (readA regs (.reg 1) = .ok 0x1003 ∧ readW regs (.reg 1) = .ok 5 ∧ bit ({ yL with form := 32 } : Syl).form 5 = true ∧ bit yL.form 5 = false)
    ∧ ((0x1003 : W64).toNat % 4 ≠ 0)
    ∧ ((0x1FFFFC : W64).toNat % 4 = 0 ∧ (0x1FFFFC : W64).toNat + 4 ≤ 2 ^ 21 ∧ 2 ^ 21 < (0x200000 : W64).toNat + 4
      ∧ r.myCore.regionOf (0x1FFFFC / 4096) = none)
    ∧ ((0x0100000000000000 : W64).toNat % 4 = 0 ∧ canonical 0x0100000000000000 = false)
    ∧ (canonical 0xFFC = true ∧ canonical ((0xFFC : W64) + BitVec.ofNat 64 (4 - 1)) = true
      ∧ isOk (xlateRange paged .read (piecesOf 0xFFC 4)) = true) := by
  repeat' apply And.intro
  all_goals first | decide +kernel | exact ok_of (by decide +kernel)

theorem witness_LoadsEnterTheLoadQueue :
    (∀ i ∈ atSyl yL [.ldL, .ldAcqL, .ldG, .ldAcqG, .vld], Issues i paged) ∧ effAddr paged yL = .ok 0 ∧ effAddrPlain paged yL = .ok 0
    ∧ bit yL.form 0 = false ∧ bit ({ yL with form := 1 } : Syl).form 0 = true ∧ paged.writable (.w 0) = .ok () ∧ paged.writable (destA 0) = .ok ()
    ∧ paged.writable (.row (paged.vKey 0)) = .ok ()
    ∧ Fits paged (access paged true 0 4 4 .read) 2 1 ∧ Fits paged (access paged false 0 4 4 .read) 2 1 ∧ Fits paged (access paged false 0 8 8 .read) 2 1
    ∧ Fits paged (access paged false 0 256 32 .read) 1 0
    ∧ stopOf (access r false 0x0100000000000000 4 4 .read) = some (.trap 0x10 0x0100000000000000 (XFault.word ⟨1, 0, .read, 0, 0⟩)) := by
  repeat' apply And.intro
  all_goals first | decide +kernel | exact ok_of (by decide +kernel) | exact issues_all (by decide +kernel) | exact ex_of (by decide +kernel)

theorem witness_StoresEnterTheStoreQueue :
    (∀ i ∈ atSyl yL [.stL, .stRelL, .stG, .stRelG, .vst, .vstm], Issues i paged) ∧ effAddr paged yL = .ok 0 ∧ effAddrPlain paged yL = .ok 0
    ∧ readA paged yL.s1 = .ok 0 ∧ readA paged yL.s3 = .ok 0 ∧ readW paged yL.s3 = .ok 0 ∧ readM paged yL.s2 = .ok 0 ∧ readV paged yL.s3 = .ok 0
    ∧ Fits paged (access paged true 0 4 4 .write) 1 2 ∧ Fits paged (access paged false 0 4 4 .write) 1 2 ∧ Fits paged (access paged false 0 8 8 .write) 1 2
    ∧ Fits paged (access paged false 0 256 32 .write) 0 1 ∧ Fits paged (access paged true 0 256 32 .write) 0 1
    ∧ stopOf (access paged false 2 4 4 .write) = some (.trap 0x07 2 0) := by
  repeat' apply And.intro
  all_goals first | decide +kernel | exact ok_of (by decide +kernel) | exact issues_all (by decide +kernel) | exact ex_of (by decide +kernel)

/-- Region 0 of core 0 is valid: one block of scratchpad at block 0, for the page at virtual address 0; the block is clean. -/
def region : State := paged.setCore 0 { k0 with tlb := [page0], rgnlo := [(0, 0x1)] }

/-- Block 0 of region 0 is the page at 1 GiB, which no TLB holds: its walk reads a table page whose record is being evicted. -/
def regionBehind : State :=
  { ((paged.setPart 0 { Part.reset with xroot := 0x008000010000 }).setCore 0 { k0 with rgnlo := [(0, 0x1)], rgnhi := [(0, 0x40000000)] }).setStrand 1 0
      { t0 with sq := [⟨1, .marker false⟩] } with
    homes := { r.homes with evicting := [⟨0x008000010, [0], [(8, 1)], []⟩] }
    mem := [(0x008000010000, 1), (0x008000010002, 1), (0x008000010004, 0x80), (0x008000010008, 0x3F), (0x008000010009, 0x0C), (0x00800001000C, 0x80)] }
theorem witness_PrefetchesMarkersAndRegions :
    (∀ i ∈ atSyl yL [.prefG, .prefwG, .prefL, .qalign, .fenceCore, .fenceClus, .fenceDie, .fencePkg, .fencePod, .reginv, .regsync], Issues i paged)
    ∧ effAddr paged yL = .ok 0 ∧ region.prefetchFill 0 ≠ [] ∧ region.missWaits (region.prefetchVa 0) = false
    ∧ (Issues (.prefL yL) regionBehind ∧ effAddr regionBehind yL = .ok 0 ∧ regionBehind.prefetchFill 0 ≠ [] ∧ regionBehind.missWaits (regionBehind.prefetchVa 0) = true) ∧ isOk (effAddr paged { yL with s1 := .latch 0 }) = false
    ∧ stopOf (effAddr paged { yL with s1 := .latch 0 }) ≠ some .stall ∧ Issues (.prefL { yL with s1 := .latch 0 }) paged
    ∧ (paged.me.lqLen + 1 ≤ 32 ∧ paged.me.sq.length + 1 ≤ 32) ∧ paged.fillsOf paged.curU 0 = false
    ∧ ((region.setMe { region.me with lq := [⟨1, .fill 0 0 0 .cached true⟩] }).fillsOf 0 0 = true
      ∧ Issues (.reginv yL) (region.setMe { region.me with lq := [⟨1, .fill 0 0 0 .cached true⟩] }))
    ∧ (let c := region.myCore.setDirty 0 0 true
      rgnValid (c.rgnLo 0) = true ∧ 0 < rgnLen (c.rgnLo 0) ∧ c.isDirty 0 0 = true)
    ∧ (∃ q ∈ [(⟨1, .store [(spadKey 0 8, 1)] .loc 8 [] false⟩ : SqItem)], ∃ a ∈ q.kind.keys, placeOf a = .spad 0 ∧ (a - spadKey 0 0) / 4096 = rgnBase (region.myCore.rgnLo 0) + 0)
    ∧ (32 ≤ full.me.lqLen ∧ 32 ≤ full.me.sq.length ∧ Issues (.qalign yS) full ∧ Issues (.fencePod yL) full)
    ∧ regionNo paged yL = .ok 0
    ∧ isOk (xlateRange paged .write ((paged.syncBlocks 0).map (fun b => (paged.myCore.blockVa 0 b, 4096)))) = true
    ∧ paged.me.sq.length + min (paged.syncBlocks 0).length 32 ≤ 32 := by
  repeat' apply And.intro
  all_goals first | decide +kernel | exact ok_of (by decide +kernel) | exact issues_all (by decide +kernel)

theorem atomic_of {y : Syl} {s : State} {ea x y2 : W64} {P : Access → Prop} (h1 : effAddrPlain s y = .ok ea) (h2 : atomSrc s y y.s3 = .ok x)
    (h3 : field y.form 3 0 = 7 → ∃ v, readW s y.s2 = .ok v ∧ y2 = (swizzle v y.mod).setWidth 64) (h5 : field y.form 3 0 = 10 → readA s y.s2 = .ok y2)
    (h6 : field y.form 3 0 ≠ 7 → field y.form 3 0 ≠ 10 → y2 = 0) (h4 : ∃ a, access s (bit y.form 4) ea (opBytes (field y.form 3 0)) (opBytes (field y.form 3 0)) .write = .ok a ∧ P a) :
    ∃ a, AtomicReads y s ea x y2 a ∧ P a :=
  let ⟨a, h, p⟩ := h4; ⟨a, ⟨h1, h2, h3, h5, h6, h⟩, p⟩

/-- Local and global forms find a site; a global floating add with the mode RSTO has one too (and traps). -/
theorem witness_AtomicsQueueAndCompute :
    (∀ i ∈ atSyl yL [.atomAdd, .atomAnd, .atomOr, .atomXor, .atomMin, .atomMax, .atomSwp, .atomCas, .atomFadd, .redAdd, .redAnd, .redOr, .redXor,
      .redMin, .redMax, .redFadd], Issues i paged)
    ∧ (∃ a, AtomicReads yL paged 0 0 0 a ∧ isOk (siteOf yL a 0) = true ∧ paged.me.lqLen + (a.fills.length + 1) ≤ 32 ∧ paged.me.sq.length + 1 ≤ 32)
    ∧ (∃ a, AtomicReads { yL with form := 16 } paged 0 0 0 a ∧ isOk (siteOf { yL with form := 16 } a 0) = true)
    ∧ (∃ a, AtomicReads { yL with form := 7 } paged 0 0 0 a ∧ isOk (siteOf { yL with form := 7 } a 0) = true)
    ∧ (∃ a, AtomicReads { yL with form := 10 } paged 0 0 0 a ∧ isOk (siteOf { yL with form := 10 } a 0) = true)
    ∧ (∃ a, AtomicReads { yL with form := 12, rm := 4 } paged 0 0 0 a ∧ isOk (siteOf { yL with form := 12, rm := 4 } a 0) = true)
    ∧ paged.modeOf 4 = 4 ∧ paged.modeOf 0 ≠ 4 ∧ paged.writable (.w 0) = .ok () ∧ paged.writable (destA 0) = .ok ()
    ∧ placeOf (2 ^ 62) = .aperture ∧ placeOf 0x8000000000000 = .host ∧ placeOf (spadKey 3 8) = .spad 3 ∧ placeOf 0x008000000000 = .die 0 := by
  repeat' apply And.intro
  all_goals first | decide +kernel | exact ok_of (by decide +kernel) | exact issues_all (by decide +kernel) | exact atomic_of (ok_of (by decide +kernel)) (ok_of (by decide +kernel)) (fun _ => ⟨0, ok_of (by decide +kernel), by decide⟩) (fun _ => ok_of (by decide +kernel)) (fun _ _ => rfl) (ex_of (by decide +kernel))

/-- Strand 0 handles a trap: its frame is zero; holds an odd TPC; and it has a store to scratchpad under way. -/
def handling : State := withMe { t0 with td := true }
def oddFrame : State := { handling with mem := [(spadKey 0 0, 2)] }
def storing : State := withMe { t0 with td := true, sq := [⟨1, .store [(spadKey 0 8, 1)] .loc 8 [] false⟩] }
theorem witness_TrapEntryReturnAndFrame :
    (Issues (.rett yS) r ∧ r.me.td = false) ∧ (Issues (.rett yS) storing ∧ storing.me.td = true ∧ storing.me.localStores = true)
    ∧ (Issues (.rett yS) oddFrame ∧ oddFrame.me.td = true ∧ oddFrame.me.localStores = false ∧ frameWord oddFrame 0 % 4 ≠ 0)
    ∧ (Issues (.rett yS) handling ∧ handling.me.td = true ∧ handling.me.localStores = false ∧ frameWord handling 0 % 4 = 0
      ∧ handling.me.lqLen + 1 ≤ 32 ∧ handling.me.sq.length + 1 ≤ 32)
    ∧ (r.strand 0 0).td = false
    ∧ (∀ n, n < 1280 → r.liveKey (spadKey (0 : UnitNo).toNat (field (r.strand 0 0).tfbase 20 8 * 256 + n))
      = spadKey (0 : UnitNo).toNat (field (r.strand 0 0).tfbase 20 8 * 256 + n)) := by
  repeat' apply And.intro
  all_goals decide +kernel

theorem witness_ControlRegistersReadAndWrite :
    (Issues (.rdsr { yX with lit := 4 }) supd ∧ isOk (readCR supd 4) = true ∧ supd.writable (destA 0) = .ok ())
    ∧ (Issues (.rdsr { yX with lit := 0x0F }) supd ∧ stopOf (readCR supd 0x0F) = some (.trap 0x02 0 0) ∧ listedCR 0x0F = false)
    ∧ (Issues (.wrsr { yX with lit := 4 }) supd ∧ readA supd yX.s1 = .ok 0 ∧ isOk (writeCR supd 4 0) = true)
    ∧ (Issues (.wrsr { yX with lit := 0x0E }) supd ∧ stopOf (writeCR supd 0x0E 0) = some (.trap 0x02 0 0) ∧ writableCR 0x0E = false)
    ∧ (supCR 0x60 = true ∧ r.sup = false ∧ supd.sup = true ∧ isOk (writeCR supd 0x60 0x1000) = true)
    ∧ keptCR.all (fun p => isOk (writeCR supd p.1 0) || isOk (writeCR supd p.1 0x1000)) = true
    ∧ isOk (writeCR r 0 0x8000) = true ∧ isOk (writeCR r 1 0xF) = true ∧ isOk (writeCR r 1 4) = true ∧ isOk (writeCR r 0x00C 0) = true := by
  repeat' apply And.intro
  all_goals first | decide +kernel | exact ok_of (by decide +kernel)

theorem witness_SleepWindowAndTimeReads :
    (∀ i ∈ atSyl yL [.sleepto, .sleeptoCp0, .sleeptoCp1, .vwin, .vwinReg, .rdtime, .rdcyc, .rpkr], Issues i r)
    ∧ readA r yL.s1 = .ok 0 ∧ readA r yL.s2 = .ok 0 ∧ (0 : W64).toNat ≤ r.myCore.cycle.toNat ∧ (0 : W64).toNat ≤ (r.myCore.tlSeen 1).toNat
    ∧ (readA regs (.reg 1) = .ok 0x1003 ∧ Issues (.sleepto { yL with s1 := .reg 1 }) regs ∧ ¬(0x1003 : W64).toNat ≤ regs.myCore.cycle.toNat
      ∧ Issues (.sleeptoCp0 { yL with s2 := .reg 1 }) regs ∧ (regs.myCore.tlSeen 1).toNat < (0x1003 : W64).toNat)
    ∧ readW r yL.s2 = .ok 0 ∧ (readW (withMe { t0 with w := [(1, 8)] }) (.reg 1) = .ok 8)
    ∧ Issues (.vwinReg { yL with s2 := .reg 1 }) (withMe { t0 with w := [(1, 8)] }) ∧ r.writable (destA 0) = .ok () := by
  repeat' apply And.intro
  all_goals first | decide +kernel | exact ok_of (by decide +kernel) | exact issues_all (by decide +kernel)

/-- Barrier 0 of core 0 has completed phase 0; queue 0 has fault word 7 and its timeline stands at 5. -/
def phased : State := withCore ((k0.setBarrier 0 { Barrier.reset with phn := 1, count := 2 }).setQueue 0 { Queue.reset with tl := 5, nx := 5, fault := 7 })
theorem witness_BarriersTimelinesAndStatus :
    (Issues (.binit { yX with lit := 0x00010000 }) r ∧ barSpec r { yX with lit := 0x00010000 } 0xFE00 = .ok 0x00010000 ∧ r.me.sq.length + 1 ≤ 32)
    ∧ (Issues (.binit yX) r ∧ barSpec r yX 0xFE00 = .ok 0)
    ∧ (Issues (.barr yX) r ∧ barSpec r yX 0xE0FE00 = .ok 0) ∧ (Issues (.barr { yX with lit := 0x00100000 }) r
      ∧ (0x00100000 : W32).getLsbD 20 = true ∧ r.curU.toNat < 512) ∧ 512 ≤ ({ r with curU := 512 } : State).curU.toNat
    ∧ (Issues (.bwait yX) r ∧ barSpec r yX 0xFFFFFC00 = .ok 0 ∧ ¬((r.myCore.barSeen 0).phn.getLsbD 0 ≠ (0 : W32).getLsbD 9))
    ∧ (Issues (.bwait yX) phased ∧ (phased.myCore.barSeen 0).phn.getLsbD 0 ≠ (0 : W32).getLsbD 9)
    ∧ (∀ i ∈ atSyl yX [.btest, .brd, .tlrd, .tlwait, .tlflt, .tlfltc, .statrd, .statrdc], Issues i phased) ∧ queueSpec phased yX = .ok 0
    ∧ queueSpec phased { yX with lit := 0x23 } = .ok 3 ∧ readA phased yX.s1 = .ok 0 ∧ phased.writable (.w 0) = .ok () ∧ phased.writable (destA 0) = .ok ()
    ∧ (0 / 4 = phased.curK.toNat ∧ queueSpec phased { yX with lit := 4 } = .ok 4 ∧ 4 / 4 ≠ phased.curK.toNat
      ∧ Issues (.tlfltc { yX with lit := 4 }) phased)
    ∧ ({ yX with form := 9 } : Syl).form = 9 ∧ yX.form ≠ 9 := by
  repeat' apply And.intro
  all_goals first | decide +kernel | exact ok_of (by decide +kernel) | exact issues_all (by decide +kernel)

/-- The first words of unit 0's command area hold an MMA, and a FEEDM that names it as its follow-on. -/
def feedmWord : CmdWord := BitVec.ofNat 256 (0x12 + 0xF800 * 2 ^ 216)
def cmdWords : State := ((withCore k0).writeNat (spadKey 0 0x1F0000) 32 1).writeNat (spadKey 0 0x1F0020) 32 feedmWord.toNat
/-- The same with queue 0 full. -/
def e1 : QEntry := ⟨1, 1, 0, 0, false, 0, 0, none, false, 0, false⟩
def cmdFull : State := cmdWords.setCore 0 (k0.setQueue 0 { Queue.reset with entries := List.replicate 16 e1, nx := 16 })
def yC : Syl := { yX with lit := 0x1F0000 }
theorem witness_EnqueueCommits :
    (∀ i ∈ atSyl yC [.enq, .enqp], Issues i cmdWords) ∧ cmdOp 1 ≠ 0x12 ∧ cmdOp feedmWord = 0x12 ∧ readCommand cmdWords 0x1F0000 = .ok 1
    ∧ readCommand cmdWords 0x1F0020 = .ok feedmWord
    ∧ (cmdWords.myCore.cmdAddrOk 0x1F0000 = true ∧ (frameOk 0 1).isSome = false ∧ (frameOk 1 feedmWord).isSome = false ∧ unitClass cmdWords.curU = 0)
    ∧ (cmdWords.myCore.cmdAddrOk 0x1EFFE0 = false ∧ cmdWords.myCore.cmdAddrOk 0x1F0008 = false ∧ (frameOk 0 0).isSome = true)
    ∧ (cmdWords.myCore.queue 0).entries.length < 16 ∧ cmdWords.writable (destA 0) = .ok () ∧ followOn cmdWords feedmWord = .ok 1
    ∧ 16 ≤ (cmdFull.myCore.queue 0).entries.length
    ∧ isOk (enqueue yC cmdWords ⟨0, 12⟩ 0 0x1F0000 1) = true ∧ isOk (enqueue yC cmdWords ⟨0, 12⟩ 1 0x1F0020 feedmWord) = true
    ∧ BitVec.ofNat 64 (field yC.lit 20 5 * 32) = 0x1F0000
    ∧ applyPatch cmdWords 1 (bit yC.lit 29) (bit yC.lit 24) (field yC.lit 23 21) yC.s2 = .ok 1
    ∧ applyPatch cmdWords 1 (bit yC.lit 30) (bit yC.lit 28) (field yC.lit 27 25) yC.s3 = .ok 1 := by
  repeat' apply And.intro
  all_goals first | decide +kernel | exact ok_of (by decide +kernel) | exact issues_all (by decide +kernel)

/-- Core 0 is of group 0 of its cluster, which it joined with strand 0 and which has started; and what it has synced. -/
def g1 : Group := { Group.reset with mask := 3, joined := 3, strands := [(0, 0), (1, 0)] }
def inGroup (x : Group) : State := ((withCore { k0 with group := some 0 }).setGroup 0 0 x)
def waitsGroup (x : Group) : State := (withCore k0).setGroup 0 0 x
def ySg : Syl := { yX with lit := 3 }
theorem witness_GroupInstructions :
    (r.myCore.group = none ∧ ∀ i ∈ atSyl yS [.sgleave, .sgsync, .sgrd], Issues i r)
    ∧ ((inGroup g1).myCore.group = some 0 ∧ (∀ i ∈ atSyl yS [.sgleave, .sgsync, .sgrd], Issues i (inGroup g1)) ∧ (inGroup g1).writable (destA 0) = .ok ()
      ∧ ((inGroup g1).groupOf 0 0).synced.getLsbD 0 = false ∧ ((inGroup { g1 with synced := 3 }).groupOf 0 0).synced.getLsbD 0 = true
      ∧ Issues (.sgsync yS) (inGroup { g1 with synced := 3 }))
    ∧ (Issues (.sgrp ySg) (waitsGroup g1) ∧ groupSpec (waitsGroup g1) ySg = .ok 3 ∧ ((waitsGroup g1).groupOf 0 0).joined.getLsbD 0 = true
      ∧ Table.get 8 ((waitsGroup g1).groupOf 0 0).strands 0 = (waitsGroup g1).curK.toNat ∧ ((waitsGroup g1).groupOf 0 0).mask = (3 : W32).setWidth 16
      ∧ ((waitsGroup g1).groupOf 0 0).done.getLsbD 0 = false ∧ ((waitsGroup g1).groupOf 0 0).started = false
      ∧ ((inGroup { g1 with started := true }).groupOf 0 0).started = true ∧ Issues (.sgrp ySg) (inGroup { g1 with started := true }))
    ∧ (Issues (.sgrp ySg) r ∧ groupSpec r ySg = .ok 3 ∧ (r.groupOf 0 0).joined.getLsbD 0 = false ∧ (3 : W32).getLsbD 0 = true
      ∧ r.maskPresent ((3 : W32).setWidth 16) = true ∧ r.myCore.group = none ∧ (r.groupOf 0 0).joined = 0
      ∧ (¬∃ p ∈ (r.cluster 0).groups, p.2.joined.getLsbD 0 = true) ∧ (r.groupOf 0 0).started = false)
    ∧ (let s := waitsGroup { g1 with joined := 2, started := true }
      Issues (.sgrp ySg) s ∧ groupSpec s ySg = .ok 3 ∧ (s.groupOf 0 0).joined.getLsbD 0 = false ∧ s.myCore.group = none ∧ s.maskPresent 3 = true
        ∧ (¬∃ p ∈ (s.cluster 0).groups, p.2.joined.getLsbD 0 = true) ∧ (s.groupOf 0 0).mask = (3 : W32).setWidth 16 ∧ (s.groupOf 0 0).started = true)
    ∧ (let y := { yX with lit := 0x10003 }
      Issues (.sgrp y) (waitsGroup g1) ∧ groupSpec (waitsGroup g1) y = .ok 0x10003 ∧ ((waitsGroup g1).groupOf 0 1).joined.getLsbD 0 = false
        ∧ ∃ p ∈ ((waitsGroup g1).cluster 0).groups, p.2.joined.getLsbD 0 = true)
    ∧ (Issues (.sgrp { yX with lit := 2 }) r ∧ groupSpec r { yX with lit := 2 } = .ok 2 ∧ (2 : W32).getLsbD 0 = false) := by
  repeat' apply And.intro
  all_goals first | decide +kernel | exact ok_of (by decide +kernel) | exact issues_all (by decide +kernel)

/-- Partition 0's root table stands in a frame of CD0; no budget is left there; its entry 0 has an error; its record is being evicted,
behind an access of unit 1. -/
def rooted : State := supd.setPart 0 { Part.reset with xroot := 0x008000010000 }
def noBudget : State := { rooted with homes := { r.homes with abud := [] } }
def badRoot : State := rooted.poisonKeys [0x008000010000]
def evicting : State :=
  { rooted.setStrand 1 0 { t0 with sq := [⟨1, .marker false⟩] } with homes := { r.homes with evicting := [⟨0x008000010, [0], [(8, 1)], []⟩] } }
theorem witness_TranslationInstructions :
    (∀ i ∈ atSyl yS [.tlbinvVa, .tlbinvTbl, .tlbinvAll, .tlbwait, .xlat, .xlatW, .xlatX, .wpkr, .mighint, .locq], Issues i supd)
    ∧ readA supd yS.s1 = .ok 0 ∧ readA supd yS.s2 = .ok 0 ∧ r.sup = false ∧ Issues (.tlbinvAll yS) r
    ∧ (supd.sup = true ∧ (0 : W64).toNat % 2 ^ 12 = 0 ∧ (0 : W64).toNat < 2 ^ 52 ∧ canonical 0 = true ∧ supd.me.ivnx - supd.myIvtl ≠ 8
      ∧ supd.me.sq.length + 1 ≤ 32 ∧ supd.writable (destA 0) = .ok ())
    ∧ (let s := supd.setStrand 0 0 { t0 with ivnx := 8 }
      s.sup = true ∧ s.me.ivnx - s.myIvtl = 8 ∧ Issues (.tlbinvAll yS) s ∧ ¬(8 : W64).toNat ≤ s.myIvtl.toNat)
    ∧ supd.me.ivnx.toNat < (1 : W64).toNat ∧ (0 : W64).toNat ≤ supd.me.ivnx.toNat
    ∧ effAddrPlain supd yS = .ok 0 ∧ yS.len ≠ .x96
    ∧ (Issues (.wpkr yX) supd ∧ readW supd yX.s1 = .ok 0 ∧ (0 : W32).toNat < 4 ∧ yX.lit.toNat < 32)
    ∧ readW supd yS.s2 = .ok 0 ∧ (0 : W32).toNat < 16 ∧ supd.writable (.w 0) = .ok ()
    ∧ (supd.tlbFind supd.who 0).isSome = true
    ∧ ((supd.tlbFind supd.who 0x1000).isSome = false ∧ effAddrPlain supd { yX with lit := 0x1000 } = .ok 0x1000 ∧ supd.homes.spent 3 (supd.walkHomes supd.myPart 0x1000) = false
      ∧ supd.walkWaits supd.myPart 0x1000 = false ∧ rooted.homes.spent 3 (rooted.walkHomes 0 0x1000) = false ∧ rooted.walkHomes 0 0x1000 ≠ [])
    ∧ ((evicting.tlbFind evicting.who 0x1000).isSome = false ∧ evicting.walkWaits evicting.myPart 0x1000 = true ∧ Issues (.xlat { yX with lit := 0x1000 }) evicting
      ∧ effAddrPlain evicting { yX with lit := 0x1000 } = .ok 0x1000)
    ∧ ((match (badRoot.translate badRoot.who 0x1000 .read .probe).1 with | .error f => f.isPoison | .ok _ => false) = true
      ∧ (match (supd.translate supd.who 0 .read .probe).1 with | .error f => f.isPoison | .ok _ => false) = false
      ∧ badRoot.walkWaits badRoot.myPart 0x1000 = false ∧ Issues (.xlat { yX with lit := 0x1000 }) badRoot)
    ∧ (noBudget.homes.spent 3 (noBudget.walkHomes noBudget.myPart 0x1000) = true ∧ (noBudget.tlbFind noBudget.who 0x1000).isSome = false ∧ Issues (.locq { yX with lit := 0x1000 }) noBudget) := by
  repeat' apply And.intro
  all_goals first | decide +kernel | exact ok_of (by decide +kernel) | exact issues_all (by decide +kernel)

/-- Sequencer context 0 holds circuit 0 LIVE in generation 1, and circuit 1 SETTLING. -/
def circuits : State := r.setSeq 0 { Seq.reset with loaded := true, handles := [(0, { Handle.reset with state := .live, gen := 1 }), (1, { Handle.reset with state := .settling, gen := 1 })] }
def circMe : State := circuits.setStrand 0 0 { t0 with circctx := 0 }
/-- A launch of partition 0, and 256 of them. -/
def l0 : Launch := newLaunch 0 1 0x40 none true 0 none none none 0 true
def many : State := paged.setPart 0 { Part.reset with launches := List.replicate 256 l0 }
theorem witness_CircuitAndLaunchInstructions :
    (handleNo circMe yX = .ok 0 ∧ Issues (.circwait yX) circMe ∧ ¬2 ≤ yX.form.toNat % 4 ∧ 1 ≤ (circMe.mySeq.handle 0).gen.toNat
      ∧ (circMe.mySeq.handle 0).state ≠ .settling)
    ∧ (handleNo circMe { yX with lit := 1 } = .ok 1 ∧ Issues (.circwait { yX with lit := 1 }) circMe ∧ (circMe.mySeq.handle 1).state = .settling
      ∧ circMe.mySeq.status = 0)
    ∧ (2 ≤ ({ yX with form := 2 } : Syl).form.toNat % 4 ∧ readW circMe yX.s3 = .ok 0 ∧ Issues (.circwait { yX with form := 2 }) circMe)
    ∧ (Issues (.circq yX) circMe ∧ circMe.writable (destA 0) = .ok ()) ∧ readW circMe yL.s2 = .ok 0
    ∧ (readA paged yL.s1 = .ok 0 ∧ Issues (.launch yL) paged ∧ (0 : W64).toNat % 64 = 0 ∧ yL.form ≠ 1
      ∧ ((paged.partOf paged.myPart).launches.filter (fun l => !l.complete)).length < 256 ∧ paged.me.sq.length + 1 ≤ 32)
    ∧ (({ yL with form := 1 } : Syl).form = 1 ∧ readA paged yL.s3 = .ok 0)
    ∧ (readA regs (.reg 1) = .ok 0x1003 ∧ Issues (.launch { yL with s1 := .reg 1 }) regs ∧ (0x1003 : W64).toNat % 64 ≠ 0)
    ∧ (256 ≤ ((many.partOf many.myPart).launches.filter (fun l => !l.complete)).length ∧ Issues (.launch yL) many ∧ readA many yL.s1 = .ok 0)
    ∧ Issues (.lnstat yL) many := by
  repeat' apply And.intro
  all_goals first | decide +kernel | exact ok_of (by decide +kernel) | exact issues_of (by decide +kernel) | exact issues_all (by decide +kernel) | exact ⟨[], by decide +kernel⟩ | rfl

/-- Pair 0 is valid with a ring of 16 slots; unit 0's scratchpad holds a work entry of kind 1 at 0; a full ring of 16. -/
def pair16 : Pair := { Pair.reset with cfg := 1, ring := BitVec.ofNat 64 (4 * 2 ^ 21) }
def posting : State := { r.setPair 0 pair16 with mem := [(spadKey 0 0, 1)] }
def ringFull : State := { r.setPair 0 { pair16 with posted := 16 } with mem := [(spadKey 0 0, 1)] }
/-- Tensor 0 of partition 0 is valid, with one block. -/
def tensored : State := supd.setPart 0 (Part.reset.setTensor 0 { Tensor.reset with valid := true, desc := [1] })
theorem witness_PairCounterAndNodeInstructions :
    (∀ i ∈ atSyl yX [.cntrd, .cntwait, .cntadd, .qarm, .qpost], Issues i posting) ∧ counterSpec posting yX = .ok 0 ∧ pairSpec posting yX = .ok 0
    ∧ readA posting yX.s1 = .ok 0 ∧ (0 : W64).toNat ≤ (Table.get 0 posting.fabric.counters 0).toNat
    ∧ ¬(1 : W64).toNat ≤ (Table.get 0 posting.fabric.counters 0).toNat ∧ posting.me.sq.length + 1 ≤ 32
    ∧ ((posting.pairOf 0).posted.toNat < (1 : W64).toNat ∧ (0 : W64).toNat ≤ (posting.pairOf 0).posted.toNat)
    ∧ isOk (readLocalNow posting 0 64 64) = true ∧ posting.entryOk (posting.pairOf 0).mode 1 = true ∧ posting.entryOk 0 0 = false
    ∧ ((posting.pairOf 0).posted - (posting.pairOf 0).retired).toNat < (posting.pairOf 0).rsize ∧ posting.writable (destA 0) = .ok ()
    ∧ ((ringFull.pairOf 0).rsize ≤ ((ringFull.pairOf 0).posted - (ringFull.pairOf 0).retired).toNat ∧ Issues (.qpost yX) ringFull
      ∧ isOk (readLocalNow ringFull 0 64 64) = true)
    ∧ (readA supd yX.s1 = .ok 0 ∧ cntSpec supd yX 8 = .ok 0 ∧ Issues (.pncfg yX) supd ∧ supd.sup = true ∧ (0 : W64).toNat % 32 = 0
      ∧ (0 : W64).toNat + 127 < 2 ^ 21 ∧ isOk (readLocalNow supd 0 128 32) = true ∧ supd.writable (.w 0) = .ok () ∧ supd.me.sq.length + 1 ≤ 32)
    ∧ (readA r yX.s1 = .ok 0 ∧ cntSpec r yX 8 = .ok 0 ∧ Issues (.pncfg yX) r ∧ r.sup = false)
    ∧ (cntSpec tensored yX 20 = .ok 0 ∧ (tensored.tensor tensored.myPart 0).valid = true ∧ Issues (.pnstat yX) tensored ∧ (0 : Nat) / 2 ^ 18 ≠ 1)
    ∧ (cntSpec tensored { yX with lit := 1 } 20 = .ok 1 ∧ (tensored.tensor tensored.myPart 1).valid = false ∧ Issues (.pnstat { yX with lit := 1 }) tensored)
    ∧ (cntSpec tensored { yX with lit := 0x40100 } 20 = .ok 0x40100 ∧ (tensored.tensor tensored.myPart 0).nblk ≤ 0x40100 / 2 ^ 8 % 2 ^ 10) := by
  repeat' apply And.intro
  all_goals first | decide +kernel | exact ok_of (by decide +kernel) | exact issues_of (by decide +kernel) | exact issues_all (by decide +kernel) | exact ⟨[], by decide +kernel⟩ | rfl

/-- Two rows and a mask, and a row to write. -/
abbrev RowOps (s : State) (y : Syl) (W : Nat) : Prop :=
  readV s y.s1 = .ok 0 ∧ src2V s y W = .ok 0 ∧ readV s y.s3 = .ok 0 ∧ readM s y.s3 = .ok 0 ∧ s.writable (.row (s.vKey y.d)) = .ok ()
    ∧ s.writable (.w y.d.toNat) = .ok ()
/-- The plain pattern of row operands (R47). -/
def yV : Syl := yL

theorem witness_VectorIntegerAndLogicLanes :
    (∀ i ∈ atSyl yV [.vadd, .vsub, .vmin, .vmax, .vmul, .vmulh, .vabsd, .vmad, .vabs, .vand, .vor, .vxor, .vandn, .vnot, .vshl, .vshr, .vrol,
      .vror], Issues i r) ∧ RowOps r yV (elemTy yV.ty).width ∧ 0 < 2048 / (elemTy yV.ty).width ∧ Issues (.vshl yX) r ∧ yX.len = .x96 := by
  repeat' apply And.intro
  all_goals first | decide +kernel | exact ok_of (by decide +kernel) | exact issues_of (by decide +kernel) | exact issues_all (by decide +kernel) | exact ⟨[], by decide +kernel⟩ | rfl

theorem witness_VectorFloatLanes :
    (∀ i ∈ atSyl yV [.vfadd, .vfsub, .vfmul, .vfma, .vfms, .vfnma, .vfnms, .vfabs, .vfneg, .vfmin, .vfmax], Issues i r)
    ∧ RowOps r yV (elemFmt yV.ty).width ∧ 0 < 2048 / (elemFmt yV.ty).width := by
  repeat' apply And.intro
  all_goals first | decide +kernel | exact ok_of (by decide +kernel) | exact issues_of (by decide +kernel) | exact issues_all (by decide +kernel) | exact ⟨[], by decide +kernel⟩ | rfl

theorem witness_VectorComparesAndMasks :
    (∀ i ∈ atSyl yV [.vcmpeq, .vcmpne, .vcmplt, .vcmple, .vcmpgt, .vcmpge, .vtest, .vfcmpeq, .vfcmpne, .vfcmplt, .vfcmple, .vfcmpgt, .vfcmpge,
      .vsel, .mand, .mor, .mxor, .mandn, .mnot, .mfirst, .mcnt], Issues i r) ∧ RowOps r yV (modeWidth yV.ty)
    ∧ 8 ≤ modeWidth yV.ty ∧ modeWidth yV.ty ∣ 2048 ∧ (elemFmt yV.ty).width ∣ 2048 ∧ readM r yV.s1 = .ok 0 ∧ readM r yV.s2 = .ok 0 ∧ src2W r yV = .ok 0
    ∧ (bit ({ yV with form := 16 } : Syl).form 4 = true ∧ Issues (.vcmpeq { yV with form := 16 }) r ∧ bit yV.form 4 = false) := by
  repeat' apply And.intro
  all_goals first | decide +kernel | exact ok_of (by decide +kernel) | exact issues_of (by decide +kernel) | exact issues_all (by decide +kernel) | exact ⟨[], by decide +kernel⟩ | rfl

theorem witness_VectorConvertAndEstimate :
    (∀ i ∈ atSyl yV [.vcvt, .vrcp, .vrsq, .vexp2, .vlog2, .vtanh], Issues i r) ∧ RowOps r yV 32 ∧ readRowKey r (r.vKey 0) = .ok 0
    ∧ (cvtCount 0 ≤ cvtCount 0 ∧ yV.form.toNat % 16 = 0 ∧ yV.ty.toNat ≠ 5)
    ∧ (cvtCount 0 < cvtCount 2 ∧ (0 * cvtCount 0 + cvtCount 0 ≤ cvtCount 2) ∧ (1 * cvtCount 0 + cvtCount 0 ≤ cvtCount 2))
    ∧ ((5 : BitVec 4).toNat = 5 ∧ cvtCount 0 = 64 ∧ 3 * cvtCount 0 + cvtCount 0 ≤ 256 ∧ Issues (.vcvt { yV with ty := 5 }) r)
    ∧ (-126 ≤ -((126 : Nat) : Int) ∧ -((126 : Nat) : Int) ≤ 127 ∧ (128 : Int) ≤ ((128 : Nat) : Int) ∧ -((150 : Nat) : Int) < -149
      ∧ (((3 : Nat) : Int) + (-4098)).natAbs < 2 ^ 12 ∧ 0 < 1) := by
  repeat' apply And.intro
  all_goals first | decide +kernel | exact ok_of (by decide +kernel) | exact issues_of (by decide +kernel) | exact issues_all (by decide +kernel) | exact ⟨[], by decide +kernel⟩ | rfl

theorem witness_VectorReductionsAndScans :
    (∀ i ∈ atSyl yV [.vredsum, .vredmin, .vredmax, .vscansum, .vscanmin, .vscanmax], Issues i r) ∧ RowOps r yV 32
    ∧ (bit yV.form 2 = false ∧ 2 ^ 6 = 2048 / (elemFmt yV.ty).width ∧ 2 ^ 7 = 2048 / (elemFmt 1).width)
    ∧ (bit ({ yV with form := 4 } : Syl).form 2 = true ∧ ∀ i ∈ atSyl { yV with form := 4 } [.vredsum, .vscansum], Issues i r)
    ∧ (bit ({ yV with form := 16 } : Syl).form 4 = true ∧ Issues (.vredsum { yV with form := 16 }) r) := by
  repeat' apply And.intro
  all_goals first | decide +kernel | exact ok_of (by decide +kernel) | exact issues_of (by decide +kernel) | exact issues_all (by decide +kernel) | exact ⟨[], by decide +kernel⟩ | rfl

theorem witness_VectorPackPermuteMove :
    (∀ i ∈ atSyl yV [.vcomp, .vexpd, .vperm, .vzipl, .vziph, .vuzpe, .vuzpo, .vrotr, .vsplat, .viota, .vrand, .vext, .vins, .vmov], Issues i r)
    ∧ RowOps r yV (modeWidth yV.ty) ∧ r.writable (.w (fieldNo yV.s2 % 64)) = .ok () ∧ src2W r yV = .ok 0 ∧ readA r yV.s1 = .ok 0 ∧ readW r yV.s1 = .ok 0
    ∧ readW r yV.s2 = .ok 0 ∧ readW r yV.s3 = .ok 0 ∧ readRowKey r (r.vKey 0) = .ok 0 ∧ (0 : W32).toNat < 2048 / modeWidth yV.ty
    ∧ (src2W (withMe { t0 with w := [(1, 64)] }) { yV with s2 := .reg 1 } = .ok 64 ∧ 2048 / modeWidth yV.ty ≤ (64 : W32).toNat
      ∧ Issues (.vext { yV with s2 := .reg 1 }) (withMe { t0 with w := [(1, 64)] }) ∧ Issues (.vins { yV with s2 := .reg 1 }) (withMe { t0 with w := [(1, 64)] }))
    ∧ (laneOn 32 0 0 = false ∧ laneOn 32 1 0 = true) := by
  repeat' apply And.intro
  all_goals first | decide +kernel | exact ok_of (by decide +kernel) | exact issues_of (by decide +kernel) | exact issues_all (by decide +kernel) | exact ⟨[], by decide +kernel⟩ | rfl

/-- Accumulators 0 and 1: with four operations, with one, and poisoned. -/
def opSet : PpOp := ⟨.const 0, 0, false, 0, 0⟩
def accs (n : Nat) (p : Bool) : State := withCore (k0.setAcc 0 { k0.acc 0 with ops := List.replicate n opSet, psn := p })
theorem witness_AccumulatorInstructions :
    (∀ i ∈ atSyl yL [.ppset, .ppscl, .ppdeg, .ppmul, .ppdiv, .ppmulv, .ppmrg, .ppwr, .pprd, .pprdx, .pprdst], Issues i r)
    ∧ src2W r yL = .ok 0 ∧ readW r yL.s1 = .ok 0 ∧ RowOps r yL (if yL.ty = 0 then 32 else 16) ∧ readW r yL.s2 = .ok 0 ∧ readW r yL.s3 = .ok 0
    ∧ ((r.myCore.acc 0).ops.length < 4 ∧ 4 ≤ ((accs 4 false).myCore.acc 0).ops.length ∧ Issues (.ppset yL) (accs 4 false))
    ∧ (src2W r { yX with lit := 64 } = .ok 64 ∧ Issues (.ppdeg { yX with lit := 64 }) r ∧ 63 < (64 : W32).toNat ∧ (63 : W32).toNat ≤ 63)
    ∧ (((accs 1 false).myCore.acc (fieldNo yL.s1)).ops ≠ [] ∧ (∀ i ∈ atSyl yL [.ppmrg, .pprd, .pprdx, .pprdst], Issues i (accs 1 false)))
    ∧ ((r.myCore.acc (fieldNo yL.s1)).ops = [] ∧ (r.myCore.acc (fieldNo yL.s1)).psn = false)
    ∧ (((accs 0 true).myCore.acc 0).ops = [] ∧ ((accs 0 true).myCore.acc 0).psn = true ∧ ∀ i ∈ atSyl yL [.pprd, .pprdx], Issues i (accs 0 true))
    ∧ ((64 : Nat) / 64 % 4 ≠ 0 ∧ (0 : W32).toNat / 64 % 4 = 0 ∧ (0xF3F : W32).toNat / 64 % 4 = 0 ∧ (0xF3F : W32).toNat < 2 ^ 12)
    ∧ r.writable (.row (r.vKey 0)) = .ok () := by
  repeat' apply And.intro
  all_goals first | decide +kernel | exact ok_of (by decide +kernel) | exact issues_of (by decide +kernel) | exact issues_all (by decide +kernel) | exact ⟨[], by decide +kernel⟩ | rfl

/-- Accumulator 0 of unit 0 with these operations queued. -/
def queuedOps (l : List PpOp) : State := withCore (k0.setAcc 0 { k0.acc 0 with ops := l })
def opOf (k : PpKind) : PpOp := ⟨k, 0, false, 0, 0⟩
abbrev headOf (k : PpKind) : Prop := ((queuedOps [opOf k]).core 0).acc 0 = { k0.acc 0 with ops := [opOf k] } ∧ ((queuedOps [opOf k]).core 0).mergePending 0 = false
theorem witness_PpaOperationsApplyInQueueOrder :
    headOf (.factors [(0, 0, 0)]) ∧ headOf (.merge 1) ∧ headOf (.remove 0 0) ∧ headOf (.const 0) ∧ headOf (.degree 3) ∧ headOf (.scale 1) ∧ headOf (.load 0 0 0)
    ∧ ((f32.decode 0).isZero = true ∧ (f32.decode 0x7F800000).isFinite = false ∧ (1 : Nat) % 2 ^ 31 < 2 % 2 ^ 31)
    ∧ (let big : PpAcc := { k0.acc 0 with c := [(0, 0x5F800000)] }
      magBelow (big.val 0) 64 = false ∧ 0 ≤ big.deg.toNat ∧ big.scl.toInt + 64 < 2 ^ 31)
    ∧ (let small : PpAcc := { k0.acc 0 with c := [(0, 0x1F7FFFFF)], deg := 0 }
      small.deg = 0 ∧ magBelow (small.val 0) (-64) = true ∧ (small.val 0).isNan = false ∧ (small.val 0).isZero = false ∧ magBelow (small.val 0) 64 = true
        ∧ -(2 ^ 31) ≤ small.scl.toInt - 64)
    ∧ (let one : PpAcc := { k0.acc 0 with c := [(0, 0x3F800000)] }
      magBelow (one.val 0) 64 = true ∧ magBelow (one.val 0) (-64) = false) := by
  repeat' apply And.intro
  all_goals decide +kernel

/-- A command of payload p, its entry, and a state whose queue of that engine has it at the head: the FIFO slots are FULL with FP16
data, tensor 0 is a local FP32 tensor of 64 by 64 at 0, tensor 1 one of FP16, tensor 2 a selector of 64 by 64. -/
def cmd (p : Nat) : Cmd := { c0 with pay := BitVec.ofNat 128 p }
def entry (op : Nat) (c : Cmd) : QEntry := ⟨1, encodeCmd op c, 0, 0, false, 0, 0, none, false, BitVec.allOnes 64, false⟩
def slotsOf (st : SlotState) (spr : Bool) : List (Nat × FSlot) := (List.range 4).map (fun k => (k, { FSlot.reset with state := st, fmt := 2, spr := spr }))
def tensorBits (fmt : Nat) : BitVec 256 := BitVec.ofNat 256 (fmt + 2 ^ 5 + 127 * 2 ^ 8 + 63 * 2 ^ 16 + 63 * 2 ^ 32 + 256 * 2 ^ 128)
def engineCore (e : Nat) (st : SlotState) (spr : Bool) (x : QEntry) : Core :=
  { k0.setQueue e { Queue.reset with entries := [x], nx := 1 } with
    tlb := [page0], fifoA := slotsOf st spr, fifoB := slotsOf st false, tids := [(0, tensorBits 0), (1, tensorBits 2)] }
def engine (e op : Nat) (c : Cmd) : State := paged.setCore 0 (engineCore e .full false (entry op c))
def sparseEngine (c : Cmd) : State := paged.setCore 0 (engineCore 0 .full true (entry 2 c))
def emptySlots (op : Nat) (c : Cmd) : State := paged.setCore 0 (engineCore 1 .empty false (entry op c))
def qE (e : BitVec 5) : QRef := ⟨0, e⟩
/-- The same with tensor 0 in global memory and no translation held: it faults, or, behind an eviction, it waits. -/
def globalCore (e op : Nat) (c : Cmd) : Core :=
  { engineCore e .full false (entry op c) with tlb := [], tids := [(0, tensorBits 0 + 16), (1, tensorBits 2 + 16)], fifoA := [], fifoB := [] }
def faulting (e op : Nat) (c : Cmd) : State := paged.setCore 0 (globalCore e op c)
def waiting (e op : Nat) (c : Cmd) : State := evicting.setCore 0 (globalCore e op c)
/-- All ranges can be reached. -/
def reached {α β : Type} (x : Except α β × State) : Bool := match x.1 with | .ok _ => true | .error _ => false
/-- What stopped them: nothing, a fault, or a wait. -/
def stops {β : Type} (x : Except CmdErr β × State) (wait : Bool) : Bool := match x.1 with | .ok _ => false | .error e => (e.status == stWait) == wait

theorem witness_MatrixCommandsRun :
    Takes (qE 0) 1 (cmd 0x80) (engine 0 1 (cmd 0x80)) (entry 1 (cmd 0x80))
    ∧ (preOf (qE 0) 1 (cmd 0x80) (engine 0 1 (cmd 0x80)) (entry 1 (cmd 0x80)) = none
      ∧ stepStatus (cmd 0x80) ((engine 0 1 (cmd 0x80)).core 0) false = stOk ∧ stepStatus (cmd 0x40) ((engine 0 1 (cmd 0x80)).core 0) false = stBadField)
    ∧ Takes (qE 0) 2 (cmd 0x80) (sparseEngine (cmd 0x80)) (entry 2 (cmd 0x80))
    ∧ Takes (qE 0) 3 (cmd 0) (engine 0 3 (cmd 0)) (entry 3 (cmd 0)) ∧ preOf (qE 0) 3 (cmd 0) (engine 0 3 (cmd 0)) (entry 3 (cmd 0)) = none
    ∧ (Takes (qE 0) 3 (cmd 8) (engine 0 3 (cmd 8)) (entry 3 (cmd 8)) ∧ field (cmd 8).pay 31 3 ≠ 0)
    ∧ (let x := { entry 3 (cmd 0) with failed := true }
      Takes (qE 0) 3 (cmd 0) (paged.setCore 0 (engineCore 0 .full false x)) x
        ∧ (preOf (qE 0) 3 (cmd 0) (paged.setCore 0 (engineCore 0 .full false x)) x).isSome = true)
    ∧ (Takes (qE 0) 4 (cmd 0) (engine 0 4 (cmd 0)) (entry 4 (cmd 0)) ∧ preOf (qE 0) 4 (cmd 0) (engine 0 4 (cmd 0)) (entry 4 (cmd 0)) = none
      ∧ windowStatus ((engine 0 4 (cmd 0)).core 0) (windowOf (cmd 0)) (cmd 0) true = stOk
      ∧ windowStatus ((engine 0 4 (cmd 0)).core 0) (windowOf (cmd 8)) (cmd 8) true ≠ stOk
      ∧ reached (((engine 0 4 (cmd 0)).turned (qE 0) 4 (cmd 0)).touchAll paged.who true .read
          ((((engine 0 4 (cmd 0)).core 0).tens 0).ranges 0 1 0 1)) = true)
    ∧ (Takes (qE 0) 5 (cmd 0) (engine 0 5 (cmd 0)) (entry 5 (cmd 0))
      ∧ (preOf (qE 0) 5 (cmd 0) (engine 0 5 (cmd 0)) (entry 5 (cmd 0))).getD (windowStatus ((engine 0 5 (cmd 0)).core 0) (windowOf (cmd 0)) (cmd 0) false) = stOk
      ∧ (windowOf (cmd 0)).rowBad ((engine 0 5 (cmd 0)).core 0) 0 = false)
    ∧ (let w := windowOf (cmd 0)
      let touch (s : State) (op : Nat) (a : Acc) := (s.turned (qE 0) op (cmd 0)).touchAll ((s.turned (qE 0) op (cmd 0)).cmdWho (ctxOf (qE 0) op (cmd 0) s (entry op (cmd 0))))
        (!((s.core 0).tens 0).glob) a (w.reach ((s.core 0).tens 0))
      stops (touch (faulting 0 4 (cmd 0)) 4 .read) false = true ∧ stops (touch (waiting 0 4 (cmd 0)) 4 .read) true = true
        ∧ stops (touch (faulting 0 5 (cmd 0)) 5 .write) false = true ∧ stops (touch (waiting 0 5 (cmd 0)) 5 .write) true = true
        ∧ windowStatus ((faulting 0 4 (cmd 0)).core 0) w (cmd 0) true = stOk ∧ Takes (qE 0) 4 (cmd 0) (waiting 0 4 (cmd 0)) (entry 4 (cmd 0)))
    ∧ (((engine 0 4 (cmd 0)).poisonKeys [spadKey 0 0]).engPoison [spadKey 0 0] = true
      ∧ (let c := { engineCore 0 .full false (entry 5 (cmd 0)) with badElems := [64 * rowKey 0 0] }
        (windowOf (cmd 0)).rowBad c 0 = true ∧ windowStatus c (windowOf (cmd 0)) (cmd 0) false = stOk)
      ∧ (windowOf (cmd 8)).dz = true ∧ (windowOf (cmd 0)).dz = false) := by
  repeat' apply And.intro
  all_goals first | decide +kernel | exact ⟨[], by decide +kernel⟩

/-- COPY of 32 bytes from scratchpad 0 to scratchpad 64; and the same with an odd source, and onto itself. -/
def copyPay (src dst : Nat) : Cmd := cmd (src + 2 ^ 57 + dst * 2 ^ 64 + 2 ^ 121)
/-- A feed of tensor 1 into slot A 0, for position 0. -/
def feedPay : Cmd := cmd 1
theorem witness_CopyFeedGatherAndNotifyCommandsRun :
    (Takes (qE 1) 0x10 (copyPay 0 64) (engine 1 0x10 (copyPay 0 64)) (entry 0x10 (copyPay 0 64))
      ∧ preOf (qE 1) 0x10 (copyPay 0 64) (engine 1 0x10 (copyPay 0 64)) (entry 0x10 (copyPay 0 64)) = none
      ∧ reached (((engine 1 0x10 (copyPay 0 64)).turned (qE 1) 0x10 (copyPay 0 64)).touch paged.who true .read 0 32) = true
      ∧ reached (((engine 1 0x10 (copyPay 0 64)).turned (qE 1) 0x10 (copyPay 0 64)).touch paged.who true .write 64 32) = true)
    ∧ (stops ((faulting 1 0x10 (cmd 0)).touch paged.who false .read 0 32) false = true ∧ stops ((waiting 1 0x10 (cmd 0)).touch evicting.who false .read 0 32) true = true
      ∧ ((engine 1 0x10 (copyPay 0 64)).poisonKeys [spadKey 0 0]).engPoison [spadKey 0 0] = true)
    ∧ (let w (s : State) := ((s.core 0).setFifos false []).eng.isEmpty
      let fill (s : State) := (s.feedFill (ctxOf (qE 1) 0x11 feedPay s (entry 0x11 feedPay)) (feedArgs feedPay)).1.status
      w (waiting 1 0x11 feedPay) = true ∧ fill (waiting 1 0x11 feedPay) = stWait ∧ fill (faulting 1 0x11 feedPay) ≠ stWait)
    ∧ (Takes (qE 1) 0x10 (copyPay 8 64) (engine 1 0x10 (copyPay 8 64)) (entry 0x10 (copyPay 8 64)) ∧ 8 % 32 ≠ 0)
    ∧ (Takes (qE 1) 0x10 (copyPay 32 32) (engine 1 0x10 (copyPay 32 32)) (entry 0x10 (copyPay 32 32)))
    ∧ (Takes (qE 1) 0x10 (copyPay (2 ^ 21) 0) (engine 1 0x10 (copyPay (2 ^ 21) 0)) (entry 0x10 (copyPay (2 ^ 21) 0)) ∧ 2 ^ 21 < 2 ^ 21 + 32)
    ∧ (Takes (qE 1) 0x11 feedPay (emptySlots 0x11 feedPay) (entry 0x11 feedPay) ∧ feedStatus ((emptySlots 0x11 feedPay).core 0) (feedArgs feedPay) feedPay false = stOk
      ∧ (((emptySlots 0x11 feedPay).core 0).fifo false 0).state = .empty ∧ rpA ((emptySlots 0x11 feedPay).core 0) = 0
      ∧ preOf (qE 1) 0x11 feedPay (emptySlots 0x11 feedPay) (entry 0x11 feedPay) = none)
    ∧ (Takes (qE 1) 0x11 feedPay (engine 1 0x11 feedPay) (entry 0x11 feedPay) ∧ (((engine 1 0x11 feedPay).core 0).fifo false 0).state ≠ .empty)
    ∧ (2 ^ 31 ≤ ((2 ^ 32 - 1 : Nat) + 2 ^ 32 - 0) % 2 ^ 32 ∧ (feedArgs (cmd (1 + (2 ^ 32 - 1) * 2 ^ 48))).pos = 2 ^ 32 - 1)
    ∧ (feedStatus ((emptySlots 0x11 (cmd 0)).core 0) (feedArgs (cmd 0)) (cmd 0) false ≠ stOk)
    ∧ Takes (qE 1) 0x12 feedPay (emptySlots 0x12 feedPay) (entry 0x12 feedPay)
    ∧ (let c := cmd (2 ^ 57 + 2 ^ 117 * 2 + 0x100 * 2 ^ 96)
      Takes (qE 3) 0x20 c (engine 3 0x20 c) (entry 0x20 c) ∧ preOf (qE 3) 0x20 c (engine 3 0x20 c) (entry 0x20 c) = none
        ∧ field c.pay 63 58 = 0 ∧ field c.pay 127 120 = 0 ∧ (gaArgs c).n = 1 ∧ (gaArgs c).size = 4 ∧ Takes (qE 3) 0x21 c (engine 3 0x21 c) (entry 0x21 c)
        ∧ reached (((engine 3 0x20 c).turned (qE 3) 0x20 c).touch paged.who true .read 0 4) = true)
    ∧ (Takes (qE 0) 0x3F (cmd 0) (engine 0 0x3F (cmd 0)) (entry 0x3F (cmd 0)) ∧ preOf (qE 0) 0x3F (cmd 0) (engine 0 0x3F (cmd 0)) (entry 0x3F (cmd 0)) = none)
    ∧ (let c := cmd (2 ^ 57 + 5 * 2 ^ 64)
      Takes (qE 0) 0x3F c (engine 0 0x3F c) (entry 0x3F c) ∧ reached (((engine 0 0x3F c).turned (qE 0) 0x3F c).touch paged.who false .write 0 8) = true)
    ∧ (Takes (qE 1) 0x13 (cmd 0) (engine 1 0x13 (cmd 0)) (entry 0x13 (cmd 0)) ∧ preOf (qE 1) 0x13 (cmd 0) (engine 1 0x13 (cmd 0)) (entry 0x13 (cmd 0)) = none
      ∧ (paged.strand 0 0).circctx.getLsbD 3 = true)
    ∧ (let s := ((engine 1 0x13 (cmd 0)).setStrand 0 0 { t0 with circctx := 0 })
      Takes (qE 1) 0x13 (cmd 0) s (entry 0x13 (cmd 0)) ∧ ((s.seqOf 0).handle 0).state ≠ .live)
    ∧ (let c := cmd (2 ^ 50)
      let s := (((engine 1 0x13 c).setStrand 0 0 { t0 with circctx := 0 }).setSeq 0 { Seq.reset with
        loaded := true, handles := [(0, { Handle.reset with state := .live, gen := 1, sport := 0, dport := 8 })] })
      Takes (qE 1) 0x13 c s (entry 0x13 c) ∧ ((s.seqOf 0).handle 0).state = .live ∧ portDie 0 = dirDie 0 ∧ portDie 8 < 8
        ∧ s.unitPresent (dieUnit (portDie 8) 0 0) = true ∧ reached ((s.turned (qE 1) 0x13 c).touch s.who true .read 0 32) = true)
    ∧ (let live (s : State) := ((s.setStrand 0 0 { t0 with circctx := 0 }).setSeq 0 { Seq.reset with
        loaded := true, handles := [(0, { Handle.reset with state := .live, gen := 1, sport := 0, dport := 8 })] })
      let s := live (engine 1 0x13 (cmd 0))
      let behind := live (waiting 1 0x13 (cmd 0))
      Takes (qE 1) 0x13 (cmd 0) s (entry 0x13 (cmd 0)) ∧ Takes (qE 1) 0x13 (cmd 0) behind (entry 0x13 (cmd 0)) ∧ field (cmd 0).pay 50 50 = 0
        ∧ (s.turned (qE 1) 0x13 (cmd 0)).wrongHome s.who 1 0 32 = true ∧ (s.turned (qE 1) 0x13 (cmd 0)).pieceWaits s.who 0 = false
        ∧ (behind.turned (qE 1) 0x13 (cmd 0)).pieceWaits behind.who 0 = true) := by
  repeat' apply And.intro
  all_goals first | decide +kernel | exact ⟨[], by decide +kernel⟩

/-- An engine of queue 0 that has run NOTIFY to an end with this outcome. -/
def done (o : CmdOut) : State := paged.setCore 0 { k0.setQueue 0 { Queue.reset with entries := [entry 0x3F (cmd 0)], nx := 1 } with
  eng := [(0, ⟨0, 1, 0x3F, 0, some o, none, false, []⟩)] }
def ok0 : CmdOut := CmdOut.plain stOk 0
theorem witness_CommandsComplete :
    (((done ok0).core 0).queue 0).entries = entry 0x3F (cmd 0) :: [] ∧ (((done ok0).core 0).queue 0).frozen = false
    ∧ ((done ok0).core 0).eng.find? (fun (p : Nat × EngRun) => p.2.queue == 0) = some (0 % 4, ⟨0, 1, 0x3F, 0, some ok0, none, false, []⟩)
    ∧ (done ok0).completionWaits 0 ok0 = false ∧ (done ok0).lostCheck ok0 = ok0 ∧ (done ok0).outFull 0 0 ok0 = false
    ∧ (∀ cell ∈ ok0.cells, (done ok0).homeLost cell.1 = false ∧ (done ok0).pinGone cell.1 = false)
    ∧ (∃ cell ∈ ({ ok0 with cells := [(pinKey 0 (16 * 3 * 2 ^ 20), 1)] } : CmdOut).cells, (done ok0).pinGone cell.1 = true)
    ∧ ((⟨0, 1, 0x10, 0, none, none, true, []⟩ : EngRun).rung = true ∧ (CmdOut.plain stXlateFault 0).status = stXlateFault)
    ∧ (let s := { done ok0 with homes := { r.homes with lost := [0] } }
      ∃ cell ∈ ({ ok0 with cells := [(0x008000000000, 1)] } : CmdOut).cells, s.homeLost cell.1 = true)
    ∧ (let c := k0.setQueue 0 { Queue.reset with entries := [entry 0x3F (cmd 0)], nx := 1, frozen := true }
      (c.queue 0).frozen = true)
    ∧ (ok0.status = stOk ∧ ok0.release = none ∧ ok0.fills = [] ∧ ok0.drain = none)
    ∧ ((CmdOut.plain stBadField 0).status ≠ stOk ∧ (CmdOut.plain stBadField 0).status ≠ stSkipped)
    ∧ (({ ok0 with release := some 1 } : CmdOut).release = some 1 ∧ ({ ok0 with drain := some (0, false, false) } : CmdOut).drain = some (0, false, false))
    ∧ (let s := withCore { k0 with chainLock := true, cycle := 64 }
      (s.core 0).chainLock = true ∧ Table.get 0 (s.core 0).served 0 = 0 ∧ Table.has (s.core 0).eng 0 = false
        ∧ 64 ≤ ((s.core 0).cycle - (s.core 0).chainAt).toNat ∧ s.cmdReady 0 0 = false) := by
  repeat' apply And.intro
  all_goals decide +kernel

/-- A PACC of unit 0 with unit 16, the other way round, and one of unit 0 with itself. -/
def paccC (v : Nat) : Cmd := cmd (v / 16 * 2 ^ 8 + v % 16 * 2 ^ 16)
def pMsg (k : PairKind) (src : Nat) : PairMsg := ⟨k, src, 0, false, 0, 0, false, 0, []⟩
/-- Unit u has a PACC with v under way, with these messages and this buffer. -/
def pairing (u : UnitNo) (v : Nat) (inbox : List PairMsg) (buf : Option PairMsg) (cycle : W64) : State :=
  r.setCore u { (r.core u).setQueue 0 { Queue.reset with entries := [entry 6 (paccC v)], nx := 1 } with
    eng := [(0, ⟨0, 1, 6, 0, none, some (pMsg .data u.toNat), false, []⟩)], pair := { PairUnit.reset with inbox := inbox, buf := buf }, cycle := cycle }
/-- No PACC is under way at unit 0. -/
def idlePair (m : PairMsg) : State := withCore { k0 with pair := { PairUnit.reset with inbox := [m] } }
def without (s : State) (u : UnitNo) (m : PairMsg) : State := s.setPairUnit u.toNat { (s.core u).pair with inbox := (s.core u).pair.inbox.erase m }
abbrev delivered (s : State) (u : UnitNo) (k : PairKind) (src : Nat) : Prop := Delivers s u k (pMsg k src) (without s u (pMsg k src))
theorem witness_PairedAccumulate :
    (Takes (qE 0) 6 (paccC 16) (engine 0 6 (paccC 16)) (entry 6 (paccC 16)) ∧ preOf (qE 0) 6 (paccC 16) (engine 0 6 (paccC 16)) (entry 6 (paccC 16)) = none)
    ∧ (let s := (r.setCore 0 (engineCore 0 .full false (entry 6 (paccC 16))))
      Takes (qE 0) 6 (paccC 16) s (entry 6 (paccC 16)) ∧ paccBadField 0 (paccC 16) = false ∧ s.unitPresent 16 = true ∧ s.unitPart 16 = s.unitPart 0
        ∧ (∀ i, i < 64 → (s.core 0).rowBad (rowKey 0 i) = false) ∧ (s.core 0).pair.heldAborts = [])
    ∧ paccBadField 0 (paccC 1) = true
    ∧ ((pairing 0 16 [] none 0).core 0).openPacc.isSome = true ∧ lowerSide 0 16 = true ∧ lowerSide 16 0 = false
    ∧ pairEqual (pMsg .data 0) (pMsg .data 16) = true ∧ pairEqual (pMsg .data 0) { pMsg .data 16 with tag := 1 } = false
    ∧ (delivered (pairing 0 16 [pMsg .data 16] none 0) 0 .data 16 ∧ (0 : Byte) ∉ ((pairing 0 16 [pMsg .data 16] none 0).core 0).pair.aborted
      ∧ ((pairing 0 16 [pMsg .data 16] none 0).core 0).pair.buf = none)
    ∧ delivered (pairing 16 0 [pMsg .commit 0] (some (pMsg .data 0)) 0) 16 .commit 0 ∧ ((pairing 16 0 [pMsg .commit 0] (some (pMsg .data 0)) 0).core 16).pair.buf = some (pMsg .data 0)
    ∧ delivered (pairing 16 0 [pMsg .mismatch 0] none 0) 16 .mismatch 0 ∧ delivered (pairing 16 0 [pMsg .abort 0] none 0) 16 .abort 0
    ∧ delivered (pairing 16 0 [pMsg .faulted 0] none 0) 16 .faulted 0
    ∧ (delivered (idlePair (pMsg .abort 16)) 0 .abort 16 ∧ ((idlePair (pMsg .abort 16)).core 0).openPacc = none)
    ∧ delivered (pairing 0 16 [pMsg .withdraw 16] (some (pMsg .data 16)) 0) 0 .withdraw 16 ∧ delivered (idlePair (pMsg .closed 16)) 0 .closed 16
    ∧ (delivered (idlePair (pMsg .parked 16)) 0 .parked 16 ∧ ((idlePair (pMsg .parked 16)).core 0).openWith (pMsg .parked 16) = none)
    ∧ (delivered (pairing 0 16 [pMsg .parked 16] none 0) 0 .parked 16 ∧ ((pairing 0 16 [pMsg .parked 16] none 0).core 16).pair.saved = false)
    ∧ (let s := (pairing 0 16 [pMsg .parked 16] none 0).setPairUnit 16 { PairUnit.reset with saved := true }
      delivered s 0 .parked 16 ∧ (s.core 16).pair.saved = true ∧ (s.core 0).openWith (pMsg .parked 16) ≠ none)
    ∧ (let m := { pMsg .faulted 16 with after := true }
      (Delivers (pairing 0 16 [m] none 0) 0 .faulted m (without (pairing 0 16 [m] none 0) 0 m) ∧ ((pairing 0 16 [m] none 0).core 0).pair.buf = none)
        ∧ (let s := pairing 0 16 [m] (some (pMsg .data 16)) 0
          Delivers s 0 .faulted m (without s 0 m) ∧ (s.core 0).pair.buf = some (pMsg .data 16) ∧ (pMsg .data 16).src = m.src))
    ∧ (let s := (idlePair (pMsg .faulted 16)).setPairUnit 0 { ((idlePair (pMsg .faulted 16)).core 0).pair with aborted := [0] }
      delivered s 0 .faulted 16 ∧ lowerSide 0 16 = true ∧ (s.core 0).openPacc = none ∧ (0 : Byte) ∈ (s.core 0).pair.aborted)
    ∧ (let s := pairing 16 0 [pMsg .commit 0] (some (pMsg .data 0)) 0
      let s := s.setPairUnit 16 { (s.core 16).pair with bad := true }
      delivered s 16 .commit 0 ∧ (s.core 16).pair.buf = some (pMsg .data 0) ∧ (s.core 16).pair.bad = true)
    ∧ ((⟨0, 1, 6, 0, none, none, false, []⟩ : EngRun).op = 0x06 ∧ ({ PairUnit.reset with keptFor := [0] } : PairUnit).keptFor = [0] ∧ (∀ e ∈ k0.eng, e.1 = 0 → e.2.op ≠ 0x06))
    ∧ ((((pairing 0 16 [] none 0xFFFFFFFF).cluster 0).pairto).toNat ≤ (((pairing 0 16 [] none 0xFFFFFFFF).core 0).cycle - 0).toNat)
    ∧ ((pairing 0 16 [] none 0).core 0).pair.pausedAt = none ∧ ((pairing 0 16 [] none 0).core 0).pair.saved = false := by
  repeat' apply And.intro
  all_goals first | decide +kernel | exact ⟨[], by decide +kernel⟩

/-- Strand 3 of core 0 is READY; strand 0 is RUNNING with a full quantum; BLOCKED on a cycle that has come; with a trap held. -/
def ready3 : State := r.setStrand 0 3 { t0 with run := .ready }
def quantum (n : Nat) : State := (withCore { k0 with active := some 0 }).setStrand 0 0 { t0 with run := .running, runLen := n }
def blocked : State := withMe { t0 with run := .blocked, wait := .cycle 0 }
def heldTrap : State := withMe { t0 with run := .ready, held := [⟨0x21, 0, 0, 0, false⟩] }
def heldLoad : State := withMe { heldTrap.strand 0 0 with lq := [⟨1, .load [] .loc (.w 0) 0 0 0 false []⟩] }
/-- A trap waits to be entered; these loads have failed, and of them those numbered so had failed before it. -/
def entry0 (seen : List Nat) : Entering := ⟨⟨0x06, false, 2, 0, 0, 0, 0, 0, 4⟩, seen, none⟩
def late : BadDest := ⟨1, .w 0, false, causePoison, 8, 0⟩
def entering (bad : List BadDest) (seen : List Nat) : State := withMe { t0 with run := .ready, bad := bad, entering := some (entry0 seen) }
theorem witness_RunsWakesAndHeldTraps :
    ((ready3.core 0).active = none ∧ (ready3.core 0).group = none ∧ (ready3.strand 0 3).run = .ready ∧ (ready3.core 0).stoppedEngines = false
      ∧ ready3.mayReach 0 (ready3.core 0).runAt = true ∧ (∀ j : StrandNo, (ready3.strand 0 j).run = .ready → j.toNat ∉ (ready3.core 0).woken)
      ∧ (∀ j : StrandNo, (ready3.strand 0 j).run = .ready → ((3 : StrandNo) - (ready3.core 0).lastRun - 1).toNat ≤ (j - (ready3.core 0).lastRun - 1).toNat)
      ∧ (ready3.core 0).cycle.toNat < 2 ^ 63 ∧ (ready3.core 0).gapEnd.toNat < 2 ^ 63)
    ∧ (((quantum 512).core 0).active = some 0 ∧ 512 ≤ ((quantum 512).strand 0 0).runLen ∧ (quantum 512).nextReadsLatch 0 0 = false
      ∧ 544 ≤ ((quantum 544).strand 0 0).runLen)
    ∧ ((blocked.strand 0 0).run = .blocked ∧ blocked.waitOver 0 0 = true
      ∧ (blocked.core 0).active = none ∧ (∀ j, (blocked.strand 0 j).run ≠ .ready) ∧ (blocked.core 0).gapEnd.toNat ≤ (blocked.core 0).cycle.toNat)
    ∧ (heldTrap.asyncDue 0 0 = true ∧ (heldTrap.strand 0 0).entryWaits = false ∧ (heldTrap.strand 0 0).held = ⟨0x21, 0, 0, 0, false⟩ :: [])
    ∧ ((heldLoad.asyncDue 0 0 = true ∧ (heldLoad.strand 0 0).entryWaits = true)
      ∧ (((entering [late] []).strand 0 0).entering = some (entry0 []) ∧ ((entering [late] []).strand 0 0).run ≠ .halted
        ∧ ((entering [late] []).strand 0 0).run ≠ .stopped ∧ ((entering [late] []).strand 0 0).entryWaits = false
        ∧ ((entering [late] []).strand 0 0).bad.find? (fun b => !b.taken && !(entry0 []).seen.contains b.seq) = some late)
      ∧ ((entering [late] [1]).strand 0 0).bad.find? (fun b => !b.taken && !(entry0 [1]).seen.contains b.seq) = none
      ∧ (entry0 [1]).info.async = false ∧ (entry0 [1]).own = none) := by
  repeat' apply And.intro
  all_goals decide +kernel

/-- Strand 0 with these heads of its queues. -/
def heads (l : List LqItem) (q : List SqItem) : State := paged.setStrand 0 0 { t0 with lq := l, sq := q }
def aAdd : AtomicOp := ⟨0, .loc, spadKey 0 8, 4, 1, 0, 0, 0, false, .w 1, 0xF, 8, 0⟩
def farIn : FarIn := ⟨3, 0, .store 7 0x008000000000 [1]⟩
/-- Pieces come apart wherever the free value brings some bytes of an access and not the others. -/
theorem somePieces_apart {s : State} {keys : List Nat} (n : 8 < keys.length) (a : ∃ k ∈ keys, Config.pieceDone s.tick (k / 8) = true)
    (b : ∃ k ∈ keys, Config.pieceDone s.tick (k / 8) = false) : s.somePieces keys ≠ [] := by
  obtain ⟨k, hk, e⟩ := a
  obtain ⟨j, hj, f⟩ := b
  have h1 : keys.filter (fun a => Config.pieceDone s.tick (a / 8)) ≠ [] := List.ne_nil_of_mem (List.mem_filter.2 ⟨hk, e⟩)
  have h2 : (keys.filter (fun a => Config.pieceDone s.tick (a / 8))).length < keys.length :=
    List.length_filter_lt_length_iff_exists.2 ⟨j, hj, by simp [f]⟩
  simp [State.somePieces, h1, Nat.not_le.2 n, Nat.ne_of_lt h2]
theorem witness_QueueEntriesTakeEffect :
    (let g : LqKind := .load [(spadKey 0 8, 4)] .loc (.w 1) 0 8 0 false []
      let s := heads [⟨1, g⟩] []
      LoadHead s 0 0 1 g ∧ s.postedOlder (s.strand 0 0) 1 .loc [(spadKey 0 8, 4)] = false ∧ ReadsNow s 0 .loc (segKeys [(spadKey 0 8, 4)])
        ∧ s.reqsOf 0 0 1 = [] ∧ isFar (spadKey 0 8) = false ∧ (∀ a ∈ segKeys [(spadKey 0 8, 4)], s.loadPoisoned 0 t0 1 .loc a = false)
        ∧ s.somePieces (segKeys [(spadKey 0 8, 4)]) = [])
    ∧ (r.poisonKeys [spadKey 0 8]).loadPoisoned 0 t0 1 .loc (spadKey 0 8) = true ∧ spadKey 0 8 < 2 ^ 62
    ∧ (let q : SqKind := .store [(spadKey 0 8, 1)] .loc 8 [] false
      let s := heads [] [⟨1, q⟩]
      StoreHead s 0 0 1 q ∧ s.loadOlder (s.strand 0 0) 1 .loc [spadKey 0 8] = false ∧ WritesNow s 0 .loc [spadKey 0 8]
        ∧ s.somePieces [spadKey 0 8] = [])
    ∧ (r.liveKey (spadKey 0 8) = spadKey 0 8 ∧ r.pinGone (spadKey 0 8) = false ∧ [spadKey 0 8].Nodup)
    ∧ (LoadHead (heads [⟨1, .atomic⟩] [⟨1, .atomic aAdd false⟩]) 0 0 1 .atomic ∧ StoreHead (heads [⟨1, .atomic⟩] [⟨1, .atomic aAdd false⟩]) 0 0 1 (.atomic aAdd false)
      ∧ WritesNow (heads [⟨1, .atomic⟩] [⟨1, .atomic aAdd false⟩]) 0 .loc aAdd.keys ∧ isFar aAdd.key = false ∧ (∀ b ∈ aAdd.keys, r.poisoned b = false))
    ∧ (StoreHead (heads [] [⟨1, .posted aAdd false⟩]) 0 0 1 (.posted aAdd false)
      ∧ (heads [] [⟨1, .posted aAdd false⟩]).loadOlder ((heads [] [⟨1, .posted aAdd false⟩]).strand 0 0) 1 .loc aAdd.keys = false
      ∧ WritesNow (heads [] [⟨1, .posted aAdd false⟩]) 0 .loc aAdd.keys)
    ∧ (let s : State := { r with fabric := { r.fabric with inbox := [farIn] } }
      s.fabric.nextFrom 3 = some farIn ∧ (s.homeKeys 0x008000000000 1).isSome = true
        ∧ ((s.dropIn farIn).homeKeys 0x008000000000 1).isSome = true ∧ s.writeHeld 0x008000000000 = false)
    ∧ (let s := heads [⟨1, .fill 0 0 0x008000000000 .cached false⟩] []
      s.fillHead 0 0 0 = some (0, 1, 0x008000000000, .cached) ∧ isFar 0x008000000000 = false ∧ s.readHeld 0x008000000000 = false
        ∧ (s.core 0).isFilled 0 0 = false ∧ s.postedOlder (s.strand 0 0) 1 .cached [(0x008000000000, 4096)] = false)
    ∧ ((region.core 0).regionOf 0 = some (0, 0))
    ∧ ((k0.setFilled 0 0 true).isFilled 0 0 = true ∧ r.liveKey (spadKey 0 5) = spadKey 0 5)
    ∧ (StoreHead (heads [] [⟨1, .regBlock 0 0 [(0x008000000000, 4096)] false⟩]) 0 0 1 (.regBlock 0 0 [(0x008000000000, 4096)] false)
      ∧ r.poisoned (spadKey 0 0) = false ∧ r.writeHeld 0x008000000000 = false)
    ∧ (StoreHead (heads [] [⟨1, .barr 0 0 1⟩]) 0 0 1 (.barr 0 0 1) ∧ r.unitPresent 0 = true ∧ r.unitPresent 1023 = false)
    ∧ (let x : Barrier := { Barrier.reset with count := 2, arrived := 1 }
      x.frozen = false ∧ x.arrived.toNat < x.count.toNat ∧ x.arrived.toNat + 1 = x.count.toNat ∧ (0 : Nat) + 1 < x.count.toNat)
    ∧ (StoreHead (heads [] [⟨1, .binit 0 1⟩]) 0 0 1 (.binit 0 1) ∧ ((paged.core 0).barrier 0).frozen = false)
    ∧ StoreHead (heads [] [⟨1, .cntadd 0 1⟩]) 0 0 1 (.cntadd 0 1) ∧ StoreHead (heads [] [⟨1, .qarm 0 0 1⟩]) 0 0 1 (.qarm 0 0 1) := by
  repeat' apply And.intro
  all_goals first | decide +kernel | exact ⟨[], by decide +kernel⟩ | (unfold ReadsNow; decide +kernel) | (unfold WritesNow; decide +kernel)

/-- Group 0 of cluster 0 has both members joined; both parked; and its stall wire held since cycle 0, long ago. -/
def groupAt (x : Group) (cycle : W64) : State := (withCore { k0 with cycle := cycle }).setGroup 0 0 x
theorem witness_RegisterWritesAndGroupEvents :
    ((supd.actAs 0 0).strand 0 0 = (supd.actAs 0 0).me ∧ (quantum 0).me.run = .running ∧ (quantum 0).me.entering = none
      ∧ (let t := { t0 with run := .running, entering := some (entry0 []) }
        ((withMe t).strand 0 0).run = .running ∧ ((withMe t).strand 0 0).entering ≠ none) ∧ isOk (writeCR ((quantum 0).actAs 0 0) 0x020 0) = true
      ∧ stopOf (writeCR ((quantum 0).actAs 0 0) 0x060 0) = some (.trap 0x02 0 0))
    ∧ (isOk (writeCR r 0x100 1) = true ∧ (1 : W64).getLsbD 0 = true ∧ isOk (writeCR r 0x100 0) = true ∧ (0 : W64).getLsbD 0 = false
      ∧ isOk (writeCR r 0x101 0x1000) = true)
    ∧ (isOk (writeCR r 0x020 0x0000000F000001F0) = true ∧ isOk (writeCR r 0x026 0x500000003) = true ∧ isOk (writeCR supd 0x060 0x1000) = true
      ∧ isOk (writeCR supd 0x030 3) = true)
    ∧ ((supd.setCluster 0 { Cluster.reset with slcfg := 1, chg := true }).cluster 0).chg = true
    ∧ (let s := groupAt { g1 with startAt := 20 } 0
      (s.groupOf 0 0).started = false ∧ (s.groupOf 0 0).mask ≠ 0 ∧ (s.groupOf 0 0).joined = (s.groupOf 0 0).mask)
    ∧ (let s := groupAt { g1 with started := true, parked := 3 } 7
      (s.groupOf 0 0).started = true ∧ (s.groupOf 0 0).joined ≠ 0 ∧ (s.groupOf 0 0).parked = (s.groupOf 0 0).joined)
    ∧ (let s := groupAt { g1 with started := true, holdSince := some 0 } 0x00100001
      (s.groupOf 0 0).holdSince = some 0 ∧ (s.groupOf 0 0).started = true ∧ (s.cluster 0).sghold ≠ 0
        ∧ ((s.setCluster 0 { s.cluster 0 with sghold := 0 }).cluster 0).sghold = 0 ∧ (∀ m ∈ (s.groupOf 0 0).members, m.1 < 16 ∧ m.2 < 8)
        ∧ (s.cluster 0).sghold.toNat < s.latestOf 0 (s.groupOf 0 0).joined - (0 : W64).toNat)
    ∧ (let w : HeldWrite := ⟨0, [(0x008000000000, 1)], none⟩
      ({ r with homes := { r.homes with heldWrites := [w] } } : State).homes.heldWrites = [w] ∧ (∀ a ∈ w.cells, r.writeHeld a.1 = false) ∧ r.homes.heldWrites = [])
    ∧ ((r.strand (memberUnit 0 0) 0).run ≠ .stopped ∧ (r.groupOf 0 0).joined = 0) := by
  repeat' apply And.intro
  all_goals decide +kernel

/-- Strand 0 has asked to move the page at 0 to CD1: the stack of CD1 has one frame, its page lies in CD1's aperture; and the
same with hinting off. -/
def hinting (on : Bool) : State :=
  let s := paged.setPart 0 { Part.reset with hinten := on }
  let s : State := { s with homes := { s.homes with migpool := [(1, BitVec.ofNat 64 (0x009000000000 + 1))] } }
  s.setStrand 0 0 { t0 with hints := [⟨5, .none, 0, 1, false, 0⟩] }
def hit0 : Hit := ⟨0x008000000000, page0⟩
/-- A started move of CD0's first aperture frame to a frame of CD1. -/
def mv : Move :=
  { id := 4, engine := 1, leafKey := 0, part := 0, va := 0, leaf := page0.leaf, dst := 1, oldFrame := 0x008000000, newFrame := 0x009000001,
    newPhys := 0x009000001000, started := true, copyNs := 1, committed := false, releasing := false, heldAccs := [], heldCmds := [] }
def moving (m : Move) : State := { hinting true with homes := { (hinting true).homes with moves := [m] } }
/-- Strand 0 has a TLBINV.ALL at the head of its store queue; and one that no die is still to acknowledge. -/
def invalidating : State := paged.setStrand 0 0 { t0 with sq := [⟨1, .tlbinv 1 2 0 0⟩], ivnx := 1 }
def inv1 : InvWait := { n := 1, dies := [], accs := [], cmds := [] }
def waitingInv : State := paged.setStrand 0 0 { t0 with invs := [{ inv1 with dies := [0] }], ivnx := 1 }
theorem witness_MigrationBudgetsAndInvalidation :
    (let s := hinting true
      let s1 := s.setStrand 0 0 { s.strand 0 0 with hints := [] }
      (s.strand 0 0).hints = ⟨5, .none, 0, 1, false, 0⟩ :: [] ∧ s.homes.spent 3 (s.walkHomes 0 0) = false ∧ s.walkWaits 0 0 = false
        ∧ (match (s1.translate ⟨0, s.unitPart 0, false, 0⟩ 0 .read .quiet).1 with
          | .ok h => s1.hintStatus (s.unitPart 0) h 1 | .error _ => 99) = 0
        ∧ (match (s1.translate ⟨0, s.unitPart 0, false, 0⟩ 0x0100000000000000 .read .quiet).1 with | .ok _ => false | .error _ => true) = true
        ∧ noBudget.homes.spent 3 (noBudget.walkHomes 0 0x1000) = true ∧ evicting.walkWaits 0 0x1000 = true
        ∧ (hinting false).hintStatus 0 hit0 1 ≠ 0 ∧ (hinting true).hintStatus 0 hit0 1 = 0)
    ∧ ((hinting true).topFrame (Table.get 0 (hinting true).homes.migpool 1)).isSome = true
    ∧ ((moving mv).findMove 4 = some mv ∧ mv.started = true ∧ mv.committed = false ∧ mv.mustAbort (moving mv) = false ∧ mv.copyNs ≠ 0
      ∧ (let m := { mv with copyNs := 0 }
        (moving m).findMove 4 = some m ∧ m.copyNs = 0) ∧ { mv with dst := 2 }.foreign (moving mv) = true)
    ∧ (let m := { mv with copyNs := 8001 }
      (moving m).findMove 4 = some m ∧ m.mustAbort (moving m) = true ∧ m.foreign (moving m) = false ∧ m.broken (moving m) = false)
    ∧ (let m := { mv with committed := true }
      (moving m).findMove 4 = some m ∧ m.committed = true ∧ (moving m).frameInUse m.oldFrame = false)
    ∧ (mv.oldFrame ≠ mv.newFrame ∧ 0 / 4096 ≠ mv.newFrame)
    ∧ (let s : State := { r with ptime := 100000, homes := { r.homes with abudNext := [(3, 7)] } }
      s.homes.period < s.ptime.toNat / 100000 ∧ s.homes.abudNext = [(3, 7)])
    ∧ (invalidating.strand 0 0).sq = ⟨1, .tlbinv 1 2 0 0⟩ :: []
    ∧ (unitDirDie (0 : UnitNo).toNat ∈ (invalidating.invalidate 0 2 0 0).1)
    ∧ (let s : State := { paged with homes := { r.homes with dir := [(0x008000010, ⟨[0], 1, 0, [0], false⟩)] } }
      s.recordOf 0 0x008000010000 = some (0x008000010, ⟨[0], 1, 0, [0], false⟩) ∧ unitDirDie (0 : UnitNo).toNat ∈ [0] ∧ paged.recordOf 0 0x008000010000 = none)
    ∧ (({ multi := true, parts := [0], dies := [0], level := 1, base := 0 } : DirRecord).multi = true)
    ∧ ((waitingInv.strand 0 0).invs.find? (fun y => y.n == 1) = some { inv1 with dies := [0] })
    ∧ t0.invs = [] ∧ ({ t0 with invs := [inv1] }).invs = [inv1] ∧ inv1.dies = [] ∧ inv1.n = t0.ivtl + 1 := by
  repeat' apply And.intro
  all_goals decide +kernel

/-- Context 0 is at the one word of its program, at boundary 0; its slots 0 and 1 are CD0 and CD1, the others are unused; ports 0
and 8 are of partition 0. -/
def slots01 : W64 := 0xFFFFFFFFFFFFFF10
def seqQ (op : Nat) (a : SeqArg) (h : CircState) : Seq :=
  { Seq.reset with loaded := true, prog := [encodeSeq op a], next := some 0, slots := slots01, handles := [(0, { Handle.reset with state := h })] }
def seqS (q : Seq) : State := { r.setSeq 0 q with assign := { r.assign with oport := [(0, 0x20), (8, 0x2000)] } }
abbrev DueW (op : Nat) (a : SeqArg) (h : CircState) : Prop := SeqDue 0 op a (seqS (seqQ op a h)) 0
def estArg : SeqArg := 0x20000000000
theorem witness_SequencerWordsAndCircuits :
    (DueW 1 estArg .idle ∧ DueW 1 estArg .live ∧ ((seqS (seqQ 1 estArg .idle)).seqOf 0).port (field estArg 51 48) (field estArg 47 45) = some 0
      ∧ ((seqS (seqQ 1 estArg .idle)).seqOf 0).port (field estArg 44 41) (field estArg 40 38) = some 8
      ∧ slotDie (seqQ 1 estArg .idle) (field estArg 51 48) ≠ slotDie (seqQ 1 estArg .idle) (field estArg 44 41))
    ∧ (DueW 1 0 .idle ∧ slotDie (seqQ 1 0 .idle) (field (0 : SeqArg) 51 48) = slotDie (seqQ 1 0 .idle) (field (0 : SeqArg) 44 41))
    ∧ (let s := seqS (seqQ 1 estArg .idle)
      s.portAssigned 0 0 false = true ∧ s.portAssigned 0 8 true = true ∧ s.portBad 0 = false ∧ s.portBad 8 = false ∧ s.portUsed 0 false = false
        ∧ s.portUsed 8 true = false ∧ s.portAssigned 0 1 false = false)
    ∧ (DueW 2 0x4000000 .live ∧ DueW 2 0x4000000 .idle ∧ DueW 3 0 .live ∧ (DueW 3 0x8000000000000 .live ∧ bit (0x8000000000000 : SeqArg) 51 = true))
    ∧ ((DueW 4 0x800000000000001 .idle ∧ bit (0x800000000000001 : SeqArg) 59 = true) ∧ (DueW 4 1 .idle ∧ 0 < field (1 : SeqArg) 47 0) ∧ DueW 4 0 .idle)
    ∧ (DueW 5 0 .idle ∧ (DueW 5 1 .idle ∧ (seqQ 5 1 .idle).prog.length ≤ field (1 : SeqArg) 11 0))
    ∧ (DueW 6 0x100000000 .idle ∧ DueW 6 0x200000000 .idle ∧ DueW 6 0x200000001 .idle)
    ∧ ((DueW 7 0x2000000000000 .idle ∧ 8 ≤ slotDie (seqQ 7 0x2000000000000 .idle) 2) ∧ (DueW 7 0 .idle ∧ (seqS (seqQ 7 0 .idle)).unitPresent 0 = true)
      ∧ DueW 7 0x800000000000000 .idle)
    ∧ DueW 8 0 .idle ∧ ({ Handle.reset with state := .live } : Handle).state = .live ∧ Handle.reset.state ≠ .settling ∧ Handle.reset.state ≠ .live
    ∧ (let q := { seqQ 8 0 .idle with words := 64 }
      64 ≤ ((seqS q).seqOf 0).words)
    ∧ (let q := { seqQ 8 0 .idle with pc := 1 }
      ((seqS q).seqOf 0).words < 64 ∧ ((seqS q).seqOf 0).prog.length ≤ ((seqS q).seqOf 0).pc)
    ∧ (((seqS (seqQ 8 0 .idle)).seqOf 0).revive = none ∧ ((seqS (seqQ 8 0 .idle)).seqOf 0).due 0 = some 0)
    ∧ (let hd := { Handle.reset with state := .live, expiry := some 0 }
      let s := seqS { seqQ 8 0 .idle with handles := [(0, hd)] }
      (s.seqOf 0).handle 0 = hd ∧ hd.state = .live ∧ hd.expiry = some 0 ∧ (s.seqOf 0).boundary 0 ≤ s.ptime.toNat)
    ∧ (let hd := { Handle.reset with state := .settling }
      let s := seqS { seqQ 8 0 .idle with handles := [(0, hd)] }
      (s.seqOf 0).handle 0 = hd ∧ hd.state = .settling ∧ hd.liveAt.toNat ≤ s.ptime.toNat ∧ (s.seqOf 0).sigs = [])
    ∧ ({ r with agenda := [.advance 5] } : State).agenda = .advance 5 :: [] ∧ ((seqQ 8 0 .idle).handle 0).state ≠ .settling := by
  unfold DueW SeqDue
  repeat' apply And.intro
  all_goals decide +kernel

/-- A graph of one node of one instance on one compute core, accepted; placed on unit 0; and one whose node is complete. -/
def nodeOne : Node := nodeOf (List.replicate 256 0)
def lAcc : Launch := { l0 with accepted := true, nodes := [nodeOne] }
def launching (l : Launch) : State := paged.setPart 0 { Part.reset with launches := [l] }
def inst0 : InstRef := ⟨0, 1, 0, 0⟩
def running (t : Strand) (l : Launch) : State := (launching l).setStrand 0 0 { t with inst := some inst0 }
def begun : Launch := { lAcc with nodes := [{ nodeOne with gangs := [0] }] }
def ended : Launch := { lAcc with nodes := [{ nodeOne with gangs := [0], finished := [0], complete := true }] }
/-- A node of two instances of which none has finished. -/
def twoInst : Launch := { lAcc with nodes := [{ nodeOne with widfmt := 0x40000000000000, counts := [1] }] }
/-- A descriptor at 0x40 of one node, its record at 0x400. -/
def graphMem : Memory := [(0x008000000040, 1), (0x008000000049, 4)]
def graphed (l : Launch) : State := { (launching l).setCore 512 { k0 with tlb := [page0] } with mem := graphMem }
/-- Entry 0 of the launch table is of partition 0, with this policy, and its first slot is due. -/
def slotE (pol : Nat) (last : Option W64) : SlotEntry := { SlotEntry.reset with w0 := BitVec.ofNat 64 (1 + 2 * pol), w3 := 100, last := last }
def tabled (pol : Nat) (last : Option W64) : State := { launching { l0 with slot := some 0, at_ := 0 } with slotTable := [(0, slotE pol last)], ptime := 251 }
def saved0 : Saved := { ticket := 1, id := 0, units := [0], strands := [(0, { t0 with inst := some inst0 })], cores := [], pairs := [], spads := [], poisons := [], groups := [], ctx := [] }
/-- What became of launch 1 on its acceptance: it pre-empts or does not. -/
def acceptedAs (l : Launch) (pre : Bool) : Bool :=
  match (((graphed l).acceptLaunch l).partOf 0).findLaunch 1 with | some x => x.preempts == pre && x.status == 0 | none => false
/-- How reading the graph's node entries fails. -/
def nodesStop (s : State) : Option (Option W64) := match (s.readNodes l0 1 (List.range 1)).1 with | .ok _ => none | .error e => some e
theorem witness_LaunchesRunAndComplete :
    (up.isUp = true ∧ (0 : PartNo).toNat < 32 ∧ (up.partOf 0).openLaunches < 256 ∧ (up.partOf 0).bells = []
      ∧ 256 ≤ (many.broughtUp.partOf 0).openLaunches ∧ (many.broughtUp.partOf 0).bells = [] ∧ many.broughtUp.isUp = true)
    ∧ (acceptedAs l0 false = true ∧ acceptedAs { l0 with preempts := true } true = true)
    ∧ (((launching l0).partOf 0).findLaunch 1 = some l0 ∧ l0.accepted = false ∧ l0.complete = false ∧ l0.effective = true)
    ∧ (let l := { l0 with effective := false }
      let s := (launching l).setStrand 0 0 { t0 with sq := [⟨1, .launch 1 0x40 none false 0⟩] }
      (s.partOf 0).findLaunch 1 = some l ∧ s.launchHead 0 1 = some (0, 0, 1))
    ∧ (({ l0 with desc := 1 } : Launch).desc.toNat % 64 ≠ 0 ∧ l0.desc.toNat % 64 = 0)
    ∧ ((r.hiveRead l0.who 0x0100000000000000 64).1 = none ∧ ((graphed l0).hiveRead l0.who 0x40 64).1.isSome = true)
    ∧ (nodesStop (graphed l0) = none ∧ nodesStop { graphed l0 with mem := graphMem ++ [(0x008000000080, 3)] } = some none
      ∧ (match nodesStop (launching l0) with | some (some _) => true | _ => false) = true)
    ∧ (((launching lAcc).partOf 0).findLaunch 1 = some lAcc ∧ lAcc.nodes[(0 : BitVec 6).toNat]? = some nodeOne ∧ nodeOne.circ = false
      ∧ nodeOne.gang 0 = [0] ∧ (launching lAcc).placeOk 0 nodeOne [(0, 0)] = true ∧ (launching lAcc).mayDispatch ⟨0, 1, 0, 0, lAcc.prioOf nodeOne⟩ = true
      ∧ (launching lAcc).handlesHeld 0 [0] nodeOne.bufs = false)
    ∧ (nodeOne.nstr = 1 ∧ nodeOne.combo (· == 0) 0 < 8)
    ∧ (((running t0 begun).strand 0 0).inst = some inst0 ∧ (∀ j ∈ (running t0 begun).instStrands 0 inst0, (running t0 begun).strandOver 0 j = true)
      ∧ (∀ r, r < 32 → (running t0 begun).regionHeld 0 r = false) ∧ (running t0 begun).strandDone 0 0 = true)
    ∧ (let l : Launch := { begun with nodes := [{ nodeOne with gangs := [0], failed := true }] }
      let s := (launching l).setPart 0 { (launching l).partOf 0 with frozen := true }
      (s.setStrand 0 0 { t0 with run := .stopped, inst := some inst0 }).strandOver 0 0 = true)
    ∧ (((launching twoInst).partOf inst0.part).findLaunch inst0.ticket = some twoInst
      ∧ ∃ n, twoInst.nodes[inst0.node]? = some n ∧ n.failed = false ∧ n.complete = false ∧ n.finished.length + 1 < n.total)
    ∧ (((launching ended).partOf 0).findLaunch 1 = some ended ∧ ended.accepted = true ∧ ended.complete = false ∧ ended.stopping = false
      ∧ (∀ n ∈ ended.nodes, n.complete = true) ∧ ended.noRecord = false ∧ (launching ended).recordHeld ended = false
      ∧ ((launching { ended with noRecord := true }).partOf 0).findLaunch 1 = some { ended with noRecord := true })
    ∧ (ended.firstFailed = none ∧ ended.cancelled = false ∧ ended.status = 0
      ∧ ({ lAcc with nodes := [{ nodeOne with failed := true }] } : Launch).firstFailed = some (0, { nodeOne with failed := true }))
    ∧ (((tabled 0 none).slotEntry 0).due = some 0 ∧ ((tabled 0 none).partOf 0).frozen = false ∧ (tabled 0 none).lastOpen (slotE 0 none) = none
      ∧ (tabled 0 (some 1)).lastOpen (slotE 0 (some 1)) ≠ none ∧ (tabled 0 none).waitingFree ((tabled 0 none).slotEntry 0) = false
      ∧ ((tabled 0 none).partOf 0).openLaunches < 256 ∧ (tabled 0 none).slotWaits (slotE 0 none) = false
      ∧ (let s := (tabled 0 none).setSlot 0 { slotE 0 none with waiting := true }
        s.waitingFree (s.slotEntry 0) = true)
      ∧ (let x := { slotE 0 none with waiting := true, full := some 1 }
        (((tabled 0 none).setSlot 0 x).slotEntry 0).full = some 1 ∧ (0 : W64).toNat + 250 < (tabled 0 none).ptime.toNat ∧ (tabled 0 none).ptime.toNat ≤ (1 : W64).toNat + 250)
      ∧ 256 ≤ ((tabled 0 none).setPart 0 { Part.reset with launches := List.replicate 256 l0 } |>.partOf 0).openLaunches
      ∧ (((tabled 0 none).setPart 0 { Part.reset with frozen := true }).partOf 0).frozen = true)
    ∧ ((slotE 0 none).overrun.pol = 0 ∧ (slotE 1 none).overrun.pol = 1 ∧ (slotE 2 none).overrun.pol = 2
      ∧ (tabled 0 (some 1)).slotWaits { slotE 0 (some 1) with waiting := true } = true ∧ (tabled 0 (some 1)).slotWaits (slotE 0 (some 1)) = false)
    ∧ ((tabled 0 (some 1)).lastOpen ((tabled 0 (some 1)).slotEntry 0) = some { l0 with slot := some 0, at_ := 0 } ∧ (slotE 0 (some 1)).full = none
      ∧ (0 : W64).toNat + 250 < (tabled 0 (some 1)).ptime.toNat ∧ l0.accepted = false ∧ (∀ n ∈ l0.nodes, n.gangs = [])
      ∧ (slotE 2 (some 1)).pol = 2 ∧ ({ lAcc with slot := some 0 } : Launch).accepted = true ∧ lAcc.status = 0 ∧ (∀ n ∈ lAcc.nodes, n.gangs = []))
    ∧ (((running t0 begun).partOf 0).findLaunch 1 = some begun ∧ begun.part = 0 ∧ begun.inFlight = true ∧ begun.stopUnits = [] ∧ (∃ e ∈ (running t0 begun).launchStrands 0 1, e.1 / 8 < 560))
    ∧ (let s := paged.setStrand 0 0 { t0 with rule := some (0, 0) }
      (s.partOf 0).findLaunch 1 = none ∧ s.ruleStrands 0 ≠ [] ∧ (s.partOf 0).stopRules = none
        ∧ (let s := (s.setStrand 0 1 { t0 with run := .ready, inst := some inst0 }).setPart 0 { s.partOf 0 with stopRules := some 1 }
          (s.partOf 0).findLaunch 1 = none ∧ (s.partOf 0).stopRules = some 1 ∧ ∃ u ∈ ((s.ruleStrands 0).map (fun e => e.1 / 8)).eraseDups, s.launchOn u = true))
    ∧ (let l := { begun with stopping := true, stopUnits := [0] }
      let mine (s : State) := (s.launchStrands 0 1).filter (fun e => l.stopUnits.contains (e.1 / 8))
      let s := running t0 l
      let busy := s.setCore 0 { s.core 0 with eng := [(0, ⟨0, 1, 0x3F, 0, none, none, false, []⟩)] }
      let told : State := running { t0 with noticed := true } { l with noticeAt := [(0, 0)] }
      (s.partOf 0).findLaunch 1 = some l ∧ s.noticeOver 0 l (mine s) = true ∧ mine s ≠ [] ∧ (s.stopOrSave 0 1 [0] (mine s)).isSome = true
        ∧ (busy.stopOrSave 0 1 [0] (mine busy)).isSome = false
        ∧ (s.pairsQuiet 0 = true ∧ (let p : Pair := { Pair.reset with out := [⟨1, 0, 0, none⟩] }
          ({ s with assign := { s.assign with unit := [(512, 0x20)] }, fabric := { s.fabric with pairs := [(0, p)] } } : State).pairsQuiet 0 = false)) ∧ told.noticeOver 0 { l with noticeAt := [(0, 0)] } (mine told) = false
        ∧ (let s := launching l
          mine s = [] ∧ s.noticeOver 0 l (mine s) = true))
    ∧ (let l := { begun with saved := true }
      let s := paged.setPart 0 { Part.reset with launches := [l], saved := [saved0] }
      (s.partOf 0).findLaunch 1 = some l ∧ (s.partOf 0).saved.find? (fun y => y.ticket == 1) = some saved0 ∧ l.saved = true
        ∧ (s.freeSaved saved0.units).restoreOk 0 (some l) saved0 [0] = true ∧ (s.freeSaved saved0.units).restoreOk 0 (some l) saved0 [600] = false
        ∧ t0.invs = [])
    ∧ ({ saved0 with strands := [(0, t0)] } : Saved).strands = [(0, t0)] ∧ (0 : Nat) < 8192 ∧ saved0.units = [0 / 8] ∧ t0.circctx = 8 := by
  repeat' apply And.intro
  all_goals decide +kernel

/-- Queue pairs 0 and 1 as host writes find them; port 0 with a mode; lane 0 of engine 0 with port 0 and these messages queued for module 1. -/
def busyPair : State := r.setPair 0 { Pair.reset with posted := 1 }
def rowAt (n v : Nat) : State := { r with assign := { r.assign with vf := [(n, BitVec.ofNat 64 v)], unit := [(n, BitVec.ofNat 64 v)] } }
def clocked (ctl off : W64) : State := { r with clock := { Clock.reset with ptctl := ctl, ptoff := off } }
def linked (x : Link) : State := { r with fabric := { Fabric.reset with links := [(1, x)] } }
def up0 : Link := { Link.reset with up := true }
def msg0 : OutMsg := { type := typeData, src := 0, dst := 1, msg := .done 0, spill := none }
def laned (x : Lane) (q : Table (List OutMsg)) : State :=
  { r with fabric := { Fabric.reset with lanes := [(0, x)], egress := q, pcfg := [(0, 1)] } }
def laneA (d n : Nat) : Lane := { port := some 0, dest := d, count := n, ready := 0 }
def at_ (t : W64) (s : State) : State := { s with ptime := t }
theorem witness_HostRegisterWritesAndLanes :
    (up.isUp = true ∧ (0 : BitVec 10).toNat < 560 ∧ r.unitIdle 0 = true ∧ r.unitSaved 0 = false ∧ ((0x100 : W64) &&& 0x13F).getLsbD 8 = true
      ∧ (0x100 : W64).getLsbD 5 = false ∧ ready3.unitIdle 0 = false ∧ field (0 : W64) 5 0 ≠ field ((0x20 : W64) &&& 0x13F) 5 0)
    ∧ (r.portUsed 0 false = false ∧ (seqS (seqQ 8 0 .live)).portUsed 0 false = true
      ∧ field (Table.get 0 (seqS (seqQ 8 0 .live)).assign.oport 0) 5 0 ≠ field ((0 : W64) &&& 0x3F3F) 5 0)
    ∧ ((r.seqOf 0).loaded = false ∧ r.seqSaved 0 = false ∧ ((seqS (seqQ 8 0 .idle)).seqOf 0).loaded = true)
    ∧ ((0 : BitVec 9).toNat < 384 ∧ field (0x20 : W64) 16 8 < 384 ∧ ((0x20 : W64) &&& 0x1FF3F).getLsbD 5 = true
      ∧ ∃ e ∈ (rowAt 1 0x20).assign.vf, e.1 ≠ 0 ∧ e.2.getLsbD 5 = true ∧ field e.2 4 0 = field ((0x20 : W64) &&& 0x1FF3F) 4 0
        ∧ field e.2 16 8 = field ((0x20 : W64) &&& 0x1FF3F) 16 8)
    ∧ (field (0x100 : W64) 15 8 ≠ 0 ∧ field (0 : W64) 15 8 = 0)
    ∧ (supd.counterPart 0 ≠ 0 ∧ r.counterPart 0 = 32 ∧ (rowAt 512 0x20).counterPart 0 = 0 ∧ (rowAt 512 0x20).partRuns 0 = false
      ∧ (rowAt 512 0x20).fabric.frozenCounters.contains 0 = false)
    ∧ ((rowAt 512 0x20).pairPart (PairRef.no ⟨0, 0⟩) = 0 ∧ ((rowAt 512 0x20).pairOf 0).posted = ((rowAt 512 0x20).pairOf 0).retired
      ∧ (busyPair.pairOf 0).posted ≠ (busyPair.pairOf 0).retired ∧ (1 : W64).getLsbD 0 = true ∧ ((rowAt 512 0x20).pairOf 0).cfg.getLsbD 0 = false
      ∧ 4 ≤ field (0x800000 : W64) 24 21 ∧ field (0x800000 : W64) 24 21 ≤ 10 ∧ field (0x800000 : W64) 5 0 = 0 ∧ field (0x800000 : W64) 20 0 + 64 * 2 ^ 4 ≤ 2 ^ 21)
    ∧ ((0 : BitVec 40).toNat % 8 = 0 ∧ (0 : BitVec 40).toNat < 2 ^ 37 ∧ (0x8000000000 : BitVec 40).toNat % 8 = 0 ∧ 2 ^ 39 ≤ (0x8000000000 : BitVec 40).toNat)
    ∧ (field (3 : W64) 1 0 = 3 ∧ field (0x100 : W64) 1 0 ≠ 3 ∧ field (0x100 : W64) 7 2 ≤ 15 ∧ (0x100 : W64).getLsbD 8 = true
      ∧ 0 < (clocked 0 5).clock.ptoff.toInt ∧ ({ Clock.reset with within := some 0 } : Clock).within = some 0 ∧ (0 : W64).toNat + 10 ^ 9 ≤ (1000000000 : W64).toNat ∧ (100 : BitVec 32).toInt.natAbs ≤ 100 ∧ field (clocked 2 0).clock.ptctl 1 0 = 2 ∧ field (clocked 1 0).clock.ptctl 1 0 = 1 ∧ field (clocked 1 0).clock.ptctl 7 2 = (0 : BitVec 4).toNat
      ∧ field (clocked 0 0).clock.ptctl 1 0 ≠ 1)
    ∧ (let q := seqQ 8 0 .idle
      0 < q.step ∧ q.next = some 0 ∧ q.loaded = true ∧ q.status = 0 ∧ q.boundary 0 < 1)
    ∧ (((linked up0).link (LinkRef.key ⟨0, 1⟩)).up = true ∧ ((linked Link.reset).link (LinkRef.key ⟨0, 1⟩)).up = false
      ∧ (((linked up0).sendOwn 1 typeKeysw .none).link 1).up = true ∧ (((linked up0).sendOwn 1 typePropose (.fec 1)).link 1).fecProp = none
      ∧ ((({ linked up0 with fabric := { (linked up0).fabric with keyTx := [(2, { KeySlot.reset with counter := 0x100000000 })] } } : State).sendOwn 1
        typeKeysw .none).link 1).up = false)
    ∧ (r.ptime.toNat % 2000 = 0 ∧ Table.has r.fabric.lent 0 = false ∧ (at_ 1 r).ptime.toNat % 2000 ≠ 0
      ∧ (let s : State := { r with fabric := { Fabric.reset with lent := [(0, 0)] } }
        Table.has s.fabric.lent 0 = true ∧ Table.get 0 s.fabric.lent 0 = s.ptime))
    ∧ (let s := laned (laneA 1 0) [(egressKey 0 1, [msg0])]
      (s.fabric.lane 0 0).port = some 0 ∧ field (Table.get 0 s.fabric.pcfg 0) 1 0 = 1 ∧ (s.fabric.lane 0 0).ready.toNat ≤ s.ptime.toNat
        ∧ (s.fabric.lane 0 0).count < 16 ∧ (s.fabric.queue 0 1).isEmpty = false)
    ∧ (let s := laned (laneA 2 0) [(egressKey 0 1, [msg0])]
      (s.fabric.queue 0 2).isEmpty = true ∧ s.fabric.nextQueue 0 0 0 2 = some 1)
    ∧ ((laned (laneA 1 16) [(egressKey 0 1, [msg0])]).fabric.nextQueue 0 0 0 1 = some 1 ∧ (laned (laneA 1 16) []).fabric.nextQueue 0 0 0 1 = none) := by
  repeat' apply And.intro
  all_goals decide +kernel

/-- Link 1 of engine 0 is up in this state of it, with key 1 in slot 0 of its receiver and its transmitter; and a flit of it under that key. -/
def key1 : KeySlot := { KeySlot.reset with key := 1 }
def keyed (x : Link) : State := { r with fabric := { Fabric.reset with links := [(1, x)], keyRx := [(2, key1)], keyTx := [(2, key1)] } }
def flit (type : Byte) (dst : BitVec 6) (seq : W32) (m : FabMsg) : Flit :=
  { fibre := 0, type := type, src := 1, dst := dst, hop := 0, ks := false, reserved := 0, seq := seq, len := 0, msg := m, key := 1, salt := 0
    counter := 0, intact := true }
def fl0 (n : Nat) : Flight := { flit := flit typeData 1 0 .none, first := 0, sent := 0, fails := n }
/-- A far request of strand 0 of unit 0. -/
def req0 (store : Bool) : FarReq :=
  { id := 7, owner := some (0, 0), seq := 1, mdl := 1, engine := 0, port := 0, hop := 1, at_ := 0, store := store, posted := false, ea := 0, part := 0
    key := 0, bytes := 8, got := none, fail := none, via := none, fwd := false }
def asking (store : Bool) : State := { r with fabric := { Fabric.reset with reqs := [req0 store] } }
/-- Receive context 0 is of partition 0. -/
def receiving (u : Nat) : State := { paged.setCore 512 { k0 with tlb := [page0] } with
    service := up.service, fabric := { Fabric.reset with rxs := [(0, { RxCtx.reset with valid := true, unit := u })], pcfg := [(0, 2)], portUp := [(0, true)] } }
/-- The range can be reached and none of its bytes is on the move. -/
def notHeld {α : Type} (x : Except α (List (Hit × Nat)) × State) : Bool :=
  match x with
  | (.ok hs, t) => (segKeys (hitSegs hs)).all (fun k => !t.writeHeld k)
  | (.error _, _) => false
abbrev NextF (f : Flit) (x : Link) : Prop := FlitNext ⟨0, 1⟩ f (keyed x)
theorem witness_FlitsLinksAndPackets :
    (NextF (flit typeData 0 0 .none) up0 ∧ NextF (flit typeData 2 0 .none) up0 ∧ NextF (flit typeReq 0 0 (.load 1 0x008000000000 8)) up0
      ∧ NextF (flit typeReq 2 0 .none) up0 ∧ NextF (flit typeResp 0 0 (.done 7)) up0 ∧ NextF (flit typeResp 2 0 (.done 7)) up0
      ∧ NextF (flit typeKeysw 0 0 .none) up0 ∧ (keyed up0).fabric.modnum = 0 ∧ ((keyed up0).acked ⟨0, 1⟩ (flit typeData 0 0 .none)).fabric.modnum = 0)
    ∧ (let s : State := { keyed up0 with homes := { r.homes with moves := [mv] } }
      let f := flit typeReq 0 0 (.atomic 1 0x008000000000 0 8 1 0 0 0 false)
      s.reqHeld f = true ∧ FlitNext ⟨0, 1⟩ f s)
    ∧ (keyed up0).reqHeld (flit typeReq 0 0 (.load 1 0x008000000000 8)) = false
    ∧ (NextF (flit typePropose 0 0 (.fec 2)) up0 ∧ NextF (flit typePropose 0 0 (.fec 1)) up0 ∧ NextF (flit typePropose 0 0 (.fec 1)) { up0 with fecAcc := some (1, 0) })
    ∧ (let x := { up0 with fecProp := some (1, 0) }
      NextF (flit typeAccept 0 0 (.fec 1)) x ∧ FlitNext ⟨0, 1⟩ (flit typeAccept 0 0 (.fec 1)) (at_ 4001 (keyed x)))
    ∧ NextF (flit typeCommit 0 0 (.fec 1)) { up0 with fecAcc := some (1, 0) } ∧ NextF (flit typeDecline 0 0 .none) up0
    ∧ ((keyed Link.reset).link 1).up = false ∧ (keyed up0).flitOk 1 false { flit typeData 0 0 .none with intact := false } = false
    ∧ ((0 : W32) ≠ { up0 with rxSeq := 1 }.rxSeq ∧ ({ up0 with rxSeq := 1 }.rxSeq - 0).toNat < 2 ^ 31 ∧ (keyed { up0 with rxSeq := 1 }).flitOk 1 false (flit typeData 0 0 .none) = true)
    ∧ (¬((2 : W32) ≠ up0.rxSeq ∧ (up0.rxSeq - 2).toNat < 2 ^ 31) ∧ (2 : W32) ≠ up0.rxSeq)
    ∧ (2 ^ 32 ≤ (({ key1 with counter := 0x100000000 } : KeySlot).counter).toNat ∧ ((keyed up0).txKey 1 false).counter.toNat < 2 ^ 32)
    ∧ ((((keyed up0).transmit 1 ((keyed up0).newFlit 1 0 typeData 0 1 0 .none)).2.link 1).up = true)
    ∧ ((keyed up0).flitOk 1 false (flit typeAck 0 0 .none) = true ∧ (keyed { up0 with flights := [fl0 0] }).flitOk 1 false (flit typeNak 0 0 .none) = true
      ∧ ((keyed { up0 with flights := [fl0 0] }).link 1).flightOf 0 = some 0)
    ∧ ((keyed up0).link 1 |>.flightOf 0) = none
    ∧ (let s := keyed { up0 with flights := [fl0 0] }
      (s.link 1).flightOf 0 = some 0 ∧ (s.link 1).flights[0]? = some (fl0 0) ∧ s.ptime.toNat ≤ (fl0 0).first.toNat + 4000
        ∧ s.ptime.toNat ≤ (fl0 0).sent.toNat + 1000 ∧ (fl0 0).sent.toNat + 1000 < (at_ 1001 s).ptime.toNat
        ∧ (at_ 1001 s).ptime.toNat ≤ (fl0 0).first.toNat + 4000 ∧ (fl0 0).first.toNat + 4000 < (at_ 4001 s).ptime.toNat)
    ∧ (let h : Flight := { fl0 3 with flit := flit typeData 1 1 .none }
      (fl0 0).fails < 3 ∧ h.flit.seq ≠ (fl0 0).flit.seq
        ∧ (([fl0 0, h].take 0 ++ ([fl0 0, h].drop 0).map (fun (f : Flight) => { f with fails := f.fails + 1 })).drop 0).find? (fun f => 4 ≤ f.fails)
          = some { h with fails := 4 })
    ∧ (let s := at_ 4001 (keyed { up0 with flights := [fl0 0], fecProp := some (1, 0) })
      (s.link 1).flights.findIdx? (fun f => f.sent.toNat + 1000 ≤ s.ptime.toNat) = some 0
        ∧ (s.link 1).flights.find? (fun f => f.first.toNat + 4000 < s.ptime.toNat) = some (fl0 0) ∧ (s.link 1).fecProp = some (1, 0))
    ∧ ((at_ 16001 (keyed { up0 with fecAcc := some (1, 0) })).link 1).fecAcc = some (1, 0)
    ∧ (((keyed { up0 with flights := [fl0 3] }).link 1).flights[0]? = some (fl0 3) ∧ 3 ≤ (fl0 3).fails ∧ ∀ f ∈ [fl0 0].drop 0, f.fails < 3)
    ∧ ((1 : Byte).toNat = 1 ∧ ((keyed up0).link 1).up = true)
    ∧ ((req0 true).owner = some (0, 0) ∧ (req0 true).store = true ∧ (req0 false).store = false)
    ∧ ([{ req0 false with fail := some causePathLost }].find? (fun x => x.fail.isSome) = some { req0 false with fail := some causePathLost })
    ∧ ((asking false).openReq 7 = some (req0 false) ∧ (asking true).openReq 7 = some (req0 true) ∧ (req0 false).at_.toNat + 100000 < (at_ 100001 (asking false)).ptime.toNat
      ∧ (asking false).ptime.toNat ≤ (req0 false).at_.toNat + 100000)
    ∧ (((r.performInbox 1).homeKeys 0x008000000000 8).isSome = true ∧ ((r.performInbox 1).homeKeys 0x030000000000 8) = none)
    ∧ ((receiving 0).uetComes (.data 0 0 true 0 0 1 [1]) = true ∧ (receiving 0).ethUp 0 = true ∧ (receiving 0).isUp = true ∧ r.uetComes (.data 0 0 true 0 0 1 [1]) = false)
    ∧ (let s : State := { receiving 0 with homes := { r.homes with lost := [0] } }
      s.homeLost 0x008000000000 = true ∧ s.writeHeld 0x008000000000 = false ∧ (receiving 0).homeLost 0x008000000000 = false
        ∧ notHeld (s.translateRange (hiveWho 0) .write .demand (piecesOf 0 1)) = true)
    ∧ (r.poisoned 0x008000000000 = false ∧ (r.poisonKeys [0x008000000000]).poisoned 0x008000000000 = true)
    ∧ (let s := receiving 0
      (Table.get RxCtx.reset s.fabric.rxs 0).valid = true ∧ 0 + [(1 : Byte)].length ≤ 1
        ∧ notHeld (s.translateRange (hiveWho 0) .write .demand (piecesOf 0 1)) = true
        ∧ s.unitPart 0 = 0 ∧ (∃ i, i < [(1 : Byte)].length ∧ 0 + i ∉ ([] : List Nat))
        ∧ s.farFull 0 0 (flitStarts [0x008000000000]) = false)
    ∧ ((Table.get RxCtx.reset (keyed up0).fabric.rxs 0).valid = false ∧ 4096 < (List.replicate 4097 (0 : Byte)).length
      ∧ (∀ i < [(1 : Byte)].length, 0 + i ∈ [0])
      ∧ reached ((receiving 0).translateRange (hiveWho 0) .write .demand (piecesOf 0x0100000000000000 1)) = false)
    ∧ (({ Pair.reset with cfg := 4 } : Pair).mode = 2 ∧ (receiving 0).unitPart 0 = (0 : BitVec 15).toNat / 1024) := by
  repeat' apply And.intro
  all_goals decide +kernel

/-- Foragers 0's unit is of partition 0 with the page of `paged`; its pair 0 is paired with pair 1, in this mode; the entry at slot 1
of its ring is a WRITE of 32 bytes (or one of LEN 0). -/
def pairCfg (mode peer : Nat) : W64 := BitVec.ofNat 64 (1 + 2 * mode + mode * 8 + peer * 2 ^ 13)
def pairA (mode : Nat) : Pair := { Pair.reset with cfg := pairCfg mode 1, ring := 0x800000, posted := 1, armlim := 1 }
def forage (p q : Pair) (len : Byte) : State :=
  { (r.setCore 512 { k0 with tlb := [page0] }) with
    mem := [(spadKey 512 64, 1), (spadKey 512 96, len)]
    assign := { r.assign with unit := [(0, 0x20), (512, 0x20), (528, 0x20)] }
    fabric := { Fabric.reset with pairs := [(0, p), (1, q)] } }
def entryW (kind ncon : Nat) : BitVec 512 := BitVec.ofNat 512 (kind + 32 * 2 ^ 256 + (ncon - 1) * 2 ^ 336)
/-- A transfer from pair 1 of module m, and a state in which it has come to pair 0. -/
def arr (m : BitVec 6) (w : BitVec 512) (d : List Byte) : Arrival :=
  { src := ⟨m, 0, 1⟩, n := 1, words := w, data := d, todo := [0], checked := false, status := qsOk, partialIn := false }
def came (mode : Nat) (a : Arrival) : State := forage { pairA mode with arrivals := [a] } Pair.reset 32
def cameUnpaired (a : Arrival) : State := forage { Pair.reset with arrivals := [a] } Pair.reset 32
def d32 : List Byte := List.replicate 32 0
def aW : Arrival := arr 0 (entryW 1 1) d32
def aR : Arrival := arr 1 (entryW 2 1) d32
def aO (n : Nat) : Arrival := arr 0 (entryW 2 n) d32
/-- Its check passes, and the bytes at its destination can be placed. -/
def placed (s : State) (a : Arrival) (n : Nat) : Bool :=
  match s.checkArrival 0 a with
  | (none, _) => false
  | (some _, s1) =>
    match s1.peerKeys 0 0 n with
    | (some ks, s2) => ks.all (fun k => !s2.writeHeld k) && !s2.engPoison ks
    | (none, _) => false
def refused (s : State) (a : Arrival) : Bool := match s.checkArrival 0 a with | (none, _) => true | (some _, _) => false
def outOf (n : Nat) (st : Option Byte) : Pair := { pairA n with out := [⟨1, entryW 1 1, 0, st⟩] }
/-- A page of module 1, its bytes asked for by pair 0's entry; and how reading the source of that entry comes out. -/
def farPage : TlbEntry := { page0 with leaf := BitVec.ofNat 64 (0x4100000000000 + 0xC3F) }
def farEntry (reqs : List FarReq) : State :=
  let s := forage (pairA 0) Pair.reset 32
  (({ s with fabric := { s.fabric with pod := true, podSize := 2, reqs := reqs } } : State)).setCore 512 { k0 with tlb := [farPage] }
def askedBy (mark : Nat) (fail : Option (BitVec 8)) : FarReq :=
  { req0 false with owner := some (512, mark), key := 0x4100000000000, bytes := 128, fail := fail }
def sourceIs (s : State) : Option (Except (Option Byte) Nat) :=
  let s0 := s.setCore 512 { s.core 512 with reach := some ⟨pairMark 0, [], [], []⟩ }
  match s0.translateRange ⟨pairUnit 0, s.pairPart 0, true, 0⟩ .read .demand (piecesOf 0 32) with
  | (.ok hs, s1) => some ((s.entrySource s1 0 0 hs).1.map (·.length))
  | (.error _, _) => none
def okLen (x : Option (Except (Option Byte) Nat)) : Nat := match x with | some (.ok n) => n | _ => 0
def errOf (x : Option (Except (Option Byte) Nat)) : Option (Option Byte) := match x with | some (.error e) => some e | _ => none
def lostHome (s : State) : State := { s with homes := { s.homes with lost := [0] } }
def ethForage (up : Bool) : State :=
  let s := forage (pairA 2) Pair.reset 32
  { s.broughtUp with fabric := { s.fabric with pcfg := [(0, 2)], portUp := [(0, up)] } }
def fromVa (s : State) (va : W64) : Bool := reached (s.translateRange ⟨pairUnit 0, s.pairPart 0, true, 0⟩ .read .demand (piecesOf va 32))
theorem witness_EntriesFireCombineAndRetire :
    (let s := forage (pairA 0) Pair.reset 32;
      s.canFire 0 = true ∧ s.pairFull 0 = false ∧ s.entryWalkWaits 0 = false ∧ (s.pairOf 0).err.getLsbD 0 = false ∧ (s.entryWords 0 1).bad = false ∧ fromVa s 0 = true
        ∧ fromVa s 0x0100000000000000 = false)
    ∧ (forage { pairA 0 with err := 1 } Pair.reset 32).canFire 0 = true
    ∧ r.canFire 0 = false
    ∧ (okLen (sourceIs (forage (pairA 0) Pair.reset 32)) = 32 ∧ errOf (sourceIs (farEntry [])) = some none ∧ (farEntry []).canFire 0 = true
      ∧ errOf (sourceIs (farEntry [askedBy (pairMark 0) (some causePathLost)])) = some (some qsPoisoned)
      ∧ (lostHome r).homeLost 0x008000000000 = true ∧ ((ethForage true).pairOf 0).mode = 2 ∧ (ethForage true).ethUp 0 = true ∧ (ethForage false).ethUp 0 = false)
    ∧ (let s : State := { forage (pairA 0) Pair.reset 32 with fabric := { Fabric.reset with reqs := [{ req0 true with key := 0x008000000000 }] } }
      s.readWaits [(0x008000000000, 32)] = true ∧ (forage (pairA 0) Pair.reset 32).readWaits [(0x008000000000, 32)] = false)
    ∧ (let s := (forage (pairA 0) Pair.reset 32).poisonKeys [0x008000000000]
      s.canFire 0 = true ∧ s.engPoison [0x008000000000] = true ∧ (s.entryWords 0 1).kind = 1 ∧ (s.pairOf 0).mode = 0)
    ∧ ([0, 1].Perm (List.range (Entry.ncon (aO 2).words)) ∧ [0, 1].Pairwise (fun i j => 0 < 0 ∨ ((0 : Nat) = 0 ∧ i < j)))
    ∧ (recordBad (List.replicate 288 0) = false ∧ recordBad (List.replicate 264 0 ++ [1]) = true ∧ [(0 : Byte)] ≠ [])
    ∧ ((forage (pairA 0) Pair.reset 0).canFire 0 = true ∧ ((forage (pairA 0) Pair.reset 0).entryWords 0 1).bad = true)
    ∧ (let s := (forage (pairA 2) Pair.reset 32).poisonKeys [0x008000000000]
      s.canFire 0 = true ∧ s.pairFull 0 = false ∧ s.entryWalkWaits 0 = false ∧ s.engPoison [0x008000000000] = true ∧ (s.pairOf 0).mode ≠ 0 ∧ fromVa s 0 = true)
    ∧ (((came 0 aW).pairOf 0).nextArrival (fun e => e.kind == 1) = some aW ∧ placed (came 0 aW) aW 32 = true ∧ refused (cameUnpaired aW) aW = true
      ∧ ((cameUnpaired aW).pairOf 0).nextArrival (fun e => e.kind == 1) = some aW ∧ 0 ∈ aW.todo)
    ∧ (((came 1 aR).pairOf 0).nextArrival (fun e => e.kind == 2 && !e.ordered ((came 1 aR).pairOf 0).mode) = some aR ∧ placed (came 1 aR) aR 32 = true
      ∧ ((came 1 aR).poisonKeys [0x008000000000]).engPoison [0x008000000000] = true
      ∧ Entry.op aR.words ≠ 3 ∧ refused (cameUnpaired aR) aR = true)
    ∧ (((came 0 (aO 1)).pairOf 0).nextArrival (fun e => e.ordered ((came 0 (aO 1)).pairOf 0).mode) = some (aO 1)
      ∧ placed (came 0 (aO 1)) (aO 1) (Entry.footprint (aO 1).words true) = true ∧ placed (came 0 (aO 2)) (aO 2) (Entry.footprint (aO 2).words true) = true
      ∧ (0 + 1) % Entry.ncon (aO 1).words = 0 ∧ (0 + 1) % Entry.ncon (aO 2).words ≠ 0)
    ∧ (aW.checked = false ∧ (cameUnpaired aW).peerIs 0 aW.src = false)
    ∧ (aW.todo.filter (· != 0) = [] ∧ ({ aW with todo := [0, 1] } : Arrival).todo.filter (· != 0) ≠ [])
    ∧ ((forage (outOf 0 (some qsOk)) Pair.reset 32).pairOf 0).out = ⟨1, entryW 1 1, 0, some qsOk⟩ :: []
    ∧ (qsXlate ≠ qsOk ∧ qsXlate ≠ qsSkipped ∧ ((forage { outOf 0 (some qsXlate) with err := 1 } Pair.reset 32).pairOf 0).err.getLsbD 0 = true)
    ∧ (let s := at_ 100001 (forage (outOf 1 none) Pair.reset 32)
      ∃ o ∈ (s.pairOf 0).out, o.n = 1 ∧ o.status = none ∧ o.at_.toNat + 100000 < s.ptime.toNat)
    ∧ (let x : Staged := ⟨5, 0, ⟨0, 0, 1⟩, 1, qsOk⟩
      ({ r with fabric := { Fabric.reset with staged := [x] } } : State).fabric.staged = [x] ∧ x.scnt = 5) := by
  repeat' apply And.intro
  all_goals decide +kernel

/-- Tensor 0 of partition 0: one block of 64 elements, intake at pair 0, with a peer on module 1. -/
def desc0 (role : Nat) : List W64 := [BitVec.ofNat 64 (1 + 2 * role + 2 ^ 21), 0, 0, 0, 0, 0, 0, 0, BitVec.ofNat 64 (1000 * 2 ^ 32), 1]
def tens (role : Nat) : Tensor := { Tensor.reset with valid := true, desc := desc0 role }
def node (t : Tensor) (a : Arrival) : State := (came 0 a).setPart 0 (Part.reset.setTensor 0 t)
/-- A block of this step. -/
def header (st nc : Nat) : PnHeader := BitVec.ofNat 256 (nc * 2 ^ 32 + st * 2 ^ 64)
def aP (nc : Nat) : Arrival := arr 0 (entryW 3 1) (toBytes 32 (header 1 nc).toNat ++ List.replicate 256 0)
def blockOf (x : PnBlock) (role : Nat) : Tensor := (tens role).setBlock 0 x
def applyingT (role : Nat) : Tensor := { (blockOf { PnBlock.reset with applying := some (1, 0) } role) with slots := [(0, header 1 0)] }
def applies1 : State := (node (applyingT 1) aW).addApply 0 0 0 1
def ruled (t : Strand) : State :=
  (node ((applyingT 1).setBlock 0 { PnBlock.reset with applying := some (1, 0), strand := some (528, 0) }) aW).setStrand 528 0 t
def inboxOf (t : Tensor) (m : PnMsg) : State := node { t with inbox := [m] } aW
def cm : PnCommit := { block := 0, step := 1, at_ := 0, status := qsOk, data := [], dups := 0 }
/-- The words of a descriptor as PNCFG reads it. -/
def descBytes (w0 : Nat) : List Byte := toBytes 64 w0 ++ toBytes 64 (1000 * 2 ^ 32)
def words16 (b : List Byte) : List W64 := (List.range 16).map (fun i => BitVec.ofNat 64 (numAt b (8 * i) 8))
/-- A unit of the tensor's partition whose first 2 MiB lie in FD0. -/
def tiered (t : Tensor) : State :=
  (node t aW).setCore 0 { k0 with tlb := [{ part := 0, base := 0, size := 2 ^ 21, leaf := BitVec.ofNat 64 (0x010000000000 + 0xC3F), level := 2, entry := 0, table := 0 }] }
def primary : Nat := 3 + 2 ^ 21 + 2 ^ 25
theorem witness_ParameterNodesApplyAndCommit :
    (((node (tens 1) (aP 0)).pairOf 0).nextArrival (fun e => e.kind == 3) = some (aP 0) ∧ (node (tens 1) (aP 0)).peerIs 0 (aP 0).src = true
      ∧ ((cameUnpaired (aP 0)).pairOf 0).nextArrival (fun e => e.kind == 3) = some (aP 0) ∧ (cameUnpaired (aP 0)).peerIs 0 (aP 0).src = false)
    ∧ ((node Tensor.reset (aP 0)).tensor 0 0).valid = false
    ∧ (((node { tens 1 with slots := (List.range 64).map (fun k => (k, 0)) } (aP 0)).tensor 0 0).freeSlot = none ∧ (tens 1).valid = true ∧ (tens 1).freeSlot = some 0)
    ∧ ((tens 1).accepts 0 (header 1 1) (aP 1).data.length = false ∧ (tens 1).accepts 0 (header 1 0) (aP 0).data.length = true ∧ (tens 1).fenced = false
      ∧ ((node (tens 1) (aP 0)).hiveWrite (hiveWho 0) ((tens 1).slotVa 0) (aP 0).data).1 = true
      ∧ (node (tens 1) (aP 0)).rangeHeld (hiveWho 0) ((tens 1).slotVa 0) (aP 0).data.length = false
      ∧ (node (tens 1) (aP 0)).rangeLost (hiveWho 0) ((tens 1).slotVa 0) (aP 0).data.length = false
      ∧ (lostHome (node (tens 1) (aP 0))).rangeLost (hiveWho 0) ((tens 1).slotVa 0) (aP 0).data.length = true
      ∧ ({ node (tens 1) (aP 0) with homes := (moving mv).homes } : State).rangeHeld (hiveWho 0) ((tens 1).slotVa 0) (aP 0).data.length = true
      ∧ (((node (tens 1) (aP 0)).setCore 512 k0).hiveWrite (hiveWho 0) ((tens 1).slotVa 0) (aP 0).data).1 = false)
    ∧ ((header 0 0).step.toNat ≤ ((tens 1).block 0).last.toNat ∧ (header 1 0).step.toNat = ((tens 1).block 0).last.toNat + 1
      ∧ ((tens 1).block 0).has (header 1 0).step = false ∧ ((applyingT 1).block 0).has (header 1 0).step = true)
    ∧ ((header 2 0).step.toNat - ((tens 1).block 0).last.toNat ≤ 1 + (tens 1).holdmax ∧ ((tens 1).block 0).held.length < (tens 1).holdmax
      ∧ 1 + (tens 1).holdmax < (header 3 0).step.toNat - ((tens 1).block 0).last.toNat)
    ∧ (((applies1.partOf 0).applies = (0, 0, 1) :: []) ∧ ((applyingT 1).block 0).applying = some (1, 0) ∧ (node (applyingT 1) aW).ruleFree 0 528 0 = true)
    ∧ (let y := ((ruled t0).tensor 0 0).block 0
      let rt : Strand := { t0 with rule := some (0, 0) }
      (ruled rt).ruleSaved 0 0 0 = false ∧ t0.rule ≠ some (0, 0) ∧ ((ruled rt).strand 528 0).rule = some (0, 0) ∧ rt.ruleErr = false
        ∧ ((ruled rt).setPart 0 { (ruled rt).partOf 0 with saved := [{ saved0 with strands := [(4224, rt)] }]}).ruleSaved 0 0 0 = true
        ∧ ({ rt with lq := [⟨1, .atomic⟩] } : Strand).lq ≠ [] ∧ rt.lq = [] ∧ (∀ x ∈ rt.bad, x.code ≠ causePoison) ∧ (∃ x ∈ ({ rt with bad := [late] } : Strand).bad, x.code = causePoison)
        ∧ (1024 ≤ savedUnit 0 528) ∧ ({ rt with run := .ready } : Strand).run ≠ .halted ∧ ({ rt with ruleErr := true } : Strand).ruleErr = true ∧
      y.applying = some (1, 0) ∧ y.strand = some (528, 0) ∧ ((ruled t0).strand 528 0).run = .halted ∧ ((ruled t0).strand 528 0).sq = []
        ∧ (ruled t0).farOutstanding 528 0 = false ∧ t0.exitStatus = none ∧ ((ruled { t0 with run := .stopped }).strand 528 0).run = .stopped
        ∧ ((ruled { t0 with exitStatus := some 1 }).strand 528 0).exitStatus = some 1)
    ∧ (((inboxOf { tens 1 with acting := true } (.notice 0 1)).tensor 0 0).inbox = .notice 0 1 :: [] ∧ (tens 2).acting = false ∧ (tens 2).valid = true ∧ (tens 2).role = 2
      ∧ (∃ c ∈ [cm], c.block = 0 ∧ c.step = 1) ∧ ((inboxOf (tens 2) (.notice 0 1)).tensor 0 0).unnoticed = [])
    ∧ (let t := { tens 1 with waiting := [cm] }
      ((inboxOf t (.ack 0 1)).tensor 0 0).inbox = .ack 0 1 :: [] ∧ t.waiting.find? (fun c => c.block == 0 && c.step == 1) = some cm
        ∧ (∀ c ∈ t.waiting, (inboxOf t (.ack 0 1)).ptime.toNat ≤ c.at_.toNat + 2 * t.tfail)
        ∧ (∃ c ∈ t.waiting, c.at_.toNat + 2 * t.tfail < (at_ 2001 (inboxOf t (.ack 0 1))).ptime.toNat) ∧ t.role = 1 ∧ t.fenced = false)
    ∧ (({ tens 1 with fenced := true } : Tensor).fenced = true ∧ ({ tens 1 with acting := true } : Tensor).acting = true
      ∧ (node { tens 1 with acting := true } aW).mirrored (tens 1) = true ∧ (0, (1 : BitVec 48)) ∈ ({ tens 2 with noticed := [(0, 1)] } : Tensor).noticed
      ∧ (tens 1).lastWaiting 0 = none ∧ cm.dups = 0)
    ∧ ((match ((node (tens 1) aW).translateRange (hiveWho 0) .read .quiet (piecesOf 0 256)).1 with | .ok _ => true | .error _ => false) = true
      ∧ (match (r.translateRange (hiveWho 0) .read .quiet (piecesOf 0 256)).1 with | .ok _ => true | .error _ => false) = false ∧ qsPoisoned ≠ qsOk)
    ∧ (∃ x ∈ ({ tens 1 with sends := [⟨3, 0, 1, 0⟩] } : Tensor).sends, x.id = 3)
    ∧ (((tiered (tens 2)).setStrand 0 0 { t0 with sq := [⟨1, .pncfg 0 (descBytes primary) .none true 0⟩] }).strand 0 0).sq
      = ⟨1, .pncfg 0 (descBytes primary) .none true 0⟩ :: []
    ∧ (((tiered (tens 2)).pncfgStatus 0 0 (words16 (descBytes primary)) true 0).1 = 0 ∧ ((tens 2).configured (words16 (descBytes primary))).acting = true
      ∧ ((tens 2).configured (words16 (descBytes primary))).valid = true ∧ (tens 2).role = 2 ∧ (tens 2).acting = false)
    ∧ (((inboxOf (tens 1) .demote).tensor 0 0).inbox = .demote :: [] ∧ (tens 1).role = 1 ∧ (tens 1).fenced = false
      ∧ (tens 1).valid = true ∧ (inboxOf (tens 1) .demote).mirrored (tens 1) = true)
    ∧ (let s := node (tens 2) aW
      (s.tensor 0 0).valid = true ∧ (s.tensor 0 0).role = 2 ∧ (s.tensor 0 0).acting = false ∧ s.mirrored (tens 2) = true
        ∧ (s.link (64 * ((tens 2).outPort / 4) + s.hopOf ((tens 2).outPort / 4) (tens 2).pmod)).up = false)
    ∧ (let s := at_ 2000 (node { tens 1 with waiting := [cm] } aW)
      (s.tensor 0 0).valid = true ∧ (s.tensor 0 0).role = 1 ∧ (s.tensor 0 0).fenced = false
        ∧ ∃ c ∈ (s.tensor 0 0).waiting, c.at_.toNat + 2 * (s.tensor 0 0).tfail ≤ s.ptime.toNat)
    ∧ (let s := node { tens 1 with deadlines := [(1, 0, false)], acting := true } aW
      (∃ d ∈ (s.tensor 0 0).deadlines, d.1 = 1 ∧ d.2.2 = false ∧ d.2.1.toNat ≤ s.ptime.toNat) ∧ (s.tensor 0 0).acting = true
        ∧ (List.range (s.tensor 0 0).nblk).filter (fun b => ((s.tensor 0 0).block b).last.toNat < (1 : BitVec 48).toNat) ≠ [])
    ∧ ((supd.setStrand 0 0 { t0 with sq := [⟨1, .pncfg 0 (descBytes (2 ^ 21 + 2 ^ 25)) .none true 0⟩] }).strand 0 0).sq
      = ⟨1, .pncfg 0 (descBytes (2 ^ 21 + 2 ^ 25)) .none true 0⟩ :: []
    ∧ ((supd.pncfgStatus 0 0 (words16 (descBytes (2 ^ 21 + 2 ^ 25))) true 0).1 = 0 ∧ (supd.pncfgStatus 0 0 (words16 (descBytes 0)) true 0).1 = 2
      ∧ (supd.pncfgStatus 0 0 (words16 (descBytes primary)) true 0).1 = 3
      ∧ (({ tiered (tens 2) with assign := { supd.assign with unit := [(0, 0x20), (512, 0x20)] } } : State).pncfgStatus 0 0 (words16 (descBytes primary)) true 0).1 = 4
      ∧ ((tiered { tens 2 with slots := [(0, 0)] }).pncfgStatus 0 0 (words16 (descBytes (primary + 2 ^ 22))) true 0).1 = 1
      ∧ (tens 2).valid = true ∧ ({ tens 2 with slots := [(0, 0)] } : Tensor).busy = true) := by
  repeat' apply And.intro
  all_goals decide +kernel

/-- CD0's aperture, and the module with no image, in P1, and tripped. -/
def served (x : Service) : State := { r with service := x }
/-- Strand 0 is ready with one entry in its store queue. -/
def erring (q : SqKind) : State := withMe { t0 with run := .ready, sq := [⟨1, q⟩] }
theorem witness_ErrorsAndHostAccesses :
    ((ready3.strand 0 3).run ≠ .halted ∧ (ready3.strand 0 3).run ≠ .stopped ∧ (r.strand 0 0).run = .halted
      ∧ (storing.strand 0 0).sq = ⟨1, .store [(spadKey 0 8, 1)] .loc 8 [] false⟩ :: []
      ∧ ((erring (.atomic aAdd false)).strand 0 0).sq = ⟨1, .atomic aAdd false⟩ :: [] ∧ (SqKind.atomic aAdd false).keys ≠ []
      ∧ ((erring (.marker false)).strand 0 0).sq = ⟨1, .marker false⟩ :: [] ∧ (SqKind.marker false).keys = []
      ∧ ((erring (.marker false)).strand 0 0).takesFaults = true
      ∧ (heldLoad.strand 0 0).lq.map (·.seq) = [1] ∧ (heldLoad.strand 0 0).takesFaults = true)
    ∧ ((512 : UnitNo).toNat = 512 + (0 : BitVec 14).toNat / 1024 ∧ (512 : UnitNo) = pairUnit (PairRef.no ⟨0, 0⟩))
    ∧ ((r.hostKey (0x008000000000 / 128 * 128)).isSome = true ∧ ((pairing 0 16 [] (some (pMsg .data 0)) 0).core 0).pair.buf ≠ none
      ∧ ((groupAt { g1 with started := true } 0).groupOf 0 0).started = true)
    ∧ (r.hostKey 0x008000000000 = some 0x008000000000 ∧ (∃ d, d = 0 ∧ placeOf 0x008000000000 = .die d) ∧ placeOf 0x010000000000 = .far 0
      ∧ Table.get 0 r.homes.blocks 0 = 0 ∧ Table.get 0 ({ r.homes with blocks := [(0x008000000000 / 512, 1)] } : Homes).blocks (0x008000000000 / 512) ≠ 0)
    ∧ (up.tableKey 0x008000010000 = some 0x008000010000 ∧ Table.has up.homes.dir 0x8000010 = false
      ∧ ({ up with homes := { up.homes with dir := [(0x8000010, ⟨[0], 1, 0, [0], false⟩)] } } : State).tableKey 0x008000010000 = some 0x008000010000
      ∧ Table.has [((0x8000010 : Nat), (⟨[0], 1, 0, [0], false⟩ : DirRecord))] 0x8000010 = true)
    ∧ ((9 : BitVec 4).toNat ≤ 9 ∧ 9 < (10 : BitVec 4).toNat ∧ up.isUp = true ∧ r.isUp = false)
    ∧ (up.isUp = true ∧ up.hostKeys 0x008000000000 1 = some [0x008000000000] ∧ (∀ k ∈ [0x008000000000], up.writeHeld k = false)
      ∧ (moving mv).hostKeys 0x008000000000 1 = some [0x008000000000] ∧ (∃ k, k = 0x008000000000 ∧ (moving mv).writeHeld k = true))
    ∧ (cxlMem 0 = true ∧ cxlMem (0 + 1 - 1) = true ∧ (r.hostKeys 0 1).isSome = true) := by
  repeat' apply And.intro
  all_goals first | decide +kernel | exact ⟨_, rfl, by decide +kernel⟩

/-- An image whose header holds its digest, under a key and with a signature; whether the vendor's fuses hold that key's digest is for
Config.vendorKey to say, which no computation evaluates. -/
def image (key sig : BitVec 768) : BootInfo :=
  { key := key, imageDigest := 0, headerDigest := 0, version := 0, signature := sig, dies := 0xFF, farDies := 3, badPorts := 0
    cxl0 := 0, cxl1 := 0, measured := 0, microcode := 0, screening := 0 }
def unpaid : State := { r with homes := { r.homes with abud := [] } }
theorem witness_PowerBootAndAttestation :
    (r.service.power ≠ .trip ∧ r.service.power ≠ .p2 ∧ r.service.pcap.toNat - 100 ≤ (3100 : BitVec 16).toNat ∧ (3099 : BitVec 16).toNat < r.service.pcap.toNat - 100)
    ∧ (r.service.power = .p0 ∧ (served { Service.reset with power := .p1 }).service.power = .p1
      ∧ r.ptime.toNat < (served { Service.reset with power := .p1 }).service.stepAt.toNat + 10000
      ∧ (0 : W64).toNat + 10000 ≤ (at_ 10000 (served { Service.reset with power := .p1 })).ptime.toNat)
    ∧ ((94 : Byte).toNat < 95 ∧ 95 ≤ (95 : Byte).toNat ∧ 45 < (46 : Byte).toNat ∧ (45 : Byte).toNat ≤ 45)
    ∧ ((109 : Byte).toNat < 110 ∧ 110 ≤ (110 : Byte).toNat)
    ∧ (({ image 0 0 with headerDigest := 1 } : BootInfo).headerDigest ≠ ({ image 0 0 with headerDigest := 1 } : BootInfo).imageDigest)
    ∧ (∀ key sig, sha384 (beBytes 96 key.toNat) = Config.vendorKey →
      signatureOk key (sha384 (beBytes 48 (image key sig).imageDigest.toNat ++ toBytes 4 (image key sig).version.toNat)) sig = true →
      sha384 (beBytes 96 (image key sig).key.toNat) = Config.vendorKey ∧ (image key sig).headerDigest = (image key sig).imageDigest
      ∧ signatureOk (image key sig).key (sha384 (beBytes 48 (image key sig).imageDigest.toNat ++ toBytes 4 (image key sig).version.toNat))
        (image key sig).signature = true
      ∧ r.service.rollback.toNat ≤ (image key sig).version.toNat)
    ∧ ((0x081B : W32) ∈ [(0x081B : W32)] ∧ (0x081B : W32) ∉ ([] : List W32))
    ∧ ((served { Service.reset with negotiated := true }).service.negotiated = true ∧ r.service.negotiated = false ∧ up.isUp = true)
    ∧ (field (799 : W64) 11 0 < 800 ∧ 3200 < field (3201 : W64) 11 0 ∧ 800 ≤ field (800 : W64) 11 0 ∧ field (3200 : W64) 11 0 ≤ 3200)
    ∧ ((served { Service.reset with power := .trip }).service.power = .trip ∧ r.service.power ≠ .trip
      ∧ r.homes.spent 4 r.homes.agents = false ∧ unpaid.homes.spent 4 unpaid.homes.agents = true) := by
  repeat' apply And.intro
  all_goals first | decide +kernel | exact fun key sig hk h => ⟨hk, rfl, h, Nat.zero_le _⟩

/-- The state after reset with a word placed where strand 0 of unit 0 issues it; the words its fetch gives; whether a step goes on. -/
noncomputable def placedW (n w : Nat) : State := r.withFetchWord n w
def fetched (s : State) : List (BitVec 32) :=
  match ((s.actAs 0 0).fetchBundle 0 0 .demand).1 with
  | .ok rs => rs.map (·.w0)
  | .error _ => []
def goesOn (x : Host.Outcome State Fault Refusal) (f : State → Bool) : Bool := match x with | .next t => f t | _ => false
theorem witness_NopHasNoEffect :
    Issues (.nop yS) r ∧ field (0x00000008 : BitVec 32) 9 3 = 1 ∧ (fetched (placedW 32 0x0000100C) = [0x0000100C] ∧ field (0x0000100C : BitVec 32) 9 3 = 1
      ∧ (0x0000100C : BitVec 32) ≠ 0x00000008 ∧ (0x0000100C : BitVec 32) ≠ 0x0000000C) := by
  repeat' apply And.intro
  all_goals decide +kernel

theorem witness_TrapRaisesSoftwareTrap :
    Issues (.trap yS) r ∧ r.me.td = false ∧ r.me.entryWaits = false
    ∧ (∀ n, n < 1280 → r.liveKey (spadKey r.curU.toNat (field r.me.tfbase 20 8 * 256 + n)) = spadKey r.curU.toNat (field r.me.tfbase 20 8 * 256 + n))
    ∧ fetched (placedW 32 0x0000000C) ≠ [] := by
  repeat' apply And.intro
  all_goals decide +kernel

/-- The instance's identifier has one field of 4 bits of level 3. -/
def widS : State := withMe { t0 with widfmt := 0x00400000000000C3 }
theorem witness_WorkIdentifierFields :
    Issues (.rdwid yS) widS ∧ widS.writable (destA 0) = .ok ()
    ∧ ((if yX.len = .x96 then (.ok yX.lit : Rd W32) else readW widS yX.s2) = .ok (BitVec.ofNat 32 0) ∧ 0 < field widS.me.widfmt 56 54
      ∧ Issues (.rdwf yX) widS ∧ Issues (.rdwfl yX) widS ∧ widS.writable (.w 0) = .ok ())
    ∧ (field r.me.widfmt 56 54 ≤ 0 ∧ Issues (.rdwf yX) r ∧ Issues (.rdwfl yX) r)
    ∧ nodeOne.nstr = 1 ∧ nodeOne.combo (· == 0) 0 < 8 := by
  repeat' apply And.intro
  all_goals first | decide +kernel | exact ok_of (by decide +kernel)

/-- The fetch of the acting strand decodes to one instruction, to two, or to none. -/
noncomputable def bundleLen (s : State) : Option Nat :=
  match ((s.actAs 0 0).fetchBundle 0 0 .demand).1 with
  | .error _ => none
  | .ok rs => match decodeBundle rs with
    | .ok ts => some ts.length
    | .error _ => some 0
/-- A bundle of two syllables: a NOP and an ADD_B. -/
def two : State := r.placeBundle (toBytes 8 (0x00000008 + 0x0408310C * 2 ^ 32))
/-- NOTIFY with nothing to notify, where engine 0 takes it next. -/
noncomputable def cmdNext : State := r.withFetchWord 256 0x3F
/-- Strand 0 of unit 0 issues where no page is mapped, and where its page is poisoned; how a fetch fails: the bytes are poisoned. -/
def unmapped : State := let s := r.placeBundle [8]; s.setCore 0 { s.core 0 with tlb := [] }
/-- A member of a started group that has still to complete its SGRP, past its quantum. -/
def memberIssues : State :=
  let s := r.placeBundle [8]
  ((s.setCore 0 { s.core 0 with group := some 0 }).setGroup 0 0 { g1 with started := true }).setStrand 0 0 { s.strand 0 0 with runLen := 544 }
def spoiled : State := (r.placeBundle [8]).poisonKeys [placeFrame]
noncomputable def fetchStops (s : State) : Option Bool :=
  match ((s.actAs 0 0).fetchBundle 0 0 .demand).1 with
  | .ok _ => none
  | .error (.xlate _ _) => some false
  | .error (.poison _) => some true
/-- Strand 0 fetches a page of module 1: its lines have not been asked for, or are on their way. -/
def farCode (reqs : List FarReq) : State :=
  let s := r.placeBundle [8]
  (({ s with fabric := { s.fabric with pod := true, podSize := 2, reqs := reqs } } : State)).setCore 0 { s.core 0 with tlb := [{ farPage with part := s.unitPart 0 }] }
theorem witness_StepRunsDecoded :
    (let s := placedW 32 0x0000000C;
      (s.agenda = .issue 0 0 :: [] ∧ (0 : UnitNo).toNat < 560 ∧ s.mayIssue 0 0 = true ∧ (s.strand 0 0).entering = none ∧ s.asyncDue 0 0 = false ∧ s.quantumDue 0 0 = false
        ∧ s.fetchMissing 0 0 = [] ∧ s.fetchComing 0 0 = false ∧ s.service.power ≠ .trip ∧ bundleLen s = some 1))
    ∧ ((farCode []).mayIssue 0 0 = true ∧ (farCode []).fetchMissing 0 0 ≠ [] ∧ (farCode []).agenda = .issue 0 0 :: []
      ∧ (let q := { askedBy fetchMark none with owner := some (0, fetchMark) }
        (farCode [q]).mayIssue 0 0 = true ∧ (farCode [q]).fetchMissing 0 0 = [] ∧ (farCode [q]).fetchComing 0 0 = true)
      ∧ r.mayIssue 0 0 = false)
    ∧ (Table.has (({ done ok0 with agenda := [.engine 0 0] } : State).core 0).eng 0 = true
      ∧ ({ served { Service.reset with power := .trip } with agenda := [.issue 0 0] } : State).service.power = .trip)
    ∧ bundleLen two = some 2 ∧ bundleLen (placedW 32 0x0000100C) = some 0
    ∧ (memberIssues.mayIssue 0 0 = true ∧ memberIssues.quantumDue 0 0 = true ∧ (memberIssues.core 0).group ≠ none)
    ∧ (unmapped.agenda = .issue 0 0 :: [] ∧ unmapped.mayIssue 0 0 = true ∧ unmapped.asyncDue 0 0 = false ∧ unmapped.quantumDue 0 0 = false
      ∧ fetchStops unmapped = some false ∧ unmapped.fetchMissing 0 0 = [] ∧ unmapped.fetchComing 0 0 = false ∧ spoiled.fetchMissing 0 0 = []
      ∧ spoiled.fetchComing 0 0 = false ∧ spoiled.mayIssue 0 0 = true ∧ spoiled.asyncDue 0 0 = false ∧ spoiled.quantumDue 0 0 = false ∧ fetchStops spoiled = some true)
    ∧ (cmdNext.agenda = .engine 0 0 :: [] ∧ Table.has (cmdNext.core 0).eng 0 = false ∧ cmdNext.nextQueue 0 0 = some 0
      ∧ (((cmdNext.core 0).queue 0).entries.map (fun x => x.word.toNat)) = [0x3F])
    ∧ (∃ i, (r.withFetchWord 64 0x8000000000000000).agenda = .event i :: [] ∧ i = .sqhalt 0 0 ∧ i.syl? = none ∧ wfEvent i = true) := by
  repeat' apply And.intro
  all_goals first | decide +kernel | exact ⟨.sqhalt 0 0, by decide +kernel⟩

theorem witness_EncodedInstructionsDecodeToThemselves :
    ((Instr.add yL).syl? = some (0x03, yL) ∧ wfSyl (.add yL) 0x03 yL = true) ∧ (decodeSyl 0x00000008 0 0).toOption.isSome = true
    ∧ ((Instr.notify (qE 0) c0).cmd? = some (0x3F, qE 0, c0) ∧ frameOk 0 (encodeCmd 0x3F c0) = none)
    ∧ ((Instr.sqhalt 0 0).seq? = some (8, 0, 0) ∧ seqFieldsOk 8 0 = true) := by
  repeat' apply And.intro
  all_goals decide +kernel

theorem witness_MemoryReadsAsWritten :
    (r.liveKey 1 ≠ r.liveKey 0) ∧ (∀ c ∈ [((0 : Nat), (5 : Byte))], r.liveKey c.1 ≠ r.liveKey 1)
    ∧ ((∀ c ∈ [((0 : Nat), (5 : Byte))], r.liveKey c.1 = r.liveKey 0 → c.2 = 5) ∧ ∃ c ∈ [((0 : Nat), (5 : Byte))], r.liveKey c.1 = r.liveKey 0)
    ∧ r.Canonical ∧ (moving { mv with committed := true }).liveKey 0x008000000005 = 0x009000001005 := by
  repeat' apply And.intro
  all_goals decide +kernel

theorem witness_StepKeepsMemoryCanonical :
    (placedW 32 0x0000000C).Canonical ∧ goesOn (step (placedW 32 0x0000000C)) (fun t => t.me.pc == 4) = true := by
  refine ⟨⟨?_, ?_⟩, ?_⟩ <;> decide +kernel

theorem witness_CommitChangesOnly :
    (doneW yS 5).ret = false ∧ (doneW yS 5).endRun = .no
    ∧ (let a := (doneW yS 5).apply (r.setMe { r.me with srctr := r.me.srctr + BitVec.ofNat 32 (if (doneW yS 5).ctr then 1 else 0), wait := .none })
      a.curU = r.curU ∧ a.curK = r.curK ∧ a.me.lcnt0 = 0 ∧ a.me.lcnt1 = 0) ∧ r.me.repn = 0 := by
  refine ⟨?_, ?_, ⟨?_, ?_, ?_, ?_⟩, ?_⟩ <;> decide +kernel

theorem witness_ScalarSlotsLeaveMemory :
    (Instr.add yL).syl? = some (0x03, yL) ∧ 0x03 < 0x40 ∧ 0x03 ≠ 0x0F ∧ r.me.td = false ∧ goesOn (exec (.add yL) r) (fun t => !t.me.td) = true := by
  decide +kernel

/-! ### Single steps -/

/-- Strand 0 with w4 and w5, and what an instruction leaves in w3; operands w4, w5, destination w3. -/
def regs45 (x y : W32) : State := withMe { t0 with w := [(4, x), (5, y)] }
def w3After (i : Instr) (s : State) : W32 := match exec i s with | .next t => t.me.getW 3 | _ => 0xDEADBEEF
def y3 : Syl := { yL with d := 3, s1 := .reg 4, s2 := .reg 5 }

/-- R101's example. -/
theorem test_ext : w3After (.ext { yX with d := 3, s1 := .reg 4, ty := 9, lit := 0x0804 }) (regs45 0x12345678 0) = 0x67 := by decide +kernel
/-- R106's example. -/
theorem test_fmin_nan : w3After (.fmin y3) (regs45 0x7FC00001 0xBF800000) = 0xBF800000 := by decide +kernel
/-- R108's example. -/
theorem test_frcp : w3After (.frcp { y3 with s2 := z }) (regs45 0x40400000 0) = 0x3EAAA800 := by decide +kernel
/-- R91, R10: addition wraps, and with SAT it saturates. -/
theorem test_add_wraps : w3After (.add y3) (regs45 0x7FFFFFFF 1) = 0x80000000 := by decide +kernel
theorem test_sub : w3After (.sub y3) (regs45 5 7) = 0xFFFFFFFE := by decide +kernel
/-- Table 2-3's MOV, fetched and run by a step: w2 is 5 and the pc is past its 12 bytes. -/
theorem test_step_runs_mov : goesOn (step (placedW 96 (x96 0x08000012 0 5))) (fun t => t.me.pc == 12 && t.me.getW 2 == 5) = true := by decide +kernel
/-- R107's examples: 500 to E4M3, saturated and not. -/
theorem test_cvt_sat : w3After (.cvt { y3 with s2 := z, form := 16, ty := 3 }) (regs45 0x43FA0000 0) = 0x7E := by decide +kernel
theorem test_cvt_nan : w3After (.cvt { y3 with s2 := z, ty := 3 }) (regs45 0x43FA0000 0) = 0x7F := by decide +kernel
/-- R191's example: the tree sum of 2^24, 1, 1, -2^24 is 1. -/
theorem test_vredsum : goesOn (exec (.vredsum { yL with d := 4, s1 := .reg 1 })
    (withCore { k0 with rows := [(r.vKey 1, BitVec.ofNat 2048 (0x4B800000 + 0x3F800000 * 2 ^ 32 + 0x3F800000 * 2 ^ 64 + 0xCB800000 * 2 ^ 96))] }))
  (fun t => t.me.getW 4 == 0x3F800000) = true := by decide +kernel
/-- R136: TRAP goes to sys.TVEC with TD set. -/
theorem test_trap : goesOn (exec (.trap yS) (withMe { t0 with tvec := 0x2000 })) (fun t => t.me.pc == 0x2000 && t.me.td) = true := by decide +kernel
/-- R140's example. -/
theorem test_rdwf : goesOn (exec (.rdwf { yX with d := 8 }) (withMe { t0 with wid := 0xFD, widfmt := 0x0040000000000042 })) (fun t => t.me.getA 8 == 5) = true := by
  decide +kernel

/-- FIPS 180-4's example of SHA-384, "abc"; RFC 5639's base point lies on the curve. -/
theorem test_sha384_abc : sha384 [0x61, 0x62, 0x63]
    = 0xCB00753F45A35E8BB5A03D699AC65007272C32AB0EDED1631A8B605A43FF5BED8086072BA1E7CC2358BAECA134C825A7 := by decide +kernel
theorem test_curve_base : onCurve curveX curveY = true ∧ onCurve curveX (curveY + 1) = false := by decide +kernel

end Sys2Proof.Tests
end

section
/-! PROOFS. Encoding and decoding agree (O55), and the example words (O60). -/

namespace Sys2Proof

/-! ### Bits of a natural number -/

theorem bit_eq_decide {w : Nat} (x : BitVec w) (i : Nat) : bit x i = decide (x.toNat / 2 ^ i % 2 = 1) :=
  Nat.testBit_eq_decide_div_mod_eq

/-- A flag read from its bit. -/
theorem bit_eq_of_toNat {w : Nat} {x : BitVec w} {i : Nat} {b : Bool} (h : x.toNat / 2 ^ i % 2 = b.toNat) : bit x i = b := by
  rw [bit_eq_decide, h]
  cases b <;> rfl

theorem bit_toNat {w : Nat} (x : BitVec w) (i : Nat) : (bit x i).toNat = x.toNat / 2 ^ i % 2 := by
  rw [bit_eq_decide]
  rcases Nat.mod_two_eq_zero_or_one (x.toNat / 2 ^ i) with h | h <;> simp [h]

@[simp] theorem slice_toNat {w : Nat} (x : BitVec w) (lo n : Nat) : (slice x lo n).toNat = x.toNat / 2 ^ lo % 2 ^ n :=
  BitVec.toNat_ofNat _ _

/-! ### Source fields -/

/-- An encoded source field reads back (R39). -/
@[simp] theorem parseSrc_encSrc (f : Src) : parseSrc (encSrc f) = some f := by
  cases f with
  | reg n => revert n; decide
  | latch n => revert n; decide

/-- A source field that reads as an operand is that operand's code. -/
theorem encSrc_of_parseSrc {f : BitVec 7} {s : Src} (h : parseSrc f = some s) : encSrc s = f := by
  have all : ∀ f : BitVec 7, ∀ s ∈ parseSrc f, encSrc s = f := by decide
  exact all f s h

theorem parseSrc_zero : parseSrc 0 = some (.reg 0) := by decide

/-! ### The length field -/

theorem lenCode_lt (l : Len) : lenCode l < 3 := by cases l <;> decide

/-- LEN reads as the length whose code it holds (Table 2-1). -/
theorem parseLen_eq_some {w0 : BitVec 32} {l : Len} : parseLen w0 = some l ↔ field w0 1 0 = lenCode l := by
  have h4 : field w0 1 0 < 4 := Nat.mod_lt _ (by decide)
  unfold parseLen
  generalize field w0 1 0 = n at h4
  obtain rfl | rfl | rfl | rfl : n = 0 ∨ n = 1 ∨ n = 2 ∨ n = 3 := by omega
  all_goals
    cases l <;> decide

/-! ### What decodes as one syllable -/

/-- FORM of a syllable's words (R38). -/
def formOf (short : Bool) (w0 w1 : BitVec 32) : Nat := field w0 11 10 + 4 * (if short then 0 else field w1 18 15)

/-- The fields of a syllable of the length in its words, under a row of the form table and with its operands read. -/
def wordFields (len : Len) (r : FormSpec) (s1 s2 s3 : Src) (w0 w1 w2 : BitVec 32) : Syl :=
  let short := len == .s32
  { len := len
    guard := if short then ⟨0, false⟩ else ⟨slice w1 27 4, bit w1 31⟩
    nwb := !short && bit w1 26
    d := slice w0 26 6
    s1 := s1
    s2 := s2
    s3 := s3
    form := BitVec.ofNat 6 (formOf short w0 w1)
    rm := if short then (if r.rounds then 7 else 0) else slice w1 12 3
    ty := if short then 0 else slice w1 8 4
    mod := if short then 0 else slice w1 0 8
    lit := if len == .x96 then w2 else 0 }

/-- A syllable decodes exactly where its length, form and operands read, and no pattern of Table 2-8 shows. -/
theorem decodeSyl_ok_iff {w0 w1 w2 : BitVec 32} {t : Slot} :
    decodeSyl w0 w1 w2 = .ok t ↔ ∃ len r s1 s2 s3,
      parseLen w0 = some len ∧ lookupForm (field w0 9 3) (formOf (len == .s32) w0 w1) = some r
      ∧ parseSrc (slice w0 19 7) = some s1 ∧ parseSrc (slice w0 12 7) = some s2
      ∧ parseSrc (if len == .s32 then 0 else slice w1 19 7) = some s3
      ∧ checkSyl r (wordFields len r s1 s2 s3 w0 w1 w2) = none
      ∧ t = { cls := slice w0 8 2, maj := field w0 9 3, stop := bit w0 2, spec := r
              syl := wordFields len r s1 s2 s3 w0 w1 w2, instr := r.make (wordFields len r s1 s2 s3 w0 w1 w2) } := by
  constructor
  · intro h
    unfold decodeSyl at h
    split at h
    · cases h
    next len hlen =>
    dsimp only at h
    split at h
    · cases h
    next r hr =>
    split at h
    next s1 s2 s3 h1 h2 h3 =>
      split at h
      · cases h
      next hc =>
        injection h with h
        exact ⟨len, r, s1, s2, s3, hlen, hr, h1, h2, h3, hc, h.symm⟩
    · cases h
  · rintro ⟨len, r, s1, s2, s3, hlen, hr, h1, h2, h3, hc, rfl⟩
    unfold decodeSyl
    unfold formOf at hr
    unfold wordFields formOf at hc ⊢
    simp only [hlen, hr, h1, h2, h3, hc]

/-- The major opcode of a slot instruction fits its field. -/
theorem syl?_maj_lt {i : Instr} {maj : Nat} {y : Syl} (h : i.syl? = some (maj, y)) : maj < 128 := by
  cases i <;> cases h <;> decide

/-! ### An encoded syllable -/

theorem encWord0_toNat {maj : Nat} (stop : Bool) (y : Syl) (h : maj < 128) :
    (encWord0 maj stop y).toNat = y.d.toNat * 2 ^ 26 + (encSrc y.s1).toNat * 2 ^ 19 + (encSrc y.s2).toNat * 2 ^ 12
      + y.form.toNat % 4 * 2 ^ 10 + maj * 2 ^ 3 + stop.toNat * 4 + lenCode y.len := by
  have := y.d.isLt
  have := (encSrc y.s1).isLt
  have := (encSrc y.s2).isLt
  have := lenCode_lt y.len
  have := Bool.toNat_lt stop
  unfold encWord0
  rw [BitVec.toNat_ofNat]
  omega

theorem encWord1_toNat (y : Syl) :
    (encWord1 y).toNat = y.guard.neg.toNat * 2 ^ 31 + y.guard.p.toNat * 2 ^ 27 + y.nwb.toNat * 2 ^ 26
      + (encSrc y.s3).toNat * 2 ^ 19 + y.form.toNat / 4 * 2 ^ 15 + y.rm.toNat * 2 ^ 12 + y.ty.toNat * 2 ^ 8 + y.mod.toNat := by
  have := y.guard.p.isLt
  have := (encSrc y.s3).isLt
  have := y.form.isLt
  have := y.rm.isLt
  have := y.ty.isLt
  have := y.mod.isLt
  have := Bool.toNat_lt y.guard.neg
  have := Bool.toNat_lt y.nwb
  unfold encWord1
  rw [BitVec.toNat_ofNat]
  omega

/-- Every field of word 0 reads back (Table 2-2). -/
theorem encWord0_fields {maj : Nat} (stop : Bool) (y : Syl) (h : maj < 128) :
    let w := encWord0 maj stop y
    parseLen w = some y.len ∧ bit w 2 = stop ∧ field w 9 3 = maj ∧ (slice w 8 2).toNat = maj / 32
      ∧ field w 11 10 = y.form.toNat % 4 ∧ slice w 12 7 = encSrc y.s2 ∧ slice w 19 7 = encSrc y.s1 ∧ slice w 26 6 = y.d := by
  have := y.d.isLt
  have := (encSrc y.s1).isLt
  have := (encSrc y.s2).isLt
  have := lenCode_lt y.len
  have := Bool.toNat_lt stop
  have hw := encWord0_toNat stop y h
  intro w
  refine ⟨parseLen_eq_some.2 ?_, bit_eq_of_toNat ?_, ?_, ?_, ?_, BitVec.eq_of_toNat_eq ?_, BitVec.eq_of_toNat_eq ?_,
    BitVec.eq_of_toNat_eq ?_⟩ <;> simp only [field, slice_toNat, w, hw] <;> omega

/-- Every field of word 1 reads back (Table 2-3). -/
theorem encWord1_fields (y : Syl) :
    let w := encWord1 y
    slice w 0 8 = y.mod ∧ slice w 8 4 = y.ty ∧ slice w 12 3 = y.rm ∧ field w 18 15 = y.form.toNat / 4
      ∧ slice w 19 7 = encSrc y.s3 ∧ bit w 26 = y.nwb ∧ slice w 27 4 = y.guard.p ∧ bit w 31 = y.guard.neg := by
  have := y.guard.p.isLt
  have := (encSrc y.s3).isLt
  have := y.form.isLt
  have := y.rm.isLt
  have := y.ty.isLt
  have := y.mod.isLt
  have := Bool.toNat_lt y.guard.neg
  have := Bool.toNat_lt y.nwb
  have hw := encWord1_toNat y
  intro w
  refine ⟨BitVec.eq_of_toNat_eq ?_, BitVec.eq_of_toNat_eq ?_, BitVec.eq_of_toNat_eq ?_, ?_, BitVec.eq_of_toNat_eq ?_,
    bit_eq_of_toNat ?_, BitVec.eq_of_toNat_eq ?_, bit_eq_of_toNat ?_⟩ <;> simp only [field, slice_toNat, w, hw] <;> omega

theorem ite_some_eq_none {α : Type} {c : Prop} [Decidable c] {a : α} {o : Option α} :
    (if c then some a else o) = none ↔ ¬c ∧ o = none := by
  by_cases h : c <;> simp [h]

/-- The literal of a checked syllable that is not X96 is 0 (R36). -/
theorem lit_of_checkSyl {r : FormSpec} {y : Syl} (h : checkSyl r y = none) (hx : y.len ≠ .x96) : y.lit = 0 := by
  simp only [checkSyl, ite_some_eq_none] at h
  obtain ⟨-, -, -, -, -, -, -, -, -, hlit, -⟩ := h
  simpa [isX, hx] using hlit

/-- What R37 gives the fields that an S32 syllable lacks. -/
theorem fields_of_shortOk {r : FormSpec} {y : Syl} (h : shortOk r y = true) (hs : y.len = .s32) :
    y.guard = ⟨0, false⟩ ∧ y.nwb = false ∧ y.s3 = .reg 0 ∧ y.form.toNat < 4 ∧ y.rm = (if r.rounds then 7 else 0)
      ∧ y.ty = 0 ∧ y.mod = 0 := by
  simpa [shortOk, hs, and_assoc] using h

/-- FORM reads back from the words of a syllable. -/
theorem formOf_encSyl {maj : Nat} (stop : Bool) {r : FormSpec} {y : Syl} (w1 : BitVec 32) (hmaj : maj < 128)
    (hs : shortOk r y = true) (h1 : y.len ≠ .s32 → w1 = encWord1 y) :
    formOf (y.len == .s32) (encWord0 maj stop y) w1 = y.form.toNat := by
  obtain ⟨-, -, -, -, hf, -⟩ := encWord0_fields stop y hmaj
  unfold formOf
  by_cases hl : y.len = .s32
  · obtain ⟨-, -, -, h4, -⟩ := fields_of_shortOk hs hl
    rw [hf, if_pos (by simp [hl])]
    omega
  · obtain ⟨-, -, -, hx, -⟩ := encWord1_fields y
    rw [hf, if_neg (by simp [hl]), h1 hl, hx]
    omega

/-- The words of a well-formed syllable read as its fields. -/
theorem wordFields_encSyl {maj : Nat} (stop : Bool) {r : FormSpec} {y : Syl} (w1 w2 : BitVec 32) (hmaj : maj < 128)
    (hc : checkSyl r y = none) (hs : shortOk r y = true) (h1 : y.len ≠ .s32 → w1 = encWord1 y)
    (h2 : y.len = .x96 → w2 = y.lit) :
    wordFields y.len r y.s1 y.s2 y.s3 (encWord0 maj stop y) w1 w2 = y := by
  obtain ⟨-, -, -, -, -, -, -, hd⟩ := encWord0_fields stop y hmaj
  obtain ⟨hmod, hty, hrm, -, -, hnwb, hgp, hgn⟩ := encWord1_fields y
  have hform := formOf_encSyl stop w1 hmaj hs h1
  have hlit (hx : y.len ≠ .x96) := lit_of_checkSyl hc hx
  have hfm : BitVec.ofNat 6 y.form.toNat = y.form := by simp
  unfold wordFields
  dsimp only
  rw [hform, hd, hfm]
  cases hl : y.len with
  | s32 =>
    obtain ⟨hg, hn, h3, -, hr, ht, hm⟩ := fields_of_shortOk hs hl
    rw [hl] at hlit
    cases y
    simp_all
  | l64 =>
    rw [h1 (by simp [hl]), hmod, hty, hrm, hnwb, hgp, hgn]
    rw [hl] at hlit
    cases y
    simp_all
  | x96 =>
    rw [h1 (by simp [hl]), hmod, hty, hrm, hnwb, hgp, hgn, h2 hl]
    cases y
    simp_all

/-- A well-formed slot instruction decodes from its words, whatever follows them. -/
theorem decodeSyl_encodeSyl {i : Instr} {maj : Nat} {y : Syl} (stop : Bool) {w1 w2 : BitVec 32}
    (h : i.syl? = some (maj, y)) (hwf : wfSyl i maj y = true) (h1 : y.len ≠ .s32 → w1 = encWord1 y)
    (h2 : y.len = .x96 → w2 = y.lit) :
    ∃ t, decodeSyl (encWord0 maj stop y) w1 w2 = .ok t ∧ t.instr = i ∧ t.syl = y ∧ t.maj = maj ∧ t.stop = stop
      ∧ t.cls.toNat = maj / 32 := by
  have hmaj := syl?_maj_lt h
  obtain ⟨r, hr, hmake, hc, hs⟩ :
      ∃ r, lookupForm maj y.form.toNat = some r ∧ r.make y = i ∧ checkSyl r y = none ∧ shortOk r y = true := by
    unfold wfSyl at hwf
    split at hwf
    · cases hwf
    next r hr =>
      simp only [Bool.and_eq_true, decide_eq_true_eq, Option.isNone_iff_eq_none] at hwf
      obtain ⟨⟨hm, hc⟩, hs⟩ := hwf
      exact ⟨r, hr, hm, hc, hs⟩
  obtain ⟨hlen, hstop, hm, hcls, -, h2f, h1f, -⟩ := encWord0_fields stop y hmaj
  have hform := formOf_encSyl stop w1 hmaj hs h1
  have hy := wordFields_encSyl stop w1 w2 hmaj hc hs h1 h2
  have h3f : parseSrc (if y.len == .s32 then 0 else slice w1 19 7) = some y.s3 := by
    by_cases hl : y.len = .s32
    · obtain ⟨-, -, h3, -⟩ := fields_of_shortOk hs hl
      rw [if_pos (by simp [hl]), h3]
      exact parseSrc_zero
    · obtain ⟨-, -, -, -, h3, -⟩ := encWord1_fields y
      simp [hl, h1 hl, h3]
  refine ⟨_, decodeSyl_ok_iff.2 ⟨y.len, r, y.s1, y.s2, y.s3, hlen, ?_, ?_, ?_, h3f, ?_, rfl⟩, ?_, hy, hm, hstop, hcls⟩
  · rw [hm, hform, hr]
  · rw [h1f, parseSrc_encSrc]
  · rw [h2f, parseSrc_encSrc]
  · rw [hy, hc]
  · rw [hy, hmake]

/-! ### A decoded syllable -/

/-- A decoded syllable passes the checks of the row that its opcode and FORM name, and is that row's instruction. -/
theorem spec_of_decoded {w0 w1 w2 : BitVec 32} {t : Slot} (h : decodeSyl w0 w1 w2 = .ok t) :
    t.maj = field w0 9 3 ∧ lookupForm t.maj t.syl.form.toNat = some t.spec ∧ checkSyl t.spec t.syl = none
      ∧ t.instr = t.spec.make t.syl := by
  obtain ⟨len, r, s1, s2, s3, -, hr, -, -, -, hc, rfl⟩ := decodeSyl_ok_iff.1 h
  refine ⟨rfl, ?_, hc, rfl⟩
  have hlt : formOf (len == .s32) w0 w1 < 2 ^ 6 := by
    unfold formOf field
    split <;> omega
  show lookupForm _ (BitVec.ofNat 6 (formOf (len == .s32) w0 w1)).toNat = _
  rw [BitVec.toNat_ofNat, Nat.mod_eq_of_lt hlt, hr]

/-- Word 0 is put together again from what was read of it. -/
theorem encWord0_of_decoded {w0 w1 w2 : BitVec 32} {t : Slot} (h : decodeSyl w0 w1 w2 = .ok t) :
    encWord0 t.maj t.stop t.syl = w0 := by
  obtain ⟨len, r, s1, s2, s3, hlen, -, h1, h2, -, -, rfl⟩ := decodeSyl_ok_iff.1 h
  have hl := parseLen_eq_some.1 hlen
  have he1 := congrArg BitVec.toNat (encSrc_of_parseSrc h1)
  have he2 := congrArg BitVec.toNat (encSrc_of_parseSrc h2)
  have hb := bit_toNat w0 2
  have hmaj : field w0 9 3 < 128 := Nat.mod_lt _ (by decide)
  have := w0.isLt
  apply BitVec.eq_of_toNat_eq
  dsimp only
  rw [encWord0_toNat _ _ hmaj]
  simp only [wordFields, formOf, he1, he2, ← hl, hb, slice_toNat, BitVec.toNat_ofNat, field]
  omega

/-- Word 1 of a syllable that has one is put together again from what was read of it. -/
theorem encWord1_of_decoded {w0 w1 w2 : BitVec 32} {t : Slot} (h : decodeSyl w0 w1 w2 = .ok t) (hs : t.syl.len ≠ .s32) :
    encWord1 t.syl = w1 := by
  obtain ⟨len, r, s1, s2, s3, hlen, -, -, -, h3, -, rfl⟩ := decodeSyl_ok_iff.1 h
  have hf : (len == Len.s32) = false := by simpa [wordFields] using hs
  simp only [hf, Bool.false_eq_true, if_false] at h3
  have he3 := congrArg BitVec.toNat (encSrc_of_parseSrc h3)
  have hb1 := bit_toNat w1 26
  have hb2 := bit_toNat w1 31
  have := w1.isLt
  apply BitVec.eq_of_toNat_eq
  rw [encWord1_toNat]
  simp only [wordFields, formOf, hf, Bool.false_eq_true, if_false, Bool.not_false, Bool.true_and, he3, hb1, hb2, slice_toNat,
    BitVec.toNat_ofNat, field]
  omega

/-- The literal of an X96 syllable is its word 2. -/
theorem lit_of_decoded {w0 w1 w2 : BitVec 32} {t : Slot} (h : decodeSyl w0 w1 w2 = .ok t) (hx : t.syl.len = .x96) :
    t.syl.lit = w2 := by
  obtain ⟨len, r, s1, s2, s3, -, -, -, -, -, -, rfl⟩ := decodeSyl_ok_iff.1 h
  have hf : len = .x96 := hx
  simp [wordFields, hf]

/-- A decoded syllable encodes to the words it was read from. -/
theorem encodeSyl_of_decoded {w0 w1 w2 : BitVec 32} {t : Slot} (h : decodeSyl w0 w1 w2 = .ok t) :
    encodeSyl t.maj t.stop t.syl = [w0, w1, w2].take (t.syl.len.bytes / 4) := by
  unfold encodeSyl
  cases hl : t.syl.len with
  | s32 => simp [encWord0_of_decoded h, Len.bytes]
  | l64 => simp [encWord0_of_decoded h, encWord1_of_decoded h (by simp [hl]), Len.bytes]
  | x96 => simp [encWord0_of_decoded h, encWord1_of_decoded h (by simp [hl]), lit_of_decoded h hl, Len.bytes]

/-! ### Command words -/

theorem encodeCmd_toNat {op : Nat} (c : Cmd) (h : op < 2 ^ 8) :
    (encodeCmd op c).toNat = op + c.rm.toNat * 2 ^ 8 + c.ftz.toNat * 2 ^ 11 + c.sat.toNat * 2 ^ 12
      + c.awk.toNat * 2 ^ 16 + c.rsk.toNat * 2 ^ 18 + c.awb.toNat * 2 ^ 20 + c.awph.toNat * 2 ^ 29
      + c.rsb.toNat * 2 ^ 32 + c.awq.toNat * 2 ^ 48 + c.awv.toNat * 2 ^ 64 + c.pay.toNat * 2 ^ 128 := by
  have := c.rm.isLt
  have := Bool.toNat_lt c.ftz
  have := Bool.toNat_lt c.sat
  have := c.awk.isLt
  have := c.rsk.isLt
  have := c.awb.isLt
  have := Bool.toNat_lt c.awph
  have := c.rsb.isLt
  have := c.awq.isLt
  have := c.awv.isLt
  have := c.pay.isLt
  unfold encodeCmd
  rw [BitVec.toNat_ofNat]
  omega

/-- Every field of a command word reads back (Table 2-10). -/
theorem parseCmd_encodeCmd {op : Nat} (c : Cmd) (h : op < 2 ^ 8) :
    cmdOp (encodeCmd op c) = op ∧ parseCmd (encodeCmd op c) = c := by
  have hw := encodeCmd_toNat c h
  obtain ⟨rm, ftz, sat, awk, rsk, awb, awph, rsb, awq, awv, pay⟩ := c
  have := rm.isLt
  have := Bool.toNat_lt ftz
  have := Bool.toNat_lt sat
  have := awk.isLt
  have := rsk.isLt
  have := awb.isLt
  have := Bool.toNat_lt awph
  have := rsb.isLt
  have := awq.isLt
  have := awv.isLt
  have := pay.isLt
  dsimp only at hw
  refine ⟨?_, ?_⟩
  · unfold cmdOp field
    omega
  unfold parseCmd
  congr 1
  case e_ftz => exact bit_eq_of_toNat (by omega)
  case e_sat => exact bit_eq_of_toNat (by omega)
  case e_awph => exact bit_eq_of_toNat (by omega)
  all_goals
    refine BitVec.eq_of_toNat_eq ?_
    rw [slice_toNat]
    omega

/-- The opcode of a command fits its field, and names its instruction (Table 2-11). -/
theorem mkCmd_of_cmd? {i : Instr} {op : Nat} {q : QRef} {c : Cmd} (h : i.cmd? = some (op, q, c)) :
    op < 2 ^ 8 ∧ mkCmd op q c = some i := by
  cases i <;> cases h <;> exact ⟨by decide, rfl⟩

/-- A command word decodes by its opcode and fields. -/
theorem decodeCmd_of_fields {i : Instr} {q : QRef} {w : CmdWord} (hf : frameOk (q.queue.toNat % 4) w = none)
    (h : mkCmd (cmdOp w) q (parseCmd w) = some i) : decodeCmd q w = .ok i := by
  unfold decodeCmd
  simp only [hf, h]

/-- A command that its queue's engine takes decodes from its word. -/
theorem decodeCmd_encodeCmd {i : Instr} {op : Nat} {q : QRef} {c : Cmd} (h : i.cmd? = some (op, q, c))
    (hf : frameOk (q.queue.toNat % 4) (encodeCmd op c) = none) : decodeCmd q (encodeCmd op c) = .ok i := by
  obtain ⟨hop, hmk⟩ := mkCmd_of_cmd? h
  obtain ⟨h1, h2⟩ := parseCmd_encodeCmd c hop
  exact decodeCmd_of_fields hf (by rw [h1, h2, hmk])

/-! ### Sequencer words -/

/-- The opcode of a sequencer word names its instruction (Table 2-12). -/
theorem mkSeq_of_seq? {i : Instr} {op : Nat} {x : SeqCtx} {a : SeqArg} (h : i.seq? = some (op, x, a)) :
    op < 2 ^ 4 ∧ mkSeq op x a = some i := by
  cases i <;> cases h <;> exact ⟨by decide, rfl⟩

/-- The opcode and the other bits of a sequencer word read back (R58). -/
theorem encodeSeq_fields {op : Nat} (a : SeqArg) (h : op < 2 ^ 4) :
    field (encodeSeq op a) 63 60 = op ∧ slice (encodeSeq op a) 0 60 = a := by
  have := a.isLt
  have hw : (encodeSeq op a).toNat = op * 2 ^ 60 + a.toNat := by
    unfold encodeSeq
    rw [BitVec.toNat_ofNat]
    omega
  constructor
  · unfold field
    omega
  · apply BitVec.eq_of_toNat_eq
    rw [slice_toNat]
    omega

/-- A sequencer word decodes by its opcode and its other bits. -/
theorem decodeSeq_of_fields {i : Instr} {x : SeqCtx} {w : BitVec 64}
    (hf : seqFieldsOk (field w 63 60) (slice w 0 60) = true) (h : mkSeq (field w 63 60) x (slice w 0 60) = some i) :
    decodeSeq x w = .ok i := by
  unfold decodeSeq
  simp only [hf, h, if_true]

/-- A sequencer word with acceptable fields decodes (R59). -/
theorem decodeSeq_encodeSeq {i : Instr} {op : Nat} {x : SeqCtx} {a : SeqArg} (h : i.seq? = some (op, x, a))
    (hf : seqFieldsOk op a = true) : decodeSeq x (encodeSeq op a) = .ok i := by
  obtain ⟨hop, hmk⟩ := mkSeq_of_seq? h
  obtain ⟨h1, h2⟩ := encodeSeq_fields a hop
  exact decodeSeq_of_fields (by rw [h1, h2, hf]) (by rw [h1, h2, hmk])

/-- Settles O55: each kind of word is read field by field, and put together again. -/
theorem encodedInstructionsDecodeToThemselves : Obligations.EncodedInstructionsDecodeToThemselves := by
  unfold Obligations.EncodedInstructionsDecodeToThemselves
  refine ⟨fun i maj y stop w1 w2 h hwf => ?_, fun w0 w1 w2 t h => encodeSyl_of_decoded h,
    fun i op q c h hf => decodeCmd_encodeCmd h hf, fun i op x a h hf => decodeSeq_encodeSeq h hf⟩
  dsimp only
  unfold encodeSyl
  cases hl : y.len with
  | s32 => exact decodeSyl_encodeSyl stop h hwf (by simp [hl]) (by simp [hl])
  | l64 => exact decodeSyl_encodeSyl stop h hwf (by simp) (by simp [hl])
  | x96 => exact decodeSyl_encodeSyl stop h hwf (by simp) (by simp)

/-- Settles O60: the decoder evaluated on each word. -/
theorem exampleWordsDecode : Obligations.ExampleWordsDecode := by
  unfold Obligations.ExampleWordsDecode
  refine ⟨?_, ?_, ?_, ?_, ?_, ?_, ?_, ?_, ?_, ?_, ?_, ?_⟩ <;> decide +kernel

end Sys2Proof
end

section
/-! PROOFS. What becomes of a lone bundle (O1), and control transfers (O9). -/

namespace Sys2Proof.Machine

/-! ### A lone bundle whatever its guard -/

section Lone

variable {s : State} {maj : Nat} {y : Syl} (f : Ctx → Rd Done)

/-- A control transfer inside a repetition takes ILLEGAL-INSTRUCTION (R112). -/
theorem runOne_transfer_in_rep (h0 : s.me.repSkip = false) (hr : s.me.repn ≠ 0) (hlo : 0x0B ≤ maj) (hhi : maj ≤ 0x0F) :
    s.runOne maj y f = s.trapHere causeIllegalInstruction 0 0 0 0 := by
  have hx : [mkSlot maj 0 y f].find? (fun x => 0x0B ≤ x.maj && x.maj ≤ 0x0F) = some (mkSlot maj 0 y f) :=
    find?_one_some (by simp [mkSlot, hlo, hhi])
  unfold State.runOne State.runBundle
  rw [h0, if_neg (by decide), hx, if_pos (by simpa using hr)]
  rfl

/-- No control transfer inside a repetition: the first check of a lone bundle finds nothing. -/
theorem repFind_none (hr : s.me.repn = 0 ∨ maj < 0x0B ∨ 0x0F < maj) :
    (if s.me.repn != 0 then [mkSlot maj 0 y f].find? (fun x => 0x0B ≤ x.maj && x.maj ≤ 0x0F) else none) = none := by
  by_cases h : s.me.repn = 0
  · simp [h]
  · have hm : ¬(0x0B ≤ maj ∧ maj ≤ 0x0F) := by
      rcases hr with hr | hr | hr
      · exact absurd hr h
      · omega
      · omega
    rw [if_pos (by simpa using h), find?_one_none]
    show (decide (0x0B ≤ maj) && decide (maj ≤ 0x0F)) = false
    simpa using hm

/-- A PPA instruction on a unit without a PPA takes ILLEGAL-INSTRUCTION (R397). -/
theorem runOne_no_ppa (h0 : s.me.repSkip = false) (hm : maj = 0x6E) (hu : unitClass s.curU ≠ 0) :
    s.runOne maj y f = s.trapHere causeIllegalInstruction 0 0 (maj / 32) 0 := by
  have hr := repFind_none (s := s) (maj := maj) (y := y) f (.inr (.inr (by omega)))
  unfold State.runOne State.runBundle
  rw [h0, if_neg (by decide), hr]
  simp [mkSlot, hm, hu]

/-- The unit has the part of the slot (R397): the second check of a lone bundle finds nothing. -/
theorem ppaFind_none (hu : maj = 0x6E → unitClass s.curU = 0) :
    [mkSlot maj 0 y f].find? (fun x => x.maj == 0x6E && unitClass s.curU != 0) = none := by
  apply find?_one_none
  by_cases hm : maj = 0x6E <;> simp [mkSlot, hm, hu]

/-- The trap of a failed load is taken in front of one of R121's instructions. -/
theorem runOne_bad {b : BadDest} (h0 : s.me.repSkip = false) (hr : s.me.repn = 0 ∨ maj < 0x0B ∨ 0x0F < maj)
    (hu : maj = 0x6E → unitClass s.curU = 0) (hm : marksBad maj y.form.toNat = true) (hb : s.me.untaken = some b) :
    s.runOne maj y f = s.trapBad b (maj / 32) 0 := by
  have hx : [mkSlot maj 0 y f].find? (·.marks) = some (mkSlot maj 0 y f) := find?_one_some hm
  unfold State.runOne State.runBundle
  rw [h0, if_neg (by decide), repFind_none f hr]
  simp only [ppaFind_none f hu, hx, hb]
  rfl

/-- Without such a trap the bundle ends as its slot's results say. -/
theorem runOne_settles (h0 : s.me.repSkip = false) (hr : s.me.repn = 0 ∨ maj < 0x0B ∨ 0x0F < maj)
    (hu : maj = 0x6E → unitClass s.curU = 0) (hm : marksBad maj y.form.toNat = true → s.me.untaken = none) :
    s.runOne maj y f
      = s.settleBundle y.len.bytes (slotResults y.len.bytes s.me [mkSlot maj 0 y f]) := by
  unfold State.runOne State.runBundle
  rw [h0, if_neg (by decide), repFind_none f hr]
  simp only [ppaFind_none f hu]
  by_cases hmk : marksBad maj y.form.toNat = true
  · have hx : [mkSlot maj 0 y f].find? (·.marks) = some (mkSlot maj 0 y f) := find?_one_some hmk
    simp only [hx, hm hmk]
  · have hx : [mkSlot maj 0 y f].find? (·.marks) = none := find?_one_none (by simpa [mkSlot] using hmk)
    simp only [hx]

/-- A slot whose guard is off commits nothing of its own (R43). -/
theorem runOne_guard_off (h0 : s.me.repSkip = false) (hr : s.me.repn = 0 ∨ maj < 0x0B ∨ 0x0F < maj)
    (hu : maj = 0x6E → unitClass s.curU = 0) (hm : marksBad maj y.form.toNat = true → s.me.untaken = none)
    (hg : guardOn s.me y.guard = false) : s.runOne maj y f = s.commit y.len.bytes [] := by
  have hres : slotResults y.len.bytes s.me [mkSlot maj 0 y f] = [] := by simp [slotResults, mkSlot, hg]
  rw [runOne_settles f h0 hr hu hm, hres]
  simp [State.settleBundle, State.noRoom, donesOf]

end Lone

/-- Outside slot M a trap leaves the directory as it is. -/
theorem traps_of_exec {i : Instr} {maj : Nat} {y : Syl} {s : State} {c : BitVec 8} {a n : W64} (h : i.syl? = some (maj, y))
    (hm : maj / 32 ≠ 2) (he : exec i s = .next (s.trapHere c a n (maj / 32) 0)) : Traps i s c a n := by
  unfold Traps
  rw [h]
  simp only [noteWalk_slot hm]
  exact he

/-- Settles O1, by the checks of a lone bundle in their order. -/
theorem loneBundleOutcomes : Obligations.LoneBundleOutcomes := by
  intro i maj y s h
  have he := exec_slot i s maj y h
  refine ⟨fun hi => ⟨fun d hf => completes_of h he hi hf, fun c a n hf => traps_of h he hi hf, fun b hf => ?_,
    fun hf => stalls_of h he hi hf, fun w hf => blocks_of h he hi hf⟩, fun h0 hr hu => ⟨fun hm hg => ?_, fun b hm hb => ?_⟩,
    fun h0 hr hlo hhi => ?_, fun h0 hm hu => ?_⟩
  · have hend := ends_of h he hi hf
    unfold EndsAs at hend
    rw [h] at hend
    exact hend
  · rw [he, runOne_guard_off _ h0 hr hu hm hg]
  · rw [he, runOne_bad _ h0 hr hu hm hb]
  · have hz : maj / 32 = 0 := by omega
    refine traps_of_exec h (by omega) ?_
    rw [he, runOne_transfer_in_rep _ h0 hr hlo hhi, hz]
    rfl
  · refine traps_of_exec h (by omega) ?_
    rw [he, runOne_no_ppa _ h0 hm hu]
    rfl

/-! ### Control transfers -/

theorem transfer_ok {t : W64} (d : Done) (h : t.toNat % 4 = 0) : transfer d t = .ok { d with target := some t } := if_pos h

theorem transfer_trap {t : W64} (d : Done) (h : t.toNat % 4 ≠ 0) : transfer d t = .error (.trap 0x03 0 0) := if_neg h

section Transfers

variable {y : Syl} {s : State}

theorem slotCall_eq {c : Ctx} (hf : freeA s y) :
    slotCall y s c = transfer (doneA y (s.me.pc + BitVec.ofNat 64 c.len)) (s.me.pc + y.lit.signExtend 64) := by
  unfold slotCall
  rw [Rd.bind_ok (putA_ok _ hf)]
  rfl

theorem slotCallr_eq {c : Ctx} {t : W64} (ht : readA s y.s1 = .ok t) (hf : freeA s y) :
    slotCallr y s c = transfer (doneA y (s.me.pc + BitVec.ofNat 64 c.len)) t := by
  unfold slotCallr
  rw [Rd.bind_ok ht, Rd.bind_ok (putA_ok _ hf)]

theorem slotJr_eq {t : W64} (ht : readA s y.s1 = .ok t) : slotJr y s = transfer (Done.plain id) t := by
  unfold slotJr
  rw [Rd.bind_ok ht]

/-- An instruction whose meaning is a transfer goes to the target, or traps where it is misaligned. -/
theorem transfers_of {i : Instr} {maj : Nat} {d : Done} {t : W64} (h : i.syl? = some (maj, y)) (hi : Issues i s)
    (hf : slotRun i s ⟨0, y.len.bytes⟩ = transfer d t) :
    (t.toNat % 4 = 0 → Completes i s { d with target := some t }) ∧ (t.toNat % 4 ≠ 0 → Traps i s 0x03 0 0) :=
  have he := exec_slot i s maj y h
  ⟨fun h0 => completes_of h he hi (hf.trans (transfer_ok d h0)), fun h0 => traps_of h he hi (hf.trans (transfer_trap d h0))⟩

end Transfers

/-- Settles O9: each form's meaning is a transfer of its link result. -/
theorem controlTransfers : Obligations.ControlTransfers := by
  refine ⟨fun y s hi => completes_of rfl (exec_slot (.nop y) s _ y rfl) hi rfl, fun y s hi => transfers_of rfl hi rfl,
    fun y s hi hf => transfers_of rfl hi (slotCall_eq hf), fun y s t ht => ⟨fun h0 => ⟨fun hi hf => ?_, fun hi => ?_⟩,
      fun h0 => ⟨fun hi hf => ?_, fun hi => ?_⟩⟩⟩
  · exact (transfers_of rfl hi (slotCallr_eq ht hf)).1 h0
  · exact (transfers_of rfl hi (slotJr_eq ht)).1 h0
  · exact (transfers_of rfl hi (slotCallr_eq ht hf)).2 h0
  · exact (transfers_of rfl hi (slotJr_eq ht)).2 h0

end Sys2Proof.Machine
end

section
/-! PROOFS. A step runs what it decodes (O54). -/

namespace Sys2Proof.Machine

/-! ### The next act -/

section Agenda

variable {s : State} {a : Act} {rest : List Act}

/-- The agenda's first act is the next step. -/
theorem step_of_agenda (h : s.agenda = a :: rest) : step s = State.act { s with agenda := rest } a := by
  unfold step State.nextAct
  rw [h]

/-- With power every act may come about (R436). -/
theorem mayAct_of_power (a : Act) (h : s.service.power ≠ .trip) : s.mayAct a = true := by
  simp [State.mayAct, h]

/-- Without power none but a boot and the passing of time (R436, R437). -/
theorem mayAct_without_power (h : s.service.power = .trip) (h1 : ∀ n, a ≠ .advance n) (h2 : ∀ b, a ≠ .event (.boot b)) :
    s.mayAct a = false := by
  unfold State.mayAct
  rw [h]
  split
  · exact absurd rfl (h1 _)
  · exact absurd rfl (h2 _)
  · rfl

theorem mayAct_boot (b : BootInfo) : s.mayAct (.event (.boot b)) = true := by simp [State.mayAct]

theorem act_of_not_mayAct (h : s.mayAct a = false) : s.act a = .next s := by
  unfold State.act
  rw [h]
  rfl

end Agenda

section Issue

variable {s : State} {u : UnitNo} {k : StrandNo}

theorem act_issue (hp : s.service.power ≠ .trip) (hu : u.toNat < 560) : s.act (.issue u k) = s.issueAct u k := by
  unfold State.act
  rw [mayAct_of_power _ hp]
  exact if_pos hu

/-- A strand that may issue and lacks no far line takes its turn (R380). -/
theorem issueAct_turn (h1 : s.mayIssue u k = true) (h2 : s.fetchMissing u k = []) (h3 : s.fetchComing u k = false) :
    s.issueAct u k = s.turn u k := by
  simp [State.issueAct, h1, h2, h3]

theorem issueAct_not (h : s.mayIssue u k = false) : s.issueAct u k = .next s := by
  simp [State.issueAct, h]

theorem issueAct_missing (h1 : s.mayIssue u k = true) (h2 : s.fetchMissing u k ≠ []) :
    s.issueAct u k = .next (s.fetchFar u k) := by
  simp [State.issueAct, h1, h2]

theorem issueAct_coming (h1 : s.mayIssue u k = true) (h2 : s.fetchMissing u k = []) (h3 : s.fetchComing u k = true) :
    s.issueAct u k = .next s := by
  simp [State.issueAct, h1, h2, h3]

/-- Without a trap to enter and within its quantum a strand issues its bundle (R73, R82). -/
theorem turn_issues (h1 : (s.strand u k).entering = none) (h2 : s.asyncDue u k = false)
    (h3 : s.quantumDue u k = false ∨ (s.core u).group ≠ none) : s.turn u k = s.issueBundle u k := by
  have hq : (s.quantumDue u k && (s.core u).group.isNone) = false := by
    rcases h3 with h3 | h3
    · simp [h3]
    · simp [Option.isNone_eq_false_iff.2 (Option.isSome_iff_ne_none.2 h3)]
  simp [State.turn, h1, h2, hq]

/-- A step that is the turn of a strand which issues is the issue of its bundle. -/
theorem step_issues {s0 : State} (hstep : step s = s0.issueAct u k) (h1 : s0.mayIssue u k = true)
    (h2 : s0.fetchMissing u k = []) (h3 : s0.fetchComing u k = false) (h4 : (s0.strand u k).entering = none)
    (h5 : s0.asyncDue u k = false) (h6 : s0.quantumDue u k = false ∨ (s0.core u).group ≠ none) :
    step s = s0.issueBundle u k := by
  rw [hstep, issueAct_turn h1 h2 h3, turn_issues h4 h5 h6]

theorem step_issue_act {rest : List Act} (ha : s.agenda = .issue u k :: rest) (hp : s.service.power ≠ .trip)
    (hu : u.toNat < 560) : step s = State.issueAct { s with agenda := rest } u k :=
  (step_of_agenda ha).trans (act_issue hp hu)

/-! ### What the issue of a bundle comes to -/

section Fetched

variable {s1 : State} {rs : List RawSyl} (hf : (s.actAs u k).fetchBundle u k .demand = (.ok rs, s1))
include hf

theorem issueBundle_ok {ts : List Slot} (hd : decodeBundle rs = .ok ts) : s.issueBundle u k = s1.execBundle rs ts := by
  simp [State.issueBundle, hf, hd]

theorem issueBundle_illegal {r : RawSyl} {e : DecodeErr} (hd : decodeBundle rs = .error (r, e)) :
    s.issueBundle u k = .next (s1.trapHere causeIllegalInstruction 0 0 (field r.w0 9 8) r.off) := by
  simp [State.issueBundle, hf, hd]

end Fetched

theorem issueBundle_fetchErr {s1 : State} {e : FetchErr} (hf : (s.actAs u k).fetchBundle u k .demand = (.error e, s1)) :
    s.issueBundle u k = .next (s1.fetchTrap e) := by
  simp [State.issueBundle, hf]

theorem execBundle_several {rs : List RawSyl} {ts : List Slot} (h : ts.length ≠ 1) :
    s.execBundle rs ts = .next (s.runBundle (s.bundleOf rs ts)) := by
  match ts with
  | [] => rfl
  | [_] => exact absurd rfl h
  | _ :: _ :: _ => rfl

end Issue

/-! ### Engines and events -/

theorem act_engine {s : State} {u : UnitNo} {e : BitVec 2} (hp : s.service.power ≠ .trip) (hu : u.toNat < 560) :
    s.act (.engine u e) = s.engineAct u e := by
  unfold State.act
  rw [mayAct_of_power _ hp]
  exact if_pos hu

/-- An idle engine takes the head command of the queue whose turn it is (R161). -/
theorem engineAct_takes {s : State} {u : UnitNo} {e : BitVec 2} {n : Nat} {x : QEntry} {more : List QEntry} {i : Instr}
    (h : Table.has (s.core u).eng e.toNat = false) (hn : s.nextQueue u e.toNat = some n)
    (hx : ((s.core u).queue n).entries = x :: more) (hd : decodeCmd ⟨u, BitVec.ofNat 5 n⟩ x.word = .ok i) :
    s.engineAct u e = exec i s := by
  simp [State.engineAct, h, hn, hx, hd]

theorem engineAct_busy {s : State} {u : UnitNo} {e : BitVec 2} (h : Table.has (s.core u).eng e.toNat = true) :
    s.engineAct u e = .next (s.writeEarly u e.toNat) := by
  simp [State.engineAct, h]

theorem act_event {s : State} {i : Instr} (h : s.mayAct (.event i) = true) : s.act (.event i) = s.eventAct i := by
  unfold State.act
  rw [h]
  rfl

/-- An event comes about, or waits for an eviction that its walk has met (R297). -/
theorem eventAct_next {s t : State} {i : Instr} (h1 : i.syl? = none) (h2 : wfEvent i = true) (h : exec i s = .next t) :
    s.eventAct i = .next (if s.walkedEvicted t then s else t) := by
  simp [State.eventAct, h1, h2, h]

/-- Settles O54, one kind of act after the other. -/
theorem stepRunsDecoded : Obligations.StepRunsDecoded := by
  unfold Obligations.StepRunsDecoded
  refine ⟨?_, ?_, ?_, ?_, ?_, ?_⟩
  · intro u k s s1 rest rs ha s0 hp hu h1 h2 h3 h4 h5 h6 hf
    have hstep := step_issues (step_issue_act ha hp hu) h1 h2 h3 h4 h5 h6
    refine ⟨fun t hd => ?_, fun ts hd hl => ?_, fun r e hd => ?_⟩
    · rw [hstep, issueBundle_ok hf hd]
      rfl
    · rw [hstep, issueBundle_ok hf hd, execBundle_several hl]
    · rw [hstep, issueBundle_illegal hf hd]
  · intro u k s s1 rest f ea ha s0 hp hu h1 h2 h3 h4 h5 h6
    have hstep := step_issues (step_issue_act ha hp hu) h1 h2 h3 h4 h5 h6
    refine ⟨fun hf => ?_, fun hf => ?_⟩
    · rw [hstep, issueBundle_fetchErr hf]
      rfl
    · rw [hstep, issueBundle_fetchErr hf]
      rfl
  · intro u k s rest ha s0 hp hu
    have hstep : step s = s0.issueAct u k := step_issue_act ha hp hu
    refine ⟨fun h1 => ?_, fun h1 h2 => ?_, fun h1 h2 h3 => ?_⟩
    · rw [hstep, issueAct_not h1]
    · rw [hstep, issueAct_missing h1 h2]
    · rw [hstep, issueAct_coming h1 h2 h3]
  · intro u e s rest ha s0 hp hu
    have hstep : step s = s0.engineAct u e := (step_of_agenda ha).trans (act_engine hp hu)
    refine ⟨fun hb => ?_, fun hb n x more i hn hx hd => ?_⟩
    · rw [hstep, engineAct_busy hb]
    · rw [hstep, engineAct_takes hb hn hx hd]
  · intro i s rest ha hs hw s0 hp t he
    have hmay : s0.mayAct (.event i) = true := by
      rcases hp with hp | ⟨b, rfl⟩
      · exact mayAct_of_power _ hp
      · exact mayAct_boot b
    rw [step_of_agenda ha, act_event hmay, eventAct_next hs hw he]
  · intro a s rest ha hp h1 h2
    exact (step_of_agenda ha).trans (act_of_not_mayAct (mayAct_without_power hp h1 h2))

end Sys2Proof.Machine
end

section
/-! PROOFS. What a commit moves and what it leaves (O58). -/

namespace Sys2Proof.Machine

/-! ### Setting the same place twice -/

theorem Table.erase_insert {α : Type} (k : Nat) (v : α) (t : Table α) : Table.erase k (Table.insert k v t) = Table.erase k t := by
  induction t with
  | nil => simp [Table.insert, Table.erase]
  | cons e t ih =>
    obtain ⟨i, x⟩ := e
    unfold Table.insert
    split
    · simp [Table.erase]
    · by_cases h : i = k <;> simp [Table.erase, h, ih]

theorem Table.erase_erase {α : Type} (k : Nat) (t : Table α) : Table.erase k (Table.erase k t) = Table.erase k t := by
  induction t with
  | nil => rfl
  | cons e t ih =>
    obtain ⟨i, x⟩ := e
    by_cases h : i = k <;> simp [Table.erase, h, ih]

/-- Of two values set at one key the later stands. -/
theorem Table.set_set {α : Type} (t : Table α) (k : Nat) (v x : α) : Table.set (Table.set t k v) k x = Table.set t k x := by
  unfold Table.set
  rw [Table.erase_insert, Table.erase_erase]

theorem State.setStrand_setStrand (s : State) (u : UnitNo) (k : StrandNo) (t x : Strand) :
    (s.setStrand u k t).setStrand u k x = s.setStrand u k x := by
  unfold State.setStrand
  simp only [Table.set_set]

/-- A core's cycle and a strand's change stand in different places. -/
theorem State.setStrand_tickCore (s : State) (u v : UnitNo) (n : Nat) (k : StrandNo) (t : Strand) :
    (s.tickCore u n).setStrand v k t = (s.setStrand v k t).tickCore u n := rfl

theorem State.setMe_setMe (s : State) (t x : Strand) : (s.setMe t).setMe x = s.setMe x :=
  State.setStrand_setStrand s s.curU s.curK t x

/-! ### What a commit moves of its strand -/

/-- What a commit may move of the acting strand beside what the results change (R28, R78, R79, R81). -/
structure Moved where
  pc : W64
  lcnt0 : W32
  lcnt1 : W32
  repn : BitVec 16
  repi : BitVec 16
  lat : Table Latch
  deferrals : BitVec 16
  lq : List LqItem
  sq : List SqItem

/-- The strand after a commit with those places moved: its held traps are fresh no longer, and its run is a bundle longer. -/
def Strand.moved (t : Strand) (m : Moved) : Strand :=
  { t.unfresh with pc := m.pc, lcnt0 := m.lcnt0, lcnt1 := m.lcnt1, repn := m.repn, repi := m.repi, lat := m.lat
                   deferrals := m.deferrals, lq := m.lq, sq := m.sq, runLen := t.runLen + 1 }

/-- Without an active level the next bundle follows (R78). -/
theorem loopBack_inactive {t : Strand} (next : W64) (h0 : t.lcnt0 = 0) (h1 : t.lcnt1 = 0) :
    t.loopBack next = { t with pc := next } := by
  simp [Strand.loopBack, h0, h1]

/-- The loop-back rule moves the pc and the two counts (R78). -/
theorem loopBack_moves (t : Strand) (next : W64) :
    ∃ pc c0 c1, t.loopBack next = { t with pc := pc, lcnt0 := c0, lcnt1 := c1 } := by
  unfold Strand.loopBack
  dsimp only
  repeat' split
  all_goals exact ⟨_, _, _, rfl⟩

/-- Outside a repetition and without an active level the bundle's target or the next bundle follows. -/
theorem advance_plain {t : Strand} (target : Option W64) (len : Nat) (h0 : t.lcnt0 = 0) (h1 : t.lcnt1 = 0) :
    t.advance 0 target len = { t with pc := target.getD (t.pc + BitVec.ofNat 64 len) } := by
  cases target with
  | none => simp [Strand.advance, loopBack_inactive _ h0 h1]
  | some a => simp [Strand.advance]

/-- Moving on moves the pc, the loop counts and the repetition's counts (R78, R79). -/
theorem advance_moves (t : Strand) (rep : BitVec 16) (target : Option W64) (len : Nat) :
    ∃ pc c0 c1 n i, t.advance rep target len = { t with pc := pc, lcnt0 := c0, lcnt1 := c1, repn := n, repi := i } := by
  have hrep : ∃ n i, (if rep = 0 || t.repn = 0 then t else { t with repn := t.repn - 1, repi := t.repi + 1 })
      = { t with repn := n, repi := i } := by
    split
    · exact ⟨_, _, rfl⟩
    · exact ⟨_, _, rfl⟩
  obtain ⟨n, i, hrep⟩ := hrep
  unfold Strand.advance
  rw [hrep]
  dsimp only
  split
  · exact ⟨_, _, _, _, _, rfl⟩
  · split
    · exact ⟨_, _, _, _, _, rfl⟩
    · obtain ⟨pc, c0, c1, hl⟩ := loopBack_moves { t with repn := n, repi := i } (t.pc + BitVec.ofNat 64 len)
      exact ⟨pc, c0, c1, n, i, hl⟩

/-- Passing markers drops entries from the heads of the two queues (R81.6). -/
theorem passMarkers_moves (far : Bool) (n : Nat) (t : Strand) :
    ∃ l q, Strand.passMarkers far n t = { t with lq := l, sq := q } ∧ l <:+ t.lq ∧ q <:+ t.sq := by
  induction n generalizing t with
  | zero => exact ⟨t.lq, t.sq, rfl, List.suffix_refl _, List.suffix_refl _⟩
  | succ n ih =>
    unfold Strand.passMarkers
    split
    next i pod l j pod' q hl hq =>
      split
      · obtain ⟨l', q', h, hl', hq'⟩ := ih { t with lq := l, sq := q }
        exact ⟨l', q', h, hl ▸ hl'.trans (List.suffix_cons _ _), hq ▸ hq'.trans (List.suffix_cons _ _)⟩
      · exact ⟨t.lq, t.sq, rfl, List.suffix_refl _, List.suffix_refl _⟩
    · exact ⟨t.lq, t.sq, rfl, List.suffix_refl _, List.suffix_refl _⟩

/-- Passing the acting strand's markers after a cycle (R81.6). -/
theorem settle_moves (s : State) (u : UnitNo) (k : StrandNo) (x : Strand) :
    ∃ l q, ((s.setStrand u k x).tickCore u 1).settle u k = (s.setStrand u k { x with lq := l, sq := q }).tickCore u 1
      ∧ l <:+ x.lq ∧ q <:+ x.sq := by
  have hx : ((s.setStrand u k x).tickCore u 1).strand u k = x := by simp
  unfold State.settle
  rw [hx]
  obtain ⟨l, q, hp, hl, hq⟩ := passMarkers_moves
    (((s.setStrand u k x).tickCore u 1).farOutstanding u.toNat k.toNat) x.lq.length x
  refine ⟨l, q, ?_, hl, hq⟩
  dsimp only
  rw [hp, State.setStrand_tickCore, State.setStrand_setStrand]

/-- Counting a deferral changes that count of the acting strand (sys.RUNSTAT). -/
theorem countDeferral_moves {s : State} {u : UnitNo} {k : StrandNo} (x : Strand) (hu : s.curU = u) (hk : s.curK = k) :
    ∃ n, ((s.setStrand u k x).tickCore u 1).countDeferral = (s.setStrand u k { x with deferrals := n }).tickCore u 1 := by
  subst hu hk
  have hx : ((s.setStrand s.curU s.curK x).tickCore s.curU 1).me = x := by simp [State.me]
  unfold State.countDeferral
  rw [hx]
  split
  · exact ⟨if x.deferrals.toNat = 65535 then x.deferrals else x.deferrals + 1,
      congrArg (·.tickCore s.curU 1) (State.setStrand_setStrand s s.curU s.curK x _)⟩
  · exact ⟨x.deferrals, rfl⟩

/-! ### A committed bundle -/

/-- The state that the changes of a bundle's slots leave, its counter values taken and its wait over (R20, R28). -/
def State.changed (s : State) (ds : List (Nat × Done)) : State :=
  applyAll ds (s.setMe { s.me with srctr := s.me.srctr + BitVec.ofNat 32 (ds.filter (fun d => d.2.ctr)).length, wait := .none })

/-- The control transfer of a bundle. -/
def targetOf (ds : List (Nat × Done)) : Option W64 := (ds.find? (fun d => d.2.target.isSome)).bind (fun d => d.2.target)

/-- No slot of the bundle ends the run or returns from a trap. -/
def RunsOn (ds : List (Nat × Done)) : Prop := ∀ d ∈ ds, d.2.ret = false ∧ d.2.endRun = .no

/-- The commit of such a bundle, in its steps. -/
theorem commit_of_runsOn {s : State} (len : Nat) {ds : List (Nat × Done)} (h : RunsOn ds) :
    s.commit len ds =
      let s3 := (s.changed ds).setMe { (s.changed ds).me.advance s.me.repn (targetOf ds) len with lat := latchesOf 0 ds }
      let s4 := (s3.setMe { s3.me.unfresh with runLen := s3.me.runLen + 1 }).tickCore s.curU 1
      (s4.settle s.curU s.curK).countDeferral := by
  have hret : ds.any (fun d => d.2.ret) = false := by
    simpa using fun c d hd => (h (c, d) hd).1
  have hyes : ds.any (fun d => d.2.endRun == .yes) = false := by
    rw [List.any_eq_false]
    exact fun d hd => by simp [(h d hd).2]
  have hunl : ds.any (fun d => d.2.endRun == .unlessLatch) = false := by
    rw [List.any_eq_false]
    exact fun d hd => by simp [(h d hd).2]
  unfold State.commit
  simp only [hret, hyes, hunl, Bool.false_eq_true, if_false, Bool.false_and]
  rfl

/-- What a commit leaves: beside what the results change, the acting strand has moved on and one core cycle has passed. -/
theorem commit_moves {s : State} (len : Nat) {ds : List (Nat × Done)} (h : RunsOn ds) (hu : (s.changed ds).curU = s.curU)
    (hk : (s.changed ds).curK = s.curK) :
    let a := s.changed ds
    ∃ m : Moved, s.commit len ds = (a.setStrand s.curU s.curK (a.me.moved m)).tickCore s.curU 1
      ∧ m.lat = latchesOf 0 ds ∧ m.lq <:+ a.me.lq ∧ m.sq <:+ a.me.sq
      ∧ (s.me.repn = 0 → a.me.lcnt0 = 0 → a.me.lcnt1 = 0 →
        m.pc = (targetOf ds).getD (a.me.pc + BitVec.ofNat 64 len) ∧ m.lcnt0 = 0 ∧ m.lcnt1 = 0 ∧ m.repn = a.me.repn) := by
  intro a
  have hset (x : Strand) : a.setMe x = a.setStrand s.curU s.curK x := by rw [State.setMe, hu, hk]
  obtain ⟨pc, c0, c1, n, i, hadv⟩ := advance_moves a.me s.me.repn (targetOf ds) len
  have hcommit := commit_of_runsOn (s := s) len h
  dsimp only at hcommit
  rw [State.me_setMe, State.setMe_setMe, hset, hadv] at hcommit
  obtain ⟨l, q, hset, hl, hq⟩ := settle_moves a s.curU s.curK
    { { { a.me with pc := pc, lcnt0 := c0, lcnt1 := c1, repn := n, repi := i } with lat := latchesOf 0 ds }.unfresh with
      runLen := a.me.runLen + 1 }
  rw [hset] at hcommit
  obtain ⟨d, hdef⟩ := countDeferral_moves _ hu hk
  rw [hdef] at hcommit
  refine ⟨⟨pc, c0, c1, n, i, latchesOf 0 ds, d, l, q⟩, hcommit, rfl, hl, hq, fun hrep h0 h1 => ?_⟩
  rw [hrep, advance_plain _ _ h0 h1] at hadv
  injection hadv with _ hpc
  simp_all

/-- What one result changes. -/
theorem changed_one (s : State) (c : Nat) (d : Done) :
    s.changed [(c, d)] = d.apply (s.setMe { s.me with srctr := s.me.srctr + BitVec.ofNat 32 (if d.ctr then 1 else 0), wait := .none }) := by
  cases h : d.ctr <;> simp [State.changed, applyAll, h]

theorem targetOf_one (c : Nat) (d : Done) : targetOf [(c, d)] = d.target := by
  cases h : d.target <;> simp [targetOf, h]

theorem runsOn_one {c : Nat} {d : Done} (hr : d.ret = false) (he : d.endRun = .no) : RunsOn [(c, d)] := by
  simp [RunsOn, hr, he]

/-- The acting strand after its move and a core cycle. -/
theorem me_moved {s a : State} (x : Strand) (hu : a.curU = s.curU) (hk : a.curK = s.curK) :
    ((a.setStrand s.curU s.curK x).tickCore s.curU 1).me = x := by
  simp [State.me, hu, hk]

/-- Settles O58: the commit is the result's change, the strand's move and a cycle, and those two are read off. -/
theorem commitChangesOnly : Obligations.CommitChangesOnly := by
  intro s len c d hret hend a t hu hk
  have ha : s.changed [(c, d)] = a := changed_one s c d
  obtain ⟨m, hc, -, hlq, hsq, hplain⟩ :=
    commit_moves len (runsOn_one (c := c) hret hend) (ha ▸ hu) (ha ▸ hk)
  rw [ha] at hc hlq hsq hplain
  rw [targetOf_one] at hplain
  have ht : t = (a.setStrand s.curU s.curK (a.me.moved m)).tickCore s.curU 1 := hc
  clear_value t
  have hme : t.me = a.me.moved m := by rw [ht, me_moved _ hu hk]
  have hcore (u : UnitNo) (h : u ≠ s.curU) : t.core u = a.core u := by
    rw [ht, State.core_tickCore, if_neg h.symm, State.core_setStrand]
  have hown : t.core s.curU = { a.core s.curU with cycle := (a.core s.curU).cycle + 1, tlOld := [], barOld := [], ivOld := [] } := by
    rw [ht, State.core_tickCore, if_pos rfl, State.core_setStrand]
    rfl
  have hstrand (u : UnitNo) (k : StrandNo) (h : strandKey u k ≠ strandKey s.curU s.curK) : t.strand u k = a.strand u k := by
    rw [ht, State.strand_tickCore, State.strand_setStrand, if_neg]
    rintro ⟨rfl, rfl⟩
    exact h rfl
  rw [hme]
  subst ht
  refine ⟨rfl, rfl, rfl, rfl, rfl, rfl, rfl, rfl, rfl, rfl, rfl, rfl, rfl, rfl, rfl, rfl, hcore, hown, hstrand, rfl, rfl, rfl,
    rfl, rfl, rfl, rfl, rfl, rfl, rfl, rfl, rfl, rfl, rfl, rfl, rfl, rfl, rfl, rfl, rfl, rfl, rfl, rfl, rfl, rfl, rfl, rfl, rfl,
    rfl, rfl, rfl, hlq, hsq, rfl, hplain⟩

end Sys2Proof.Machine
end

section
/-! PROOFS. NOP (O50). -/

namespace Sys2Proof

/-! ### The words of class A, MAJ 0x01 -/

/-- The row of NOP in the form table. -/
noncomputable def nopRow : FormSpec := { fs [0] true false false .none .none .none .none tyZero .nop with result := false }

theorem lookupForm_nop {form : Nat} {r : FormSpec} (h : lookupForm 1 form = some r) : form = 0 ∧ r = nopRow := by
  have hmem : r ∈ rows01 := List.mem_of_find?_eq_some h
  have hform : r.forms.contains form = true := by
    unfold lookupForm at h
    exact List.find?_some (p := fun r : FormSpec => r.forms.contains form) h
  have hr : r = nopRow := by
    rw [rows01, List.mem_singleton] at hmem
    exact hmem
  subst hr
  exact ⟨by simpa [nopRow, fs] using hform, rfl⟩

/-- A field of no operand is register 0. -/
theorem eq_of_srcOk_none {f : Src} (h : srcOk .none f = true) : f = .reg 0 := by
  cases f with
  | reg n => simpa [srcOk] using h
  | latch n => simp [srcOk] at h

/-- The syllable of NOP's two words. -/
def nopSyl : Syl := ⟨.s32, ⟨0, false⟩, false, 0, .reg 0, .reg 0, .reg 0, 0, 0, 0, 0, 0⟩

/-- NOP decodes with and without the stop bit (R51). -/
theorem decodeSyl_nop (stop : Bool) (w1 w2 : BitVec 32) :
    ∃ t, decodeSyl (if stop then 0x0000000C else 0x00000008) w1 w2 = .ok t := by
  have hwf : wfSyl (.nop nopSyl) 0x01 nopSyl = true := by decide +kernel
  obtain ⟨t, ht, -⟩ := decodeSyl_encodeSyl (w1 := w1) (w2 := w2) stop (i := .nop nopSyl) rfl hwf
    (fun h => absurd rfl h) (fun h => nomatch h)
  have hw : encWord0 0x01 stop nopSyl = if stop then 0x0000000C else 0x00000008 := by cases stop <;> decide
  exact ⟨t, hw ▸ ht⟩

/-- The fields of a syllable that passes NOP's checks: it is S32 and names no operand (R51). -/
theorem fields_of_checkSyl_nop {y : Syl} (h : checkSyl nopRow y = none) :
    y.len = .s32 ∧ y.d = 0 ∧ y.s1 = .reg 0 ∧ y.s2 = .reg 0 := by
  simp only [checkSyl, ite_some_eq_none] at h
  obtain ⟨hlen, -, -, hd, hs, hs2, -⟩ := h
  have hl : y.len = .s32 := by
    cases hy : y.len with
    | s32 => rfl
    | l64 => simp [hy, lenOk, nopRow, fs] at hlen
    | x96 => simp [hy, lenOk, nopRow, fs] at hlen
  have hd : y.d = 0 := by simpa [dstOk, nopRow, fs] using hd
  simp only [nopRow, fs, Bool.or_eq_true, Bool.not_eq_true', not_or, Bool.not_eq_false] at hs
  have h2 : srcOk .none y.s2 = true := by simpa [isX, hl, nopRow, fs] using hs2
  exact ⟨hl, hd, eq_of_srcOk_none hs.1, eq_of_srcOk_none h2⟩

/-- What decodes there is NOP, in one of its two words. -/
theorem nop_of_decoded {w0 w1 w2 : BitVec 32} {t : Slot} (hm : field w0 9 3 = 1) (h : decodeSyl w0 w1 w2 = .ok t) :
    t.instr = .nop t.syl ∧ t.syl.len = .s32 ∧ w0 = if t.stop then 0x0000000C else 0x00000008 := by
  obtain ⟨hmaj, hlook, hc, hi⟩ := spec_of_decoded h
  rw [hmaj, hm] at hlook
  obtain ⟨hform, hspec⟩ := lookupForm_nop hlook
  rw [hspec] at hc hi
  obtain ⟨hl, hd, h1, h2⟩ := fields_of_checkSyl_nop hc
  refine ⟨hi, hl, ?_⟩
  rw [← encWord0_of_decoded h, hmaj, hm, encWord0, hl, hd, h1, h2, hform]
  cases t.stop <;> decide

end Sys2Proof

namespace Sys2Proof.Machine

/-- A lone syllable that does not decode is recorded (R53). -/
theorem decodeBundle_one_error {r : RawSyl} {e : DecodeErr} (h : decodeSyl r.w0 r.w1 r.w2 = .error e) :
    decodeBundle [r] = .error (r, e) := by
  simp [decodeBundle, decodeSlots, h, rawIndex]

/-- NOP's commit: the strand moves on with no latch valid, and a cycle passes. -/
theorem nop_commits {y : Syl} {s : State} (h : Issues (.nop y) s) :
    ∃ m : Moved, exec (.nop y) s = .next
        ((s.setStrand s.curU s.curK (Strand.moved { s.me with wait := .none } m)).tickCore s.curU 1) ∧ m.lat = [] := by
  have hc : Completes (.nop y) s (Done.plain id) := completes_of rfl (exec_slot (.nop y) s _ y rfl) h rfl
  have ha : s.changed [(0, Done.plain id)] = s.setMe { s.me with wait := .none } := by
    rw [changed_one]
    simp [Done.plain]
  obtain ⟨m, hm, hlat, -⟩ := commit_moves (s := s) y.len.bytes (runsOn_one (c := 0) (d := Done.plain id) rfl rfl)
    (by rw [ha]; rfl) (by rw [ha]; rfl)
  rw [ha, State.me_setMe] at hm
  refine ⟨m, (show exec (.nop y) s = _ from hc).trans (congrArg _ (hm.trans ?_)), hlat⟩
  exact congrArg (·.tickCore s.curU 1) (State.setStrand_setStrand s s.curU s.curK _ _)

/-- Settles O50: NOP's commit read off, and the decoder's row of MAJ 0x01. -/
theorem nopHasNoEffect : Obligations.NopHasNoEffect := by
  refine ⟨fun y s hi => ?_, fun w0 w1 w2 hm => ⟨⟨fun ⟨t, ht⟩ => ?_, fun hw => ?_⟩, fun t ht => ?_⟩,
    fun s s1 u k r hf hm h8 hC => ?_⟩
  · obtain ⟨m, hx, hlat⟩ := nop_commits hi
    refine ⟨_, hx, rfl, rfl, rfl, rfl, rfl, rfl, rfl, ?_⟩
    rw [State.strand_tickCore, State.strand_setStrand_self]
    refine ⟨?_, rfl, rfl, rfl, rfl, rfl, rfl, rfl, rfl, rfl⟩
    simp [Strand.latch, Strand.moved, hlat, Table.get]
  · obtain ⟨-, -, hw⟩ := nop_of_decoded hm ht
    cases hs : t.stop
    · exact .inl (by simpa [hs] using hw)
    · exact .inr (by simpa [hs] using hw)
  · rcases hw with rfl | rfl
    · exact decodeSyl_nop false w1 w2
    · exact decodeSyl_nop true w1 w2
  · obtain ⟨hi, hl, hw⟩ := nop_of_decoded hm ht
    refine ⟨hi, hl, ?_⟩
    rw [hw]
    cases t.stop <;> decide
  · have hd : ∃ e, decodeSyl r.w0 r.w1 r.w2 = .error e := by
      cases hd : decodeSyl r.w0 r.w1 r.w2 with
      | error e => exact ⟨e, rfl⟩
      | ok t =>
        obtain ⟨-, -, hw⟩ := nop_of_decoded hm hd
        cases hs : t.stop <;> simp_all
    obtain ⟨e, hd⟩ := hd
    have hcls : field r.w0 9 8 = 0 := by
      unfold field at hm ⊢
      omega
    rw [issueBundle_illegal hf (decodeBundle_one_error hd), hcls]

end Sys2Proof.Machine
end

section
/-! PROOFS. What the slots of classes A and B leave as it is (O59). -/

namespace Sys2Proof.Machine

/-! ### States alike but for strands and cores -/

/-- Everything that a scalar bundle leaves as it is, and whose turn it is. -/
structure KeepsMemory (t s : State) : Prop where
  mem : t.mem = s.mem
  poison : t.poison = s.poison
  clusters : t.clusters = s.clusters
  homes : t.homes = s.homes
  parts : t.parts = s.parts
  fabric : t.fabric = s.fabric
  service : t.service = s.service
  curU : t.curU = s.curU
  curK : t.curK = s.curK

namespace KeepsMemory

theorem refl (s : State) : KeepsMemory s s := ⟨rfl, rfl, rfl, rfl, rfl, rfl, rfl, rfl, rfl⟩

theorem trans {r s t : State} (h : KeepsMemory t s) (g : KeepsMemory s r) : KeepsMemory t r :=
  ⟨h.mem.trans g.mem, h.poison.trans g.poison, h.clusters.trans g.clusters, h.homes.trans g.homes, h.parts.trans g.parts,
    h.fabric.trans g.fabric, h.service.trans g.service, h.curU.trans g.curU, h.curK.trans g.curK⟩

theorem setStrand (s : State) (u : UnitNo) (k : StrandNo) (x : Strand) : KeepsMemory (s.setStrand u k x) s :=
  ⟨rfl, rfl, rfl, rfl, rfl, rfl, rfl, rfl, rfl⟩

theorem setMe (s : State) (x : Strand) : KeepsMemory (s.setMe x) s := setStrand s s.curU s.curK x

theorem tickCore (s : State) (u : UnitNo) (n : Nat) : KeepsMemory (s.tickCore u n) s :=
  ⟨rfl, rfl, rfl, rfl, rfl, rfl, rfl, rfl, rfl⟩

end KeepsMemory

/-! ### Trap entry -/

@[simp] theorem State.writeCells_strands (s : State) (cells : List (Nat × Byte)) : (s.writeCells cells).strands = s.strands := by
  induction cells generalizing s with
  | nil => rfl
  | cons c cells ih => exact ih _

@[simp] theorem State.writeCells_curU (s : State) (cells : List (Nat × Byte)) : (s.writeCells cells).curU = s.curU := by
  induction cells generalizing s with
  | nil => rfl
  | cons c cells ih => exact ih _

@[simp] theorem State.writeCells_curK (s : State) (cells : List (Nat × Byte)) : (s.writeCells cells).curK = s.curK := by
  induction cells generalizing s with
  | nil => rfl
  | cons c cells ih => exact ih _

@[simp] theorem State.groupHold_strand (s : State) (u v : UnitNo) (k : StrandNo) : (s.groupHold u).strand v k = s.strand v k := by
  unfold State.groupHold
  dsimp only
  split <;> rfl

@[simp] theorem State.groupHold_curU (s : State) (u : UnitNo) : (s.groupHold u).curU = s.curU := by
  unfold State.groupHold
  dsimp only
  split <;> rfl

@[simp] theorem State.groupHold_curK (s : State) (u : UnitNo) : (s.groupHold u).curK = s.curK := by
  unfold State.groupHold
  dsimp only
  split <;> rfl

theorem State.endRun_strand (s : State) (u : UnitNo) (k : StrandNo) (r : RunState) :
    (s.endRun u k r).strand u k = { (s.strand u k).unfresh with run := r, runLen := 0 } := by
  unfold State.endRun
  dsimp only
  split <;> simp

@[simp] theorem State.endRun_curU (s : State) (u : UnitNo) (k : StrandNo) (r : RunState) : (s.endRun u k r).curU = s.curU := by
  unfold State.endRun
  dsimp only
  split <;> rfl

@[simp] theorem State.endRun_curK (s : State) (u : UnitNo) (k : StrandNo) (r : RunState) : (s.endRun u k r).curK = s.curK := by
  unfold State.endRun
  dsimp only
  split <;> rfl

@[simp] theorem State.makeReady_curU (s : State) (u : UnitNo) (k : StrandNo) : (s.makeReady u k).curU = s.curU := rfl
@[simp] theorem State.makeReady_curK (s : State) (u : UnitNo) (k : StrandNo) : (s.makeReady u k).curK = s.curK := rfl

/-- The acting strand that enters a trap runs its handler with TD set (R83). -/
theorem enterTrap_td {s : State} (i : TrapInfo) (h : s.me.td = false) : (s.enterTrap s.curU s.curK i).me.td = true := by
  have htd : (s.strand s.curU s.curK).td = false := h
  unfold State.enterTrap
  dsimp only
  rw [htd, if_neg (by decide)]
  generalize (if (s.strand s.curU s.curK).repSkip = true then some i.tpc else none) = skip
  split
  · simp [State.me, Strand.unfresh]
  · split
    · simp [State.me, State.endRun_strand, Strand.unfresh]
    · simp [State.me, Strand.unfresh]

/-- Before its trap entry a strand's marks and held traps are put in order, and TD stays (R82, R121). -/
theorem enterNow_eq (s : State) (u : UnitNo) (k : StrandNo) (i : TrapInfo) (own : Option BadDest) :
    ∃ x : Strand, x.td = (s.strand u k).td ∧ s.enterNow u k i own = (s.setStrand u k x).enterTrap u k i := by
  refine ⟨_, ?_, rfl⟩
  cases own <;> by_cases ha : i.async = true <;> simp [ha, Strand.takeBad]

theorem enterNow_td {s : State} (i : TrapInfo) (own : Option BadDest) (h : s.me.td = false) :
    (s.enterNow s.curU s.curK i own).me.td = true := by
  obtain ⟨x, hx, he⟩ := enterNow_eq s s.curU s.curK i own
  rw [he]
  exact enterTrap_td (s := s.setMe x) i (by rw [State.me_setMe, hx]; exact h)

/-- A trap that the acting strand takes with TD clear sets TD, or waits for earlier loads and touches no memory (R82, R122). -/
theorem takeTrap_keeps {s : State} (i : TrapInfo) (own : Option BadDest) (h : s.me.td = false)
    (ht : (s.takeTrap s.curU s.curK i own).me.td = false) : KeepsMemory (s.takeTrap s.curU s.curK i own) s := by
  have htd : (s.strand s.curU s.curK).td = false := h
  have heq : s.takeTrap s.curU s.curK i own = if s.me.entryWaits then
      s.setMe { s.me with entering := some ⟨i, (s.me.bad.filter (fun b => !b.taken)).map (·.seq), own⟩ }
      else s.enterNow s.curU s.curK i own := by
    unfold State.takeTrap
    exact if_neg (by rw [htd]; decide)
  rw [heq] at ht ⊢
  split
  · exact .setMe _ _
  next hw =>
    rw [if_neg hw, enterNow_td i own h] at ht
    cases ht

theorem trapHere_keeps {s : State} {c : BitVec 8} {a n : W64} {slot off : Nat} (h : s.me.td = false)
    (ht : (s.trapHere c a n slot off).me.td = false) : KeepsMemory (s.trapHere c a n slot off) s :=
  takeTrap_keeps _ _ h ht

theorem trapBad_keeps {s : State} {b : BadDest} {slot off : Nat} (h : s.me.td = false)
    (ht : (s.trapBad b slot off).me.td = false) : KeepsMemory (s.trapBad b slot off) s :=
  takeTrap_keeps _ _ h ht

/-! ### What a scalar slot answers -/

/-- An answer that touches memory neither by a wait nor by a fill: a trap, the trap of a failed load, or a stall. -/
def Stop.plain : Stop → Prop
  | .block _ | .fill _ _ => False
  | _ => True

/-- The answer is a value of which P holds, or a plain stop. -/
def Answers {α : Type} (P : α → Prop) : Rd α → Prop
  | .ok a => P a
  | .error e => e.plain

/-- A read of any value. -/
def Reads {α : Type} (m : Rd α) : Prop := Answers (fun _ => True) m

theorem Answers.bind {α β : Type} {P : α → Prop} {Q : β → Prop} {m : Rd α} {f : α → Rd β} (hm : Answers P m)
    (hf : ∀ a, P a → Answers Q (f a)) : Answers Q (m >>= f) := by
  cases m with
  | ok a => exact hf a hm
  | error e => exact hm

theorem Reads.bind {α β : Type} {Q : β → Prop} {m : Rd α} {f : α → Rd β} (hm : Reads m) (hf : ∀ a, Answers Q (f a)) :
    Answers Q (m >>= f) :=
  Answers.bind hm fun a _ => hf a

/-- A result that runs on and changes no more than strands. -/
structure Done.Scalar (d : Done) : Prop where
  ret : d.ret = false
  endRun : d.endRun = .no
  keeps : ∀ t, KeepsMemory (d.apply t) t

theorem Done.scalar_plain {f : State → State} (h : ∀ t, KeepsMemory (f t) t) : (Done.plain f).Scalar := ⟨rfl, rfl, h⟩

theorem Done.Scalar.withLatch {d : Done} (h : d.Scalar) (l : Latch) : Done.Scalar { d with latch := l } := ⟨h.ret, h.endRun, h.keeps⟩

theorem Done.Scalar.withTarget {d : Done} (h : d.Scalar) (a : Option W64) : Done.Scalar { d with target := a } :=
  ⟨h.ret, h.endRun, h.keeps⟩

theorem Done.Scalar.counted {d : Done} (h : d.Scalar) (m : BitVec 3) : (d.counted m).Scalar := ⟨h.ret, h.endRun, h.keeps⟩

/-- A slot whose result is scalar. -/
def ScalarSlot (m : Rd Done) : Prop := Answers Done.Scalar m

/-! ### Reads -/

theorem reads_ok {α : Type} (a : α) : Reads (.ok a : Rd α) := trivial

theorem reads_readable (s : State) (d : Dest) : Reads (s.readable d) := by
  unfold State.readable
  split
  · trivial
  · split <;> trivial

theorem reads_writable (s : State) (d : Dest) : Reads (s.writable d) := by
  unfold State.writable
  split
  · trivial
  · split <;> trivial

theorem reads_latchWord (s : State) (n : BitVec 2) : Reads (latchWord s n) := by
  unfold latchWord
  split
  · trivial
  · split <;> trivial
  · trivial

theorem reads_readW (s : State) (f : Src) : Reads (readW s f) := by
  cases f with
  | reg n => exact (reads_readable s _).bind fun _ => reads_ok _
  | latch n => exact (reads_latchWord s n).bind fun _ => reads_ok _

theorem reads_readA (s : State) (f : Src) : Reads (readA s f) := by
  cases f with
  | reg n => exact (reads_readable s _).bind fun _ => reads_ok _
  | latch n => exact reads_latchWord s n

theorem reads_readP (s : State) (f : Src) : Reads (readP s f) := by
  cases f with
  | reg n => exact reads_ok _
  | latch n => exact (reads_latchWord s n).bind fun _ => reads_ok _

theorem reads_src2W (s : State) (y : Syl) : Reads (src2W s y) := by
  unfold src2W
  split
  · exact reads_ok _
  · exact (reads_readW s _).bind fun _ => reads_ok _

theorem reads_src2A (s : State) (y : Syl) : Reads (src2A s y) := by
  unfold src2A
  split
  · exact reads_ok _
  · exact reads_readA s _

theorem reads_needOp (c : Bool) : Reads (needOp c) := by
  cases c <;> trivial

/-! ### Results -/

theorem scalar_putW (s : State) (y : Syl) (v : W32) : ScalarSlot (putW s y v) := by
  unfold putW
  split
  · exact (Done.scalar_plain KeepsMemory.refl).withLatch _
  · exact (reads_writable s _).bind fun _ => (Done.scalar_plain fun t => .setMe t _).withLatch _

theorem scalar_putA (s : State) (y : Syl) (v : W64) : ScalarSlot (putA s y v) := by
  unfold putA
  split
  · exact (Done.scalar_plain KeepsMemory.refl).withLatch _
  · exact (reads_writable s _).bind fun _ => (Done.scalar_plain fun t => .setMe t _).withLatch _

theorem scalar_putP (y : Syl) (v : Bool) : ScalarSlot (putP y v) := by
  unfold putP
  dsimp only
  split
  · exact (Done.scalar_plain KeepsMemory.refl).withLatch _
  · exact (Done.scalar_plain fun t => .setMe t _).withLatch _

theorem scalar_transfer {d : Done} (h : d.Scalar) (t : W64) : ScalarSlot (transfer d t) := by
  unfold transfer
  split
  · exact h.withTarget _
  · trivial

/-! ### The shared forms of classes A and B -/

section Forms

variable (y : Syl) (s : State)

theorem scalar_intForm2 (op : Int → Int → Int) : ScalarSlot (intForm2 op y s) :=
  (reads_readW s _).bind fun _ => (reads_src2W s y).bind fun _ => scalar_putW s y _

theorem scalar_bitForm2 (op : ITy → Nat → Nat → Nat) : ScalarSlot (bitForm2 op y s) :=
  (reads_readW s _).bind fun _ => (reads_src2W s y).bind fun _ => scalar_putW s y _

theorem scalar_bitForm1 (op : ITy → Nat → Nat) : ScalarSlot (bitForm1 op y s) :=
  (reads_readW s _).bind fun _ => scalar_putW s y _

theorem scalar_madForm : ScalarSlot (madForm y s) :=
  (reads_readW s _).bind fun _ => (reads_src2W s y).bind fun _ => (reads_readW s _).bind fun _ => scalar_putW s y _

theorem scalar_logicForm (op : W32 → W32 → W32) : ScalarSlot (logicForm op y s) :=
  (reads_readW s _).bind fun _ => (reads_src2W s y).bind fun _ => scalar_putW s y _

theorem scalar_notForm : ScalarSlot (notForm y s) := (reads_readW s _).bind fun _ => scalar_putW s y _

theorem scalar_shiftForm (op : ITy → Nat → Nat → Nat) : ScalarSlot (shiftForm op y s) :=
  (reads_readW s _).bind fun _ => (reads_src2W s y).bind fun _ => scalar_putW s y _

theorem scalar_cmpForm (cond : ITy → W32 → W32 → Bool) : ScalarSlot (cmpForm cond y s) :=
  (reads_readW s _).bind fun _ => (reads_src2W s y).bind fun _ => (reads_readP s _).bind fun _ => scalar_putP y _

theorem scalar_moveW : ScalarSlot (moveW y s) := (reads_src2W s y).bind fun _ => scalar_putW s y _

theorem scalar_predForm (op : Bool → Bool → Bool) : ScalarSlot (predForm op y s) :=
  (reads_readP s _).bind fun _ => (reads_readP s _).bind fun _ => scalar_putP y _

theorem scalar_addrForm (op : W64 → W64 → W64) : ScalarSlot (addrForm op y s) :=
  (reads_readA s _).bind fun _ => (reads_src2A s y).bind fun _ => scalar_putA s y _

theorem scalar_addrCmp (cond : W64 → W64 → Bool) : ScalarSlot (addrCmp cond y s) :=
  (reads_readA s _).bind fun _ => (reads_src2A s y).bind fun _ => (reads_readP s _).bind fun _ => scalar_putP y _

/-- A result that is put and then takes a counter value. -/
theorem scalar_counted {m : Rd Done} (h : ScalarSlot m) (mode : BitVec 3) : ScalarSlot (m >>= fun d => .ok (d.counted mode)) :=
  Answers.bind h fun _ hd => hd.counted mode

theorem scalar_fltForm2 (op : FFmt → Mode → Bool → Nat → Nat → Nat) (c : Ctx) : ScalarSlot (fltForm2 op y s c) :=
  (reads_readW s _).bind fun _ => (reads_src2W s y).bind fun _ => scalar_counted (scalar_putW s y _) _

theorem scalar_fltForm3 (negP negC : Bool) (c : Ctx) : ScalarSlot (fltForm3 negP negC y s c) :=
  (reads_readW s _).bind fun _ => (reads_src2W s y).bind fun _ => (reads_readW s _).bind fun _ =>
    scalar_counted (scalar_putW s y _) _

theorem scalar_fltForm1 (op : FFmt → Bool → Nat → Nat) : ScalarSlot (fltForm1 op y s) :=
  (reads_readW s _).bind fun _ => scalar_putW s y _

theorem scalar_fltCmp (cond : Cond) : ScalarSlot (fltCmp cond y s) :=
  (reads_readW s _).bind fun _ => (reads_src2W s y).bind fun _ => (reads_readP s _).bind fun _ => scalar_putP y _

theorem scalar_fltSelect (takeMax : Bool) : ScalarSlot (fltSelect takeMax y s) :=
  (reads_readW s _).bind fun _ => (reads_src2W s y).bind fun _ => scalar_putW s y _

/-! ### The forms with a meaning of their own -/

theorem scalar_nop : ScalarSlot (slotNop y s) := Done.scalar_plain KeepsMemory.refl

theorem scalar_sel : ScalarSlot (slotSel y s) :=
  (reads_readP s _).bind fun _ => (reads_src2W s y).bind fun _ => (reads_readW s _).bind fun _ => scalar_putW s y _

theorem scalar_mova : ScalarSlot (slotMova y s) := (reads_src2A s y).bind fun _ => scalar_putA s y _
theorem scalar_movha : ScalarSlot (slotMovha y s) := (reads_readable s _).bind fun _ => scalar_putA s y _
theorem scalar_sxw : ScalarSlot (slotSxw y s) := (reads_src2W s y).bind fun _ => scalar_putA s y _
theorem scalar_zxw : ScalarSlot (slotZxw y s) := (reads_src2W s y).bind fun _ => scalar_putA s y _
theorem scalar_movaw : ScalarSlot (slotMovaw y s) := (reads_src2A s y).bind fun _ => scalar_putW s y _
theorem scalar_movawh : ScalarSlot (slotMovawh y s) := (reads_src2A s y).bind fun _ => scalar_putW s y _
theorem scalar_movpw : ScalarSlot (slotMovpw y s) := (reads_readP s _).bind fun _ => scalar_putW s y _
theorem scalar_movwp : ScalarSlot (slotMovwp y s) := (reads_src2W s y).bind fun _ => scalar_putP y _
theorem scalar_rdp : ScalarSlot (slotRdp y s) := scalar_putW s y _

theorem scalar_wrp : ScalarSlot (slotWrp y s) :=
  (reads_src2W s y).bind fun _ => Done.scalar_plain fun t => .setMe t _

theorem scalar_movrep : ScalarSlot (slotMovrep y s) := scalar_putW s y _
theorem scalar_lea : ScalarSlot (slotLea y s) := scalar_putA s y _

theorem scalar_ext : ScalarSlot (slotExt y s) :=
  (reads_readW s _).bind fun _ => (reads_src2W s y).bind fun _ => scalar_putW s y _

theorem scalar_ins : ScalarSlot (slotIns y s) :=
  (reads_readable s _).bind fun _ => (reads_readW s _).bind fun _ => (reads_src2W s y).bind fun _ => scalar_putW s y _

theorem scalar_pnot : ScalarSlot (slotPnot y s) := (reads_readP s _).bind fun _ => scalar_putP y _

theorem scalar_aidx : ScalarSlot (slotAidx y s) :=
  (reads_readA s _).bind fun _ => (reads_src2W s y).bind fun _ => scalar_putA s y _

theorem scalar_br : ScalarSlot (slotBr y s) := scalar_transfer (Done.scalar_plain KeepsMemory.refl) _

theorem scalar_call (c : Ctx) : ScalarSlot (slotCall y s c) :=
  Answers.bind (scalar_putA s y _) fun _ hd => scalar_transfer hd _

theorem scalar_callr (c : Ctx) : ScalarSlot (slotCallr y s c) :=
  (reads_readA s _).bind fun _ => Answers.bind (scalar_putA s y _) fun _ hd => scalar_transfer hd _

theorem scalar_jr : ScalarSlot (slotJr y s) :=
  (reads_readA s _).bind fun _ => scalar_transfer (Done.scalar_plain KeepsMemory.refl) _

theorem scalar_loop (c : Ctx) : ScalarSlot (slotLoop y s c) := by
  refine (reads_readW s _).bind fun n => ?_
  dsimp only
  split
  · trivial
  · split
    · trivial
    · split
      · trivial
      · exact Done.scalar_plain fun t => .setMe t _

theorem scalar_rep : ScalarSlot (slotRep y s) := by
  have hrest (n : W32) : ScalarSlot (do
      needOp (n.toNat ≤ 65535 && !s.me.atLoopEnd)
      .ok (Done.plain (fun t => t.setMe { t.me with repn := n.setWidth 16, repi := 0, repSkip := n == 0 }))) :=
    (reads_needOp _).bind fun _ => Done.scalar_plain fun t => .setMe t _
  unfold slotRep
  dsimp only
  split
  · exact hrest y.lit
  · exact (reads_readW s _).bind hrest

theorem scalar_cvt (c : Ctx) : ScalarSlot (slotCvt y s c) :=
  (reads_readW s _).bind fun _ => scalar_counted (scalar_putW s y _) _

theorem scalar_frcp : ScalarSlot (slotFrcp y s) := (reads_readW s _).bind fun _ => scalar_putW s y _
theorem scalar_frsq : ScalarSlot (slotFrsq y s) := (reads_readW s _).bind fun _ => scalar_putW s y _

end Forms

/-- Every instruction of classes A and B but for those of MAJ 0x0F is scalar, by its form. -/
theorem scalar_slotRun {i : Instr} {maj : Nat} {y : Syl} (h : i.syl? = some (maj, y)) (hm : maj < 0x40) (hc : maj ≠ 0x0F)
    (s : State) (c : Ctx) : ScalarSlot (slotRun i s c) := by
  cases i <;> dsimp only [slotRun]
  case nop y => exact scalar_nop y s
  case mov | movB => exact scalar_moveW _ s
  case sel => exact scalar_sel _ s
  case mova => exact scalar_mova _ s
  case movha => exact scalar_movha _ s
  case sxw => exact scalar_sxw _ s
  case zxw => exact scalar_zxw _ s
  case movaw => exact scalar_movaw _ s
  case movawh => exact scalar_movawh _ s
  case movpw => exact scalar_movpw _ s
  case movwp => exact scalar_movwp _ s
  case rdp => exact scalar_rdp _ s
  case wrp => exact scalar_wrp _ s
  case movrep => exact scalar_movrep _ s
  case lea => exact scalar_lea _ s
  case add | sub | min | max | mul | mulh | addB | subB | minB | maxB | mulB | mulhB => exact scalar_intForm2 _ s _
  case absd | absdB => exact scalar_bitForm2 _ s _
  case abs | absB | clz | ctz | popc | brev => exact scalar_bitForm1 _ s _
  case mad | madB => exact scalar_madForm _ s
  case and | or | xor | andn | andB | orB | xorB | andnB => exact scalar_logicForm _ s _
  case not | notB => exact scalar_notForm _ s
  case shl | shr | rol | ror | shlB | shrB | rolB | rorB => exact scalar_shiftForm _ s _
  case ext => exact scalar_ext _ s
  case ins => exact scalar_ins _ s
  case cmpeq | cmpne | cmplt | cmple | cmpgt | cmpge | test | cmpeqB | cmpneB | cmpltB | cmpleB | cmpgtB | cmpgeB | testB =>
    exact scalar_cmpForm _ s _
  case pand | por | pxor | pandn => exact scalar_predForm _ s _
  case pnot => exact scalar_pnot _ s
  case aadd | asub | aand => exact scalar_addrForm _ s _
  case aidx => exact scalar_aidx _ s
  case acmpeq | acmpne | acmplt | acmpge => exact scalar_addrCmp _ s _
  case br => exact scalar_br _ s
  case call => exact scalar_call _ s c
  case callr => exact scalar_callr _ s c
  case jr => exact scalar_jr _ s
  case loop => exact scalar_loop _ s c
  case rep => exact scalar_rep _ s
  case fadd | fsub | fmul => exact scalar_fltForm2 _ s _ c
  case fabs | fneg => exact scalar_fltForm1 _ s _
  case fma | fms | fnma | fnms => exact scalar_fltForm3 _ s _ _ c
  case fcmpeq | fcmpne | fcmplt | fcmple | fcmpgt | fcmpge => exact scalar_fltCmp _ s _
  case fmin | fmax => exact scalar_fltSelect _ s _
  case cvt => exact scalar_cvt _ s c
  case frcp => exact scalar_frcp _ s
  case frsq => exact scalar_frsq _ s
  -- the others stand in slots M and V, in MAJ 0x0F, or in no slot
  all_goals
    cases h <;> omega

/-! ### A lone scalar bundle -/

theorem applyAll_keeps {ds : List (Nat × Done)} (h : ∀ d ∈ ds, d.2.Scalar) (t : State) : KeepsMemory (applyAll ds t) t := by
  induction ds generalizing t with
  | nil => exact .refl t
  | cons d ds ih =>
    obtain ⟨c, d⟩ := d
    have hd : d.Scalar := h (c, d) (by simp)
    exact (ih (fun d hd => h d (by simp [hd])) (d.apply t)).trans (hd.keeps t)

/-- A commit of scalar results touches no memory. -/
theorem commit_keeps (s : State) (len : Nat) {ds : List (Nat × Done)} (h : ∀ d ∈ ds, d.2.Scalar) :
    KeepsMemory (s.commit len ds) s := by
  have ha : KeepsMemory (s.changed ds) s := (applyAll_keeps h _).trans (.setMe s _)
  obtain ⟨m, hc, -⟩ := commit_moves len (fun d hd => ⟨(h d hd).ret, (h d hd).endRun⟩) ha.curU ha.curK
  rw [hc]
  exact ((KeepsMemory.tickCore _ _ _).trans (.setStrand _ _ _ _)).trans ha

/-- A scalar slot's bundle touches no memory but by the frame of a trap. -/
theorem settleBundle_keeps {s : State} {len : Nat} {x : SlotRun} {r : Rd Done} (hr : ScalarSlot r) (hx : x.cls ≠ 2)
    (h : s.me.td = false) (ht : (s.settleBundle len [(x, r)]).me.td = false) : KeepsMemory (s.settleBundle len [(x, r)]) s := by
  cases r with
  | ok d =>
    rw [settleBundle_ok]
    exact commit_keeps s len fun e he => by
      rw [List.mem_singleton.1 he]
      exact hr
  | error e =>
    cases e with
    | trap c a n =>
      rw [settleBundle_trap, noteWalk_slot hx] at ht ⊢
      exact trapHere_keeps h ht
    | badLoad b =>
      rw [settleBundle_bad] at ht ⊢
      exact trapBad_keeps h ht
    | stall =>
      rw [settleBundle_stall]
      exact .tickCore s _ _
    | fill fs va => exact hr.elim
    | block w => exact hr.elim

/-- The same of the lone bundle whatever its guard, the repetition it stands in and the failed loads it meets. -/
theorem runOne_keeps {s : State} {maj : Nat} {y : Syl} {f : Ctx → Rd Done} (hf : ScalarSlot (f ⟨0, y.len.bytes⟩))
    (hm : maj < 0x40) (h : s.me.td = false) (ht : (s.runOne maj y f).me.td = false) : KeepsMemory (s.runOne maj y f) s := by
  by_cases h0 : s.me.repSkip = true
  · unfold State.runOne State.runBundle
    rw [if_pos h0]
    exact (KeepsMemory.tickCore _ _ _).trans (.setMe s _)
  have h0 : s.me.repSkip = false := by simpa using h0
  by_cases hr : s.me.repn = 0 ∨ maj < 0x0B ∨ 0x0F < maj
  · have hu : maj = 0x6E → unitClass s.curU = 0 := fun e => by omega
    by_cases hbad : marksBad maj y.form.toNat = true → s.me.untaken = none
    · cases hg : guardOn s.me y.guard with
      | false =>
        rw [runOne_guard_off f h0 hr hu hbad hg]
        exact commit_keeps s _ (by simp)
      | true =>
        rw [runOne_eq f ⟨h0, hr, hu, hbad, hg⟩] at ht ⊢
        exact settleBundle_keeps hf (show maj / 32 ≠ 2 by omega) h ht
    · obtain ⟨hmk, hne⟩ := Classical.not_imp.1 hbad
      obtain ⟨b, hb⟩ := Option.ne_none_iff_exists'.1 hne
      rw [runOne_bad f h0 hr hu hmk hb] at ht ⊢
      exact trapBad_keeps h ht
  · obtain ⟨hrn, hlo, hhi⟩ : s.me.repn ≠ 0 ∧ 0x0B ≤ maj ∧ maj ≤ 0x0F := by
      simp only [not_or, Nat.not_lt] at hr
      exact hr
    rw [runOne_transfer_in_rep f h0 hrn hlo hhi] at ht ⊢
    exact trapHere_keeps h ht

/-- Settles O59: a lone scalar bundle, by the answer of its slot. -/
theorem scalarSlotsLeaveMemory : Obligations.ScalarSlotsLeaveMemory := by
  intro i maj y s t hi hm hc h he ht
  rw [exec_slot i s maj y hi] at he
  injection he with he
  subst he
  have k := runOne_keeps (scalar_slotRun hi hm hc s _) hm h ht
  exact ⟨k.mem, k.poison, k.clusters, k.homes, k.parts, k.fabric, k.service⟩

end Sys2Proof.Machine
end

section
/-! PROOFS. What a change of a core's queues, timelines, barriers and tile status leaves to read. -/

namespace Sys2Proof.Machine

/-! ### Tables -/

/-- A listed key reads the same whatever the default. -/
theorem Table.get_of_has {α : Type} {t : Table α} {k : Nat} (h : Table.has t k = true) (d e : α) :
    Table.get d t k = Table.get e t k := by
  induction t with
  | nil => cases h
  | cons x t ih =>
    obtain ⟨i, v⟩ := x
    by_cases hi : i = k
    · simp [Table.get, hi]
    · have ht : Table.has t k = true := by simpa [Table.has, hi] using h
      simp [Table.get, hi, ih ht]

/-- An unlisted key reads as the default. -/
theorem Table.get_of_not_has {α : Type} {t : Table α} {k : Nat} (h : Table.has t k = false) (d : α) :
    Table.get d t k = d := by
  induction t with
  | nil => rfl
  | cons x t ih =>
    obtain ⟨i, v⟩ := x
    obtain ⟨hi, ht⟩ : i ≠ k ∧ Table.has t k = false := by simpa [Table.has] using h
    simp [Table.get, hi, ih ht]

/-- What stands behind a change of the present cc (R162): the entry noted first is read, and it is what was read before. -/
theorem Table.get_noted {α : Type} (old : Table α) (k : Nat) (now later : α) :
    Table.get later (if Table.has old k then old else Table.insert k now old) k = Table.get now old k := by
  by_cases h : Table.has old k = true
  · rw [if_pos h]
    exact Table.get_of_has h later now
  · have h : Table.has old k = false := by simpa using h
    rw [if_neg (by simp [h]), Table.get_insert _ _ _ _ _ h, if_pos rfl, Table.get_of_not_has h]

/-- A change of every entry that keeps the default. -/
theorem Table.get_map {α : Type} (f : α → α) {d : α} (hd : f d = d) (t : Table α) (k : Nat) :
    Table.get d (t.map (fun p => (p.1, f p.2))) k = f (Table.get d t k) := by
  induction t with
  | nil => exact hd.symm
  | cons x t ih =>
    obtain ⟨i, v⟩ := x
    by_cases hi : i = k <;> simp [Table.get, hi, ih]

/-! ### Queues and timelines -/

@[simp] theorem Core.queue_setQueue_self (c : Core) (q : Nat) (x : Queue) : (c.setQueue q x).queue q = x := by
  simp [Core.queue, Core.setQueue]

theorem Core.queue_setQueue_of_ne (c : Core) {q p : Nat} (x : Queue) (h : p ≠ q) : (c.setQueue q x).queue p = c.queue p :=
  Table.get_set_of_ne _ _ _ _ _ h.symm

@[simp] theorem Core.queue_changeQueue_self (c : Core) (q : Nat) (x : Queue) : (c.changeQueue q x).queue q = x :=
  Core.queue_setQueue_self c q x

theorem Core.queue_changeQueue_of_ne (c : Core) {q p : Nat} (x : Queue) (h : p ≠ q) :
    (c.changeQueue q x).queue p = c.queue p :=
  Core.queue_setQueue_of_ne c x h

@[simp] theorem Core.barrier_changeBarrier_self (c : Core) (b : Nat) (x : Barrier) : (c.changeBarrier b x).barrier b = x :=
  Table.get_set_self _ _ _ _

/-- A check of the present cc does not see the change of a timeline (R162). -/
theorem Core.tlSeen_changeQueue (c : Core) (q : Nat) (x : Queue) : (c.changeQueue q x).tlSeen q = c.tlSeen q :=
  Table.get_noted c.tlOld q (c.queue q).tl _

/-- A check of the present cc does not see the change of a barrier (R162). -/
theorem Core.barSeen_changeBarrier (c : Core) (b : Nat) (x : Barrier) : (c.changeBarrier b x).barSeen b = c.barSeen b :=
  Table.get_noted c.barOld b (c.barrier b) _

/-- In the next cc the timelines and barriers are seen as they stand (R162). -/
theorem tickCore_seen (s : State) (u : UnitNo) (n q b : Nat) :
    ((s.tickCore u n).core u).tlSeen q = ((s.core u).queue q).tl
    ∧ ((s.tickCore u n).core u).barSeen b = (s.core u).barrier b := by
  rw [State.core_tickCore, if_pos rfl]
  exact ⟨rfl, rfl⟩

/-! ### FAULT -/

/-- The release of a kept pair buffer behind a cleared FAULT touches no queue (R265). -/
theorem Core.queue_clearFault (c : Core) (q p : Nat) :
    (c.clearFault q).queue p = (c.setQueue q { c.queue q with fault := 0, circHeld := false }).queue p := by
  unfold Core.clearFault
  dsimp only
  split <;> rfl

theorem Core.clearFault_frame (c : Core) (q p : Nat) :
    ((c.clearFault q).queue q).fault = 0 ∧ ((c.clearFault q).queue q).tl = (c.queue q).tl
    ∧ ((c.clearFault q).queue q).entries = (c.queue q).entries ∧ (p ≠ q → (c.clearFault q).queue p = c.queue p) := by
  simp only [Core.queue_clearFault, Core.queue_setQueue_self, true_and]
  exact Core.queue_setQueue_of_ne c _

end Sys2Proof.Machine
end

section
/-! PROOFS. What the completion of an engine command does (O36). -/

namespace Sys2Proof.Machine

/-! ### Tile rows -/

@[simp] theorem Core.row_setRow_self (c : Core) (k : Nat) (r : Row) : (c.setRow k r).row k = r := Table.get_set_self _ _ _ _

theorem Core.row_setRow_of_ne (c : Core) {k j : Nat} (r : Row) (h : k ≠ j) : (c.setRow k r).row j = c.row j :=
  Table.get_set_of_ne _ _ _ _ _ h

/-- Writing tile rows changes the rows and their poison marks alone. -/
theorem Core.putMasked_frame (c : Core) (l : List (Nat × MaskReg × Row)) :
    c.putMasked l = { c with rows := (c.putMasked l).rows, badElems := (c.putMasked l).badElems } := by
  induction l generalizing c with
  | nil => rfl
  | cons x l ih =>
    obtain ⟨k, m, r⟩ := x
    exact ih _

theorem Core.row_putMasked_of_not_mem (c : Core) {l : List (Nat × MaskReg × Row)} {k : Nat} (h : k ∉ l.map Prod.fst) :
    (c.putMasked l).row k = c.row k := by
  induction l generalizing c with
  | nil => rfl
  | cons x l ih =>
    obtain ⟨j, m, r⟩ := x
    obtain ⟨hj, hl⟩ : k ≠ j ∧ k ∉ l.map Prod.fst := by simpa [not_or] using h
    exact (ih _ hl).trans (Core.row_setRow_of_ne c _ hj.symm)

/-- Tile rows as a command writes them whole. -/
def wholeRows (rows : List (Nat × Row)) : List (Nat × MaskReg × Row) := rows.map (fun p => (p.1, BitVec.allOnes 256, p.2))

theorem keys_wholeRows (rows : List (Nat × Row)) : (wholeRows rows).map Prod.fst = rows.map Prod.fst := by
  simp [wholeRows]

/-- A row written whole, and no second time, holds what was written. -/
theorem Core.row_putMasked_whole (c : Core) {rows : List (Nat × Row)} (h : (rows.map Prod.fst).Nodup) :
    ∀ p ∈ rows, (c.putMasked (wholeRows rows)).row p.1 = p.2 := by
  induction rows generalizing c with
  | nil => simp
  | cons x rows ih =>
    obtain ⟨k, r⟩ := x
    obtain ⟨hk, hn⟩ := List.nodup_cons.1 h
    rintro p hp
    rcases List.mem_cons.1 hp with rfl | hp
    · refine (Core.row_putMasked_of_not_mem (l := wholeRows rows) _ (by rwa [keys_wholeRows])).trans ?_
      exact (Core.row_setRow_self c k _).trans (if_pos rfl)
    · exact ih _ hn p hp

/-! ### FIFO slots -/

theorem Core.slotOf_setFifo (c : Core) (b d : Bool) (k j : Nat) (x : FSlot) :
    (c.setFifo b k x).slotOf d j = if b = d ∧ k % 4 = j then x else c.slotOf d j := by
  cases b <;> cases d <;> simp [Core.setFifo, Core.setSlot, Core.slotOf, Table.get_set]

/-- n slots of FIFO B emptied from slot b on. -/
def Core.emptyB (c : Core) (b n : Nat) : Core := (List.range n).foldl (fun x i => x.setFifo true (b + i) FSlot.reset) c

theorem Core.emptyB_succ (c : Core) (b n : Nat) : c.emptyB b (n + 1) = (c.emptyB b n).setFifo true (b + n) FSlot.reset := by
  simp [Core.emptyB, List.range_succ]

theorem Core.slotA_emptyB (c : Core) (b n p : Nat) : (c.emptyB b n).slotA p = c.slotA p := by
  induction n with
  | zero => rfl
  | succ n ih => rw [Core.emptyB_succ, Core.slotA, Core.slotOf_setFifo, if_neg (by simp)]; exact ih

theorem Core.slotB_emptyB (c : Core) (b : Nat) {n i : Nat} (h : i < n) : (c.emptyB b n).slotB (b + i) = FSlot.reset := by
  induction n with
  | zero => cases h
  | succ n ih =>
    rw [Core.emptyB_succ, Core.slotB, Core.slotOf_setFifo]
    split
    · rfl
    · next hne =>
      have hin : i ≠ n := by
        rintro rfl
        exact hne ⟨rfl, rfl⟩
      exact ih (by omega)

/-- The two halves of a doubleword put together from them. -/
theorem field_halves {a b : Nat} (ha : a < 2 ^ 32) (hb : b < 2 ^ 32) :
    field (BitVec.ofNat 64 (a + b * 2 ^ 32)) 31 0 = a ∧ field (BitVec.ofNat 64 (a + b * 2 ^ 32)) 63 32 = b := by
  have h : (BitVec.ofNat 64 (a + b * 2 ^ 32)).toNat = a + b * 2 ^ 32 := by
    rw [BitVec.toNat_ofNat]
    omega
  rw [field, field, h]
  omega

/-- The two read positions that sys.MXPOS holds. -/
theorem rp_of_mxpos (c : Core) (x y : Nat) :
    rpA { c with mxpos := BitVec.ofNat 64 (x % 2 ^ 32 + y % 2 ^ 32 * 2 ^ 32) } = x % 2 ^ 32
    ∧ rpB { c with mxpos := BitVec.ofNat 64 (x % 2 ^ 32 + y % 2 ^ 32 * 2 ^ 32) } = y % 2 ^ 32 :=
  field_halves (Nat.mod_lt _ (Nat.two_pow_pos 32)) (Nat.mod_lt _ (Nat.two_pow_pos 32))

theorem Core.releaseSlots_eq (c : Core) (n : Nat) :
    c.releaseSlots n = { (c.setFifo false (rpA c) FSlot.reset).emptyB (rpB c) n with
      mxpos := BitVec.ofNat 64 ((rpA c + 1) % 2 ^ 32 + (rpB c + n) % 2 ^ 32 * 2 ^ 32) } := by
  unfold Core.releaseSlots Core.emptyB
  rfl

theorem Core.slots_withMxpos (c : Core) (m : W64) (p : Nat) :
    ({ c with mxpos := m } : Core).slotA p = c.slotA p ∧ ({ c with mxpos := m } : Core).slotB p = c.slotB p := ⟨rfl, rfl⟩

/-- The read positions stand behind the consumed slots (R207). -/
theorem Core.rp_releaseSlots (c : Core) (n : Nat) :
    rpA (c.releaseSlots n) = (rpA c + 1) % 2 ^ 32 ∧ rpB (c.releaseSlots n) = (rpB c + n) % 2 ^ 32 := by
  rw [Core.releaseSlots_eq]
  exact rp_of_mxpos _ _ _

/-- Consumed slots are empty (R207). -/
theorem Core.releaseSlots_empties (c : Core) (n : Nat) :
    (c.releaseSlots n).slotA (rpA c) = FSlot.reset ∧ ∀ i, i < n → (c.releaseSlots n).slotB (rpB c + i) = FSlot.reset := by
  refine ⟨?_, fun i hi => ?_⟩
  · rw [Core.releaseSlots_eq, (Core.slots_withMxpos _ _ _).1, Core.slotA_emptyB, Core.slotA, Core.slotOf_setFifo, if_pos ⟨rfl, rfl⟩]
  · rw [Core.releaseSlots_eq, (Core.slots_withMxpos _ _ _).2, Core.slotB_emptyB _ _ hi]

/-! ### What a completion leaves on the core -/

section ApplyOut

variable (c : Core) {o : CmdOut}

/-- A drain is noted behind the earlier ones, at the present cycle (R158). -/
theorem Core.statEv_applyOut {tile : Nat} {nan ovf : Bool} (hd : o.drain = some (tile, nan, ovf)) (hr : o.release = none)
    (hf : o.fills = []) :
    (c.applyOut o).statEv = c.statEv ++ [{ cc := c.cycle, tile := tile, nan := nan, ovf := ovf }] := by
  simp only [Core.applyOut, hd, hr, hf, List.foldl_nil]
  rw [Core.putMasked_frame]

theorem Core.applyOut_of_release {k : Nat} (hr : o.release = some k) (hd : o.drain = none) (hf : o.fills = []) :
    c.applyOut o = (c.putMasked o.rows).releaseSlots k := by
  simp only [Core.applyOut, hd, hr, hf, List.foldl_nil]

/-- The read positions stay where tile rows are written. -/
theorem Core.rp_putMasked (l : List (Nat × MaskReg × Row)) : rpA (c.putMasked l) = rpA c ∧ rpB (c.putMasked l) = rpB c := by
  rw [Core.putMasked_frame]
  exact ⟨rfl, rfl⟩

theorem Core.applyOut_rows (hr : o.release = none) (hd : o.drain = none) (hf : o.fills = []) :
    c.applyOut o = c.putMasked o.rows := by
  simp only [Core.applyOut, hd, hr, hf, List.foldl_nil]

end ApplyOut

/-! ### The queue behind a completed command -/

/-- The queue without its head, whose number its timeline now holds. -/
def Queue.freed (x : Queue) (num : W64) : Queue :=
  { x with entries := x.entries.drop 1, head := x.head + 1, tl := num, doneFault := x.fault }

/-- The follow-ons of command num of queue n wait for it no longer (R220). -/
def Queue.settled (x : Queue) (n : Nat) (num : W64) (ok : Bool) : Queue :=
  { x with entries := x.entries.map (fun e => if e.pend == some (n, num) then { e with pend := none, failed := !ok } else e) }

theorem Queue.nums_settled (x : Queue) (n : Nat) (num : W64) (ok : Bool) :
    (x.settled n num ok).entries.map (·.num) = x.entries.map (·.num) := by
  simp only [Queue.settled, List.map_map]
  refine List.map_congr_left fun e _ => ?_
  dsimp only [Function.comp]
  split <;> rfl

theorem Core.queue_resolvePend (c : Core) (n : Nat) (num : W64) (ok : Bool) (p : Nat) :
    (c.resolvePend n num ok).queue p = (c.queue p).settled n num ok :=
  Table.get_map (fun x => Queue.settled x n num ok) rfl c.queues p

section Retire

variable (c : Core) (r : EngRun) (ok : Bool)

theorem Core.queue_retire (p : Nat) :
    (c.retire r ok).queue p = ((c.changeQueue r.queue ((c.queue r.queue).freed r.num)).queue p).settled r.queue r.num ok := by
  unfold Core.retire
  rw [Core.queue_resolvePend]
  dsimp only
  split <;> rfl

theorem Core.queue_retire_self : (c.retire r ok).queue r.queue = ((c.queue r.queue).freed r.num).settled r.queue r.num ok := by
  rw [Core.queue_retire, Core.queue_changeQueue_self]

theorem Core.queue_retire_of_ne {p : Nat} (h : p ≠ r.queue) :
    (c.retire r ok).queue p = (c.queue p).settled r.queue r.num ok := by
  rw [Core.queue_retire, Core.queue_changeQueue_of_ne c _ h]

theorem Core.eng_retire : (c.retire r ok).eng = Table.erase (r.queue % 4) c.eng := by
  unfold Core.retire Core.resolvePend
  dsimp only
  split <;> rfl

theorem Core.tlOld_retire : (c.retire r ok).tlOld = (c.changeQueue r.queue ((c.queue r.queue).freed r.num)).tlOld := by
  unfold Core.retire Core.resolvePend
  dsimp only
  split <;> rfl

/-- The checks of the present cc find the timeline as it stood (R162). -/
theorem Core.tlSeen_retire : (c.retire r ok).tlSeen r.queue = c.tlSeen r.queue := by
  rw [← Core.tlSeen_changeQueue c r.queue ((c.queue r.queue).freed r.num), Core.tlSeen, Core.tlSeen, Core.tlOld_retire,
    Core.queue_retire]
  rfl

end Retire

/-! ### Failures -/

section Checks

variable (s : State) {o : CmdOut}

theorem State.dieCheck_of_kept (h : ∀ cell ∈ o.cells, s.homeLost cell.1 = false) : s.dieCheck o = o := by
  unfold State.dieCheck
  rw [if_neg (by simpa using h)]

theorem State.pinCheck_of_kept (u : UnitNo) (e : QEntry) (h : ∀ cell ∈ o.cells, s.pinGone cell.1 = false) :
    s.pinCheck u e o = o := by
  have hn : o.cells.find? (fun c => s.pinGone c.1) = none := by simpa using h
  unfold State.pinCheck
  rw [hn]

/-- A failure of its own keeps its status; a success gets that of the check. -/
theorem failed_status {st : BitVec 8} (st0 : BitVec 8) (h : st ≠ stOk) :
    (if st0 = stOk then st else st0) ≠ stOk ∧ (st0 = stOk → (if st0 = stOk then st else st0) = st) :=
  ⟨by split <;> assumption, fun h0 => if_pos h0⟩

theorem mem_keptCells {p : Nat → Bool} {l : List (Nat × Byte)} {c : Nat × Byte} :
    c ∈ l.filter (fun c => !p c.1) ↔ c ∈ l ∧ p c.1 = false := by
  simp [List.mem_filter]

/-- Bytes of a lost die are not written and the command is POISONED (R284). -/
theorem State.dieCheck_of_lost (h : ∃ cell ∈ o.cells, s.homeLost cell.1 = true) :
    (s.dieCheck o).status ≠ stOk ∧ (o.status = stOk → (s.dieCheck o).status = stPoisoned) ∧ (s.dieCheck o).signal = none
    ∧ ∀ cell, cell ∈ (s.dieCheck o).cells ↔ cell ∈ o.cells ∧ s.homeLost cell.1 = false := by
  unfold State.dieCheck
  rw [if_pos (by simpa using h)]
  obtain ⟨h1, h2⟩ := failed_status (st := stPoisoned) o.status (by decide)
  exact ⟨h1, h2, rfl, fun cell => mem_keptCells⟩

/-- Bytes beyond a pinned storage that has shrunk are not written and the command is an XLATE-FAULT (R252). -/
theorem State.pinCheck_of_gone (u : UnitNo) (e : QEntry) (h : ∃ cell ∈ o.cells, s.pinGone cell.1 = true) :
    (s.pinCheck u e o).status ≠ stOk ∧ (o.status = stOk → (s.pinCheck u e o).status = stXlateFault)
    ∧ (s.pinCheck u e o).signal = none
    ∧ ∀ cell, cell ∈ (s.pinCheck u e o).cells ↔ cell ∈ o.cells ∧ s.pinGone cell.1 = false := by
  obtain ⟨x, hx⟩ : ∃ x, o.cells.find? (fun c => s.pinGone c.1) = some x :=
    Option.isSome_iff_exists.1 (by simpa [List.find?_isSome] using h)
  unfold State.pinCheck
  rw [hx]
  obtain ⟨h1, h2⟩ := failed_status (st := stXlateFault) o.status (by decide)
  exact ⟨h1, h2, rfl, fun cell => mem_keptCells⟩

end Checks

section Fault

variable (s : State) (u : UnitNo) (r : EngRun) (o : CmdOut)

/-- FAULT and the translation fault word of a queue that has none yet (R165, R294). -/
def Queue.faulted (x : Queue) (r : EngRun) (o : CmdOut) : Queue :=
  { x with fault := if x.fault = 0 then faultWord o.status r.op r.num else x.fault
           xword := if x.fault = 0 then o.xword else x.xword }

/-- The state that a failure is routed from: the queue holds it, and the record of an XLATE-FAULT is kept. -/
def State.faulted : State :=
  (s.setCore u ((s.core u).setQueue r.queue (((s.core u).queue r.queue).faulted r o))).noteXlate u r o

theorem State.noteXlate_other (h : o.status ≠ stXlateFault) : s.noteXlate u r o = s := if_neg h

/-- The record of an XLATE-FAULT is kept with its partition. -/
theorem State.noteXlate_frame : (s.noteXlate u r o).mem = s.mem ∧ (s.noteXlate u r o).strands = s.strands
    ∧ (s.noteXlate u r o).core u = s.core u := by
  unfold State.noteXlate
  split <;> exact ⟨rfl, rfl, rfl⟩

theorem State.xrecs_noteXlate (h : o.status = stXlateFault) :
    ∃ x : XRecord, ((s.noteXlate u r o).partOf (s.unitPart u)).xrecs = (s.partOf (s.unitPart u)).xrecs ++ [x]
      ∧ x.faddr = o.faddr ∧ x.word = o.xword := by
  unfold State.noteXlate
  rw [if_pos h]
  dsimp only
  rw [State.partOf_setPart]
  exact ⟨_, rfl, rfl, rfl⟩

theorem State.commandFault_of_done (h : o.status = stOk ∨ o.status = stSkipped) : s.commandFault u r o = s := by
  unfold State.commandFault
  rw [if_pos (by simpa using h)]

/-- A failure is routed once, as a lost circuit or as a fault of the engine (R165). -/
theorem State.commandFault_of_failed (h1 : o.status ≠ stOk) (h2 : o.status ≠ stSkipped) :
    s.commandFault u r o = (s.faulted u r o).engineFault u r.queue (if o.status = stCircLost then clsCircLost else clsEngine)
      (if o.status = stCircLost then (o.circ.map (fun p => p.2.1)).getD 0 else o.status.toNat) r.num o.faddr := by
  unfold State.commandFault State.faulted
  rw [if_neg (by simp [h1, h2])]
  by_cases hc : o.status = stCircLost
  · simp only [if_pos hc]
    rw [State.noteXlate_other _ _ _ _ (by rw [hc]; decide)]
    rfl
  · simp only [if_neg hc]
    rfl

theorem State.queue_faulted : ((s.faulted u r o).core u).queue r.queue = ((s.core u).queue r.queue).faulted r o := by
  unfold State.faulted
  rw [(State.noteXlate_frame _ u r o).2.2]
  simp

theorem State.commandFault_spec (h1 : o.status ≠ stOk) (h2 : o.status ≠ stSkipped) :
    ∃ t : State, s.commandFault u r o = t.engineFault u r.queue (if o.status = stCircLost then clsCircLost else clsEngine)
        (if o.status = stCircLost then (o.circ.map (fun p => p.2.1)).getD 0 else o.status.toNat) r.num o.faddr
      ∧ ((t.core u).queue r.queue).fault = (if ((s.core u).queue r.queue).fault = 0
          then faultWord o.status r.op r.num else ((s.core u).queue r.queue).fault)
      ∧ (((s.core u).queue r.queue).fault = 0 → ((t.core u).queue r.queue).xword = o.xword)
      ∧ (o.status = stXlateFault → ∃ x : XRecord, (t.partOf (s.unitPart u)).xrecs = (s.partOf (s.unitPart u)).xrecs ++ [x]
        ∧ x.faddr = o.faddr ∧ x.word = o.xword)
      ∧ t.mem = s.mem ∧ t.strands = s.strands := by
  obtain ⟨hm, hs, -⟩ := State.noteXlate_frame
    (s.setCore u ((s.core u).setQueue r.queue (((s.core u).queue r.queue).faulted r o))) u r o
  refine ⟨s.faulted u r o, s.commandFault_of_failed u r o h1 h2, ?_, fun h0 => ?_, fun hx => ?_, hm, hs⟩
  · rw [State.queue_faulted]
    rfl
  · rw [State.queue_faulted]
    exact if_pos h0
  · exact State.xrecs_noteXlate (s.setCore u _) u r o hx

end Fault

/-! ### The completion -/

/-- The completion of the command at the head of queue q with what its checks leave of its outcome. -/
def State.completeWith (s : State) (q : QRef) (e : QEntry) (r : EngRun) (o : CmdOut) : State :=
  let u := q.unit
  let s1 := s.commandWrites u (BitVec.ofNat 3 (q.queue.toNat / 4)) o
  let s2 := (s1.setCore u ((s1.core u).applyOut o)).commandFault u r o
  let s3 := if o.circ.isSome then s2.countResends else s2
  let s4 := s3.setCore u ((s3.core u).retire r (o.status == stOk))
  { (if (parseCmd e.word).rsk = 1 ∧ r.rung = false then s4.arrive u (parseCmd e.word).rsb.toNat 1 else s4) with
    tick := s4.tick + 1 }

/-- Whether the completion of an outcome has to wait: its queue is frozen (R175), its writes are held, or the egress
queues have no room for them. -/
def State.completionHeld (s : State) (q : QRef) (o : CmdOut) : Prop :=
  ((s.core q.unit).queue q.queue.toNat).frozen = true ∨ s.completionWaits q.unit o = true
    ∨ s.outFull q.unit (BitVec.ofNat 3 (q.queue.toNat / 4)) o = true

section Complete

theorem not_completionHeld {s : State} {q : QRef} {o : CmdOut} (hz : ((s.core q.unit).queue q.queue.toNat).frozen = false)
    (hw : s.completionWaits q.unit o = false) (hf : s.outFull q.unit (BitVec.ofNat 3 (q.queue.toNat / 4)) o = false) :
    ¬s.completionHeld q o := by
  simp [State.completionHeld, hz, hw, hf]

variable {q : QRef} {s : State} {r : EngRun} {o : CmdOut} {k : Nat}

theorem commandComplete_held
    (hr : (s.core q.unit).eng.find? (fun (p : Nat × EngRun) => p.2.queue == q.queue.toNat) = some (k, r))
    (ho : r.out = some o) (h : s.completionHeld q o) : evCommandComplete q s = s := by
  unfold State.completionHeld at h
  unfold evCommandComplete
  dsimp only
  rw [hr]
  cases ((s.core q.unit).queue q.queue.toNat).entries with
  | nil => rfl
  | cons e rest =>
    dsimp only
    rw [ho]
    exact if_pos (by simpa [or_assoc] using h)

theorem commandComplete_completes {e : QEntry} {rest : List QEntry}
    (hx : ((s.core q.unit).queue q.queue.toNat).entries = e :: rest)
    (hr : (s.core q.unit).eng.find? (fun (p : Nat × EngRun) => p.2.queue == q.queue.toNat) = some (k, r))
    (ho : r.out = some o) (h : ¬s.completionHeld q o) :
    evCommandComplete q s = s.completeWith q e r (s.dieCheck (s.pinCheck q.unit e (s.lostCheck o))) := by
  unfold State.completionHeld at h
  unfold evCommandComplete
  dsimp only
  rw [hr, hx]
  dsimp only
  rw [ho]
  dsimp only
  rw [if_neg (by simpa [or_assoc] using h)]
  unfold State.completeWith
  by_cases hk : (parseCmd e.word).rsk = 1 ∧ r.rung = false
  · simp only [if_pos hk]
    rw [if_pos (by simpa using hk)]
    rfl
  · simp only [if_neg hk]
    rw [if_neg (by simpa using hk)]

end Complete

theorem State.countResends_spec (s : State) :
    s.countResends.optics.resent.toNat = Nat.min (s.optics.resent.toNat + Config.resends s.tick) 0xFFFF
    ∧ s.countResends.mem = s.mem ∧ s.countResends.units = s.units ∧ s.countResends.strands = s.strands :=
  ⟨(BitVec.toNat_ofNat _ _).trans (Nat.mod_eq_of_lt (Nat.lt_succ_of_le (Nat.min_le_right _ _))), rfl, rfl, rfl⟩

/-- An open chain whose next command is late leaves the engine to the other queues (R212). -/
theorem chainTimeout_opens {q : QRef} {s : State} (hl : (s.core q.unit).chainLock = true)
    (hq : Table.get 0 (s.core q.unit).served 0 = q.queue.toNat) (he : Table.has (s.core q.unit).eng 0 = false)
    (ht : 64 ≤ ((s.core q.unit).cycle - (s.core q.unit).chainAt).toNat) (hc : s.cmdReady q.unit q.queue.toNat = false) :
    evChainTimeout q s = s.setCore q.unit { s.core q.unit with chainLock := false } := by
  unfold evChainTimeout
  dsimp only
  rw [if_pos (by rw [hl, hq, he, hc, decide_eq_true ht]; simp)]

/-- Settles O36: the checks of a completion in their order, then each of its effects. -/
theorem commandsComplete : Obligations.CommandsComplete := by
  refine ⟨fun q s e rest r o => ?_, State.countResends_spec, fun q s r o hr ho h => ?_,
    fun s o => s.dieCheck_of_lost, fun s u e o => s.pinCheck_of_gone u e,
    fun s u r o => ⟨s.commandFault_of_done u r o, s.commandFault_spec u r o⟩, fun c r ok => ?_, fun c r ok => ?_,
    fun c o tile nan ovf => c.statEv_applyOut, fun c o k hr hk hd hf => ?_, fun c o rows hw hr hd hf hn => ?_,
    fun q s hl hq he ht hc => congrArg _ (chainTimeout_opens hl hq he ht hc)⟩
  · intro n hx hz hr _ ho hw hf hl hc
    have hh : ¬s.completionHeld q o := not_completionHeld hz hw hf
    refine congrArg Host.Outcome.next ((commandComplete_completes hx hr ho hh).trans ?_)
    rw [hl, s.pinCheck_of_kept _ _ fun c h => (hc c h).2, s.dieCheck_of_kept fun c h => (hc c h).1]
    rfl
  · exact congrArg _ (commandComplete_held hr ho h)
  · rw [Core.queue_retire_self, Queue.nums_settled, Core.eng_retire]
    refine ⟨rfl, rfl, by simp [Queue.freed], rfl, Table.has_erase _ _, fun p hp => ?_⟩
    rw [Core.queue_retire_of_ne _ _ _ hp, Queue.nums_settled]
    exact ⟨rfl, rfl⟩
  · exact ⟨by rw [Core.queue_retire_self]; rfl, c.tlSeen_retire r ok⟩
  · obtain ⟨ha, hb⟩ := c.rp_putMasked o.rows
    rw [c.applyOut_of_release hr hd hf, ← ha, ← hb]
    obtain ⟨hpa, hpb⟩ := (c.putMasked o.rows).rp_releaseSlots k
    obtain ⟨hea, heb⟩ := (c.putMasked o.rows).releaseSlots_empties k
    exact ⟨hpa, hpb, congrArg FSlot.state hea, fun i hi => congrArg FSlot.state (heb i hi)⟩
  · rw [c.applyOut_rows hr hd hf, hw]
    exact ⟨c.row_putMasked_whole hn, fun k hk => c.row_putMasked_of_not_mem (by rwa [← keys_wholeRows] at hk)⟩

end Sys2Proof.Machine
end

section
/-! PROOFS. Barriers, timelines and tile status (O20). -/

namespace Sys2Proof.Machine

/-! ### A lone slot by the answer of its meaning -/

section Ends

variable {i : Instr} {maj : Nat} {y : Syl} {s : State} (h : i.syl? = some (maj, y))
include h

theorem completesW_of {v : W32} (hf : slotRun i s ⟨0, y.len.bytes⟩ = putW s y v) : CompletesW i y s v :=
  fun hi hv => completes_of h (exec_slot i s maj y h) hi (hf.trans (putW_ok v hv))

theorem completesA_of {v : W64} (hf : slotRun i s ⟨0, y.len.bytes⟩ = putA s y v) : CompletesA i y s v :=
  fun hi hv => completes_of h (exec_slot i s maj y h) hi (hf.trans (putA_ok v hv))

theorem completesP_of {v : Bool} (hf : slotRun i s ⟨0, y.len.bytes⟩ = putP y v) : CompletesP i y s v :=
  fun hi => completes_of h (exec_slot i s maj y h) hi (hf.trans (putP_ok y v))

theorem waitsFor_of {c : Prop} {w : Wait} {d : Done} (hi : Issues i s) (hc : c → slotRun i s ⟨0, y.len.bytes⟩ = .ok d)
    (hn : ¬c → slotRun i s ⟨0, y.len.bytes⟩ = .error (.block w)) : WaitsFor i s c w d :=
  ⟨fun h0 => completes_of h (exec_slot i s maj y h) hi (hc h0), fun h0 => blocks_of h (exec_slot i s maj y h) hi (hn h0)⟩

theorem queuesStore_of {k : SqKind} (hi : Issues i s)
    (hf : slotRun i s ⟨0, y.len.bytes⟩ = needSq s 1 >>= fun _ => .ok (queued k)) : QueuesStore i s k :=
  ⟨fun hq => completes_of h (exec_slot i s maj y h) hi (hf.trans (Rd.bind_ok (needSq_ok hq))),
    fun hq => stalls_of h (exec_slot i s maj y h) hi (hf.trans (Rd.bind_error (needSq_stall (by omega))))⟩

end Ends

/-! ### Barriers -/

theorem barSpec_x96 {y : Syl} (s : State) (m : Nat) (h : y.len = .x96) : barSpec s y m = .ok y.lit :=
  if_pos (by simp [isX, h])

/-- A register specifier with a reserved bit set traps (R172). -/
theorem barSpec_reg {y : Syl} {s : State} {v : W32} (m : Nat) (h : y.len ≠ .x96) (hv : src2W s y = .ok v) :
    barSpec s y m = if v.toNat &&& m = 0 then .ok v else .error (.trap 0x02 0 0) := by
  unfold barSpec
  rw [if_neg (by simpa [isX] using h), Rd.bind_ok hv]
  by_cases h0 : v.toNat &&& m = 0
  · rw [if_pos h0, Rd.bind_ok (needOp_ok (decide_eq_true h0))]
  · rw [if_neg h0, Rd.bind_error (needOp_trap (decide_eq_false h0))]

theorem barId_eq (v : W32) : barId v = v.toNat % 512 := by simp [barId, field]

theorem field_31_16 (v : W32) : field v 31 16 = v.toNat / 2 ^ 16 := Nat.mod_eq_of_lt (by omega)

theorem field_31_24 (v : W32) : field v 31 24 = v.toNat / 2 ^ 24 := Nat.mod_eq_of_lt (by omega)

section Barr

variable {u : UnitNo} {v : W32}

theorem barrUnit_own (h : v.getLsbD 20 = false) : barrUnit u v = u.toNat :=
  if_pos (by rw [h]; decide)

theorem barrUnit_remote (h : v.getLsbD 20 = true) (hu : u.toNat < 512) :
    barrUnit u v = u.toNat / 16 * 16 + v.toNat / 2 ^ 16 % 16 :=
  (if_neg (by rw [h]; decide)).trans (if_pos hu)

theorem barrUnit_none (h : v.getLsbD 20 = true) (hu : 512 ≤ u.toNat) : barrUnit u v = 1023 :=
  (if_neg (by rw [h]; decide)).trans (if_neg (by omega))

end Barr

section Slots

variable {y : Syl} {s : State} {v : W32}

theorem slotBinit_eq (hv : barSpec s y 0xFE00 = .ok v) (h : v.toNat / 2 ^ 16 ≠ 0) :
    slotBinit y s = needSq s 1 >>= fun _ => .ok (queued (.binit (v.toNat % 512) (v.toNat / 2 ^ 16))) := by
  unfold slotBinit
  rw [Rd.bind_ok hv, field_31_16, Rd.bind_ok (needOp_ok (decide_eq_true h)), barId_eq]
  rfl

/-- A barrier of COUNT 0 is refused (R171). -/
theorem slotBinit_zero (hv : barSpec s y 0xFE00 = .ok v) (h : v.toNat / 2 ^ 16 = 0) :
    slotBinit y s = .error (.trap 0x02 0 0) := by
  unfold slotBinit
  rw [Rd.bind_ok hv, field_31_16, Rd.bind_error (needOp_trap (decide_eq_false (not_not_intro h)))]

theorem slotBarr_eq (hv : barSpec s y 0xE0FE00 = .ok v) :
    slotBarr y s = needSq s 1 >>= fun _ => .ok (queued (.barr (barrUnit s.curU v) (v.toNat % 512) (v.toNat / 2 ^ 24 + 1))) := by
  unfold slotBarr
  rw [Rd.bind_ok hv, field_31_24, barId_eq]
  rfl

theorem phaseDone_iff (x : Barrier) (ph : Bool) : x.phaseDone ph = true ↔ x.phn.getLsbD 0 ≠ ph := bne_iff_ne

theorem slotBwait_eq (hv : barSpec s y 0xFFFFFC00 = .ok v) :
    slotBwait y s = if (s.myCore.barSeen (v.toNat % 512)).phaseDone (v.getLsbD 9) then .ok (Done.plain id)
      else .error (.block (.barrier (v.toNat % 512) (v.getLsbD 9))) := by
  unfold slotBwait
  rw [Rd.bind_ok hv, barId_eq]
  rfl

theorem slotBtest_eq (hv : barSpec s y 0xFFFFFC00 = .ok v) :
    slotBtest y s = putP y ((s.myCore.barSeen (v.toNat % 512)).phn.getLsbD 0 != v.getLsbD 9) := by
  unfold slotBtest
  rw [Rd.bind_ok hv, barId_eq]
  rfl

theorem slotBrd_eq (hv : barSpec s y 0xFFFFFC00 = .ok v) :
    slotBrd y s = putW s y (BitVec.ofNat 32 ((s.myCore.barSeen (v.toNat % 512)).arrived.toNat
      + 2 ^ 16 * ((s.myCore.barSeen (v.toNat % 512)).phn.toNat % 2 ^ 16))) := by
  unfold slotBrd
  rw [Rd.bind_ok hv, barId_eq, Nat.mul_comm (2 ^ 16)]

/-! ### Timelines -/

variable {q : Nat} (hq : queueSpec s y = .ok q)
include hq

theorem slotTlrd_eq : slotTlrd y s = putA s y (s.myCore.tlSeen q) := by
  unfold slotTlrd
  rw [Rd.bind_ok hq]

theorem slotTlwait_eq {n : W64} (hn : readA s y.s1 = .ok n) :
    slotTlwait y s = if n.toNat ≤ (s.myCore.tlSeen q).toNat then .ok (Done.plain id)
      else .error (.block (.timeline q n)) := by
  unfold slotTlwait
  rw [Rd.bind_ok hq, Rd.bind_ok hn]

theorem slotTlflt_eq : slotTlflt y s = putA s y (s.myCore.queue q).fault := by
  unfold slotTlflt
  rw [Rd.bind_ok hq]

theorem slotTlfltc_own (h : q / 4 = s.curK.toNat) (hf : freeA s y) :
    slotTlfltc y s = .ok ((doneA y (s.myCore.queue q).fault).andThen (fun t => t.setMyCore (t.myCore.clearFault q))) := by
  unfold slotTlfltc
  rw [Rd.bind_ok hq, Rd.bind_ok (needOp_ok (decide_eq_true h)), Rd.bind_ok (putA_ok _ hf)]
  rfl

/-- A strand clears the FAULT of its own queues alone (R167). -/
theorem slotTlfltc_other (h : q / 4 ≠ s.curK.toNat) : slotTlfltc y s = .error (.trap 0x02 0 0) := by
  unfold slotTlfltc
  rw [Rd.bind_ok hq, Rd.bind_error (needOp_trap (decide_eq_false h))]

end Slots

/-! ### Tile status -/

/-- The sticky bits of tile k cleared behind the drains that have reached its status (R158, R159). -/
def State.clearSticky (k : Nat) (t : State) : State :=
  t.setMyCore { t.myCore.reflect with
    tstat := Table.set t.myCore.reflect.tstat k ⟨false, false, (t.myCore.reflect.tileStat k).dcnt⟩ }

theorem State.tileStat_clearSticky (k : Nat) (t : State) :
    (t.clearSticky k).myCore.tileStat k = ⟨false, false, (t.myCore.reflect.tileStat k).dcnt⟩ := by
  rw [State.clearSticky, State.myCore_setMyCore]
  exact Table.get_set_self _ _ _ _

theorem slotStatrdc_eq {y : Syl} {s : State} (hf : freeW s y) :
    slotStatrdc y s = .ok ((doneW y (s.myCore.reflect.tileStat (fieldNo y.s1)).word).andThen (State.clearSticky (fieldNo y.s1))) := by
  unfold slotStatrdc
  rw [Rd.bind_ok (putW_ok _ hf)]
  rfl

theorem TileStat.toNat_word (x : TileStat) : x.word.toNat = x.nan.toNat + x.ovf.toNat * 2 + x.dcnt.toNat * 2 ^ 16 := by
  have h1 := x.nan.toNat_le
  have h2 := x.ovf.toNat_le
  rw [TileStat.word, BitVec.toNat_ofNat]
  omega

/-- The fields of a tile status word (R158). -/
theorem TileStat.word_fields (x : TileStat) : x.word.getLsbD 0 = x.nan ∧ x.word.getLsbD 1 = x.ovf
    ∧ x.word.toNat / 2 ^ 16 = x.dcnt.toNat ∧ x.word.toNat / 4 % 2 ^ 14 = 0 := by
  have h := x.toNat_word
  have h1 := x.nan.toNat_le
  have h2 := x.ovf.toNat_le
  refine ⟨bit_eq_of_toNat ?_, bit_eq_of_toNat ?_, ?_, ?_⟩ <;> omega

/-- Settles O20: each meaning read off, and what its reads and checks see. -/
theorem barriersTimelinesAndStatus : Obligations.BarriersTimelinesAndStatus := by
  refine ⟨⟨fun y s v hi hv => ⟨fun h => queuesStore_of rfl hi (slotBinit_eq hv h), fun h => ?_⟩,
    fun y s v hi hv => ⟨fun h => ?_, fun h hu => ?_, fun h hu => ?_⟩,
    fun y s v hv => ⟨fun hi => waitsFor_of rfl hi (fun h => ?_) fun h => ?_, completesP_of rfl (slotBtest_eq hv),
      completesW_of rfl (slotBrd_eq hv)⟩,
    fun y s m => ⟨barSpec_x96 s m, fun h v => barSpec_reg m h⟩⟩,
    fun y s q hq => ⟨completesA_of rfl (slotTlrd_eq hq), fun n hi hn => waitsFor_of rfl hi
        (fun h => (slotTlwait_eq hq hn).trans (if_pos h)) fun h => (slotTlwait_eq hq hn).trans (if_neg h),
      completesA_of rfl (slotTlflt_eq hq), fun hi h hf => ?_, fun hi h => ?_⟩,
    fun c q p => c.clearFault_frame q p,
    fun c q b x z => ⟨c.tlSeen_changeQueue q x, c.queue_changeQueue_self q x, c.barSeen_changeBarrier b z,
      c.barrier_changeBarrier_self b z⟩,
    tickCore_seen, fun y s => ⟨fun h => completesP_of rfl (if_pos h), fun h => completesW_of rfl (if_neg h), fun hi hf =>
      ⟨State.clearSticky (fieldNo y.s1), ?_, fun t => ?_⟩⟩, TileStat.word_fields⟩
  · exact traps_of rfl (exec_slot (.binit y) s _ y rfl) hi (slotBinit_zero hv h)
  · rw [← barrUnit_own (u := s.curU) h]
    exact queuesStore_of rfl hi (slotBarr_eq hv)
  · rw [← barrUnit_remote h hu]
    exact queuesStore_of rfl hi (slotBarr_eq hv)
  · rw [← barrUnit_none h hu]
    exact queuesStore_of rfl hi (slotBarr_eq hv)
  · exact (slotBwait_eq hv).trans (if_pos ((phaseDone_iff _ _).2 h))
  · exact (slotBwait_eq hv).trans (if_neg (mt (phaseDone_iff _ _).1 h))
  · exact completes_of rfl (exec_slot (.tlfltc y) s _ y rfl) hi (slotTlfltc_own hq h hf)
  · exact traps_of rfl (exec_slot (.tlfltc y) s _ y rfl) hi (slotTlfltc_other hq h)
  · exact completes_of rfl (exec_slot (.statrdc y) s _ y rfl) hi (slotStatrdc_eq hf)
  · rw [State.tileStat_clearSticky]
    exact ⟨rfl, rfl, rfl, rfl⟩

end Sys2Proof.Machine
end

section
/-! PROOFS. Enqueueing commands (O21). -/

namespace Sys2Proof.Machine

/-! ### Patched words -/

/-- A part of n bits from bit k on replaced in a word. -/
theorem testBit_replaced (w v k n b : Nat) :
    (w - w / 2 ^ k % 2 ^ n * 2 ^ k + v % 2 ^ n * 2 ^ k).testBit b
      = if k ≤ b ∧ b < k + n then v.testBit (b - k) else w.testBit b := by
  have hlow : w % 2 ^ k < 2 ^ k := Nat.mod_lt _ (Nat.two_pow_pos k)
  have hmid : v % 2 ^ n < 2 ^ n := Nat.mod_lt _ (Nat.two_pow_pos n)
  have hw : w = 2 ^ k * (2 ^ n * (w / 2 ^ k / 2 ^ n) + w / 2 ^ k % 2 ^ n) + w % 2 ^ k := by
    rw [Nat.div_add_mod, Nat.div_add_mod]
  have hr : w - w / 2 ^ k % 2 ^ n * 2 ^ k + v % 2 ^ n * 2 ^ k
      = 2 ^ k * (2 ^ n * (w / 2 ^ k / 2 ^ n) + v % 2 ^ n) + w % 2 ^ k := by
    generalize w / 2 ^ k / 2 ^ n = hi at *
    generalize w / 2 ^ k % 2 ^ n = mid at *
    generalize w % 2 ^ k = low at *
    rw [hw, Nat.mul_add, Nat.mul_add, Nat.mul_comm mid, Nat.mul_comm (v % 2 ^ n)]
    omega
  rw [hr, Nat.testBit_two_pow_mul_add _ hlow, Nat.testBit_two_pow_mul_add _ hmid, Nat.testBit_mod_two_pow,
    Nat.testBit_mod_two_pow, Nat.testBit_div_two_pow, Nat.testBit_div_two_pow]
  by_cases h1 : b < k
  · rw [if_pos h1, if_neg (by omega)]
    simp [h1]
  · by_cases h2 : b < k + n
    · rw [if_neg h1, if_pos (by omega), if_pos (by omega)]
      simp; omega
    · rw [if_neg h1, if_neg (by omega), if_neg (by omega)]
      congr 1; omega

/-- A patch replaces the bits of its words and no others (R166). -/
theorem getLsbD_patchWord (w : CmdWord) (j n v b : Nat) (hb : b < 256) :
    (patchWord w j n v).getLsbD b
      = if 32 * j ≤ b ∧ b < 32 * j + 32 * n then v.testBit (b - 32 * j) else w.getLsbD b := by
  unfold patchWord
  rw [BitVec.getLsbD_ofNat, testBit_replaced, decide_eq_true hb, Bool.true_and]
  rfl

/-! ### The tail of a queue -/

theorem State.myCore_pushCommand (s : State) (q : Nat) (w : CmdWord) (key : W64) (ctr : W32) (seq : Nat)
    (pend : Option (Nat × W64)) (pr : W64) :
    (s.pushCommand q w key ctr seq pend pr).myCore = s.myCore.setQueue q { s.myCore.queue q with
      entries := (s.myCore.queue q).entries
        ++ [⟨(s.myCore.queue q).nx + 1, w, key, ctr, s.sup, s.me.pkr, seq, pend, false, pr, false⟩]
      nx := (s.myCore.queue q).nx + 1, tail := (s.myCore.queue q).tail + 1, lastOp := BitVec.ofNat 8 (cmdOp w) } := by
  unfold State.pushCommand
  dsimp only
  rw [State.myCore_setMe, State.myCore_setMyCore]

/-- A command goes to the tail of its queue, under the next number; no other queue changes (R164). -/
theorem State.pushCommand_spec (s : State) (q : Nat) (w : CmdWord) (key : W64) (ctr : W32) (seq : Nat)
    (pend : Option (Nat × W64)) (pr : W64) :
    let x := (s.pushCommand q w key ctr seq pend pr).myCore.queue q
    x.nx = (s.myCore.queue q).nx + 1 ∧ x.tl = (s.myCore.queue q).tl ∧ x.fault = (s.myCore.queue q).fault
    ∧ x.entries = (s.myCore.queue q).entries
        ++ [⟨(s.myCore.queue q).nx + 1, w, key, ctr, s.sup, s.me.pkr, seq, pend, false, pr, false⟩]
    ∧ ∀ p, p ≠ q → (s.pushCommand q w key ctr seq pend pr).myCore.queue p = s.myCore.queue p := by
  dsimp only
  rw [State.myCore_pushCommand, Core.queue_setQueue_self]
  exact ⟨rfl, rfl, rfl, rfl, fun p hp => Core.queue_setQueue_of_ne _ _ hp⟩

/-! ### The checks of an enqueue -/

/-- A read that goes one of two ways, before what is done with its answer. -/
theorem Rd.bind_ite_ok {α β : Type} {c : Prop} [Decidable c] {m n : Rd α} {a : α} {f : α → Rd β}
    (h : (if c then m else n) = .ok a) : (if c then m >>= f else n >>= f) = f a := by
  by_cases hc : c
  · rw [if_pos hc] at h ⊢
    exact Rd.bind_ok h
  · rw [if_neg hc] at h ⊢
    exact Rd.bind_ok h

theorem queueNo_eq (k : StrandNo) (e : Nat) : queueNo k e = 4 * k.toNat + e := by rw [queueNo, Nat.mul_comm]

theorem queueNo_zero (k : StrandNo) : queueNo k 0 = 4 * k.toNat := queueNo_eq k 0

theorem Queue.full_iff (x : Queue) : x.full = true ↔ 16 ≤ x.entries.length := decide_eq_true_iff

theorem Queue.not_full {x : Queue} (h : x.entries.length < 16) : x.full = false := decide_eq_false (by omega)

section Enqueue

variable {y : Syl} {s : State} {cx : Ctx} {e : Nat} {a : W64} {w f : CmdWord}

/-- A command outside the command area, with a wrong frame, or for the matrix engine of a unit that has none (R57, R397). -/
def EnqueueRefused (s : State) (e : Nat) (a : W64) (w : CmdWord) : Prop :=
  s.myCore.cmdAddrOk a = false ∨ (frameOk e w).isSome = true ∨ (e = 0 ∧ unitClass s.curU ≠ 0)

theorem enqueue_refused (h : EnqueueRefused s e a w) : enqueue y s cx e a w = .error (.trap 0x04 0 0) := by
  refine if_pos ?_
  rcases h with h | h | h <;> simp [h]

theorem not_refused (ha : s.myCore.cmdAddrOk a = true) (hf : (frameOk e w).isSome = false)
    (hu : e ≠ 0 ∨ unitClass s.curU = 0) : ¬EnqueueRefused s e a w := by
  rintro (h | h | ⟨h1, h2⟩)
  · exact absurd (ha.symm.trans h) (by decide)
  · exact absurd (hf.symm.trans h) (by decide)
  · exact hu.elim (absurd h1) (absurd · h2)

/-- A result with which command w, and the follow-on f of a FEEDM, go into the queues at the commit (R164, R220). -/
def Done.enqueues (d : Done) (s : State) (cx : Ctx) (q : Nat) (w f : CmdWord) : Done :=
  { d.andThen (fun t =>
      let x := s.myCore.queue q
      let p := promiseOf s.myCore.cycle x (resolveRm s w)
      let t := (t.setMe { t.me with promise := p }).pushCommand q (resolveRm s w) s.me.srkey
        (s.me.srctr + BitVec.ofNat 32 cx.ctr) s.me.seq none p
      if cmdOp w = 0x12 then
        t.pushCommand (4 * t.curK.toNat) f s.me.srkey (s.me.srctr + BitVec.ofNat 32 cx.ctr) s.me.seq
          (some (q, x.nx + 1)) (BitVec.allOnes 64)
      else t) with
    ctr := takesCounter (resolveRm s w) || (decide (cmdOp w = 0x12) && takesCounter f) }

/-- Past the checks an enqueue looks at the room in its queues, for a FEEDM in that of its follow-on too. -/
theorem enqueue_checked (h : ¬EnqueueRefused s e a w) (hu : cmdOp w = 0x12 → unitClass s.curU = 0)
    (hf : (if cmdOp w = 0x12 then followOn s w else .ok 0) = .ok f) :
    enqueue y s cx e a w =
      if cmdOp w = 0x12 ∧ (16 ≤ (s.myCore.queue (4 * s.curK.toNat + e)).entries.length
          ∨ 16 ≤ (s.myCore.queue (4 * s.curK.toNat)).entries.length) then
        .error (.block (.queuesFull (4 * s.curK.toNat + e) (4 * s.curK.toNat)))
      else if 16 ≤ (s.myCore.queue (4 * s.curK.toNat + e)).entries.length then
        .error (.block (.queueFull (4 * s.curK.toNat + e)))
      else putA s y ((s.myCore.queue (4 * s.curK.toNat + e)).nx + 1) >>= fun d =>
        .ok (d.enqueues s cx (4 * s.curK.toNat + e) w f) := by
  have h1 : ¬(!s.myCore.cmdAddrOk a || (frameOk e w).isSome || (decide (e = 0) && decide (unitClass s.curU ≠ 0))) = true := by
    simpa [EnqueueRefused, or_assoc] using h
  have h2 : ¬(decide (cmdOp w = 0x12) && decide (unitClass s.curU ≠ 0)) = true := by simpa using hu
  unfold enqueue
  dsimp only
  rw [if_neg h1, Rd.bind_ite_ok hf, if_neg h2]
  simp only [queueNo_eq, Nat.add_zero, Bool.and_eq_true, Bool.or_eq_true, decide_eq_true_iff, Queue.full_iff]
  rfl

section Plain

variable (h : ¬EnqueueRefused s e a w) (hop : cmdOp w ≠ 0x12)
include h hop

/-- A command blocks on its full queue (R164). -/
theorem enqueue_full (hx : 16 ≤ (s.myCore.queue (4 * s.curK.toNat + e)).entries.length) :
    enqueue y s cx e a w = .error (.block (.queueFull (4 * s.curK.toNat + e))) := by
  rw [enqueue_checked h (absurd · hop) (if_neg hop), if_neg (fun h => hop h.1), if_pos hx]

theorem enqueue_enters (hx : (s.myCore.queue (4 * s.curK.toNat + e)).entries.length < 16) (hd : freeA s y) :
    enqueue y s cx e a w = .ok ((doneA y ((s.myCore.queue (4 * s.curK.toNat + e)).nx + 1)).enqueues s cx
      (4 * s.curK.toNat + e) w 0) := by
  rw [enqueue_checked h (absurd · hop) (if_neg hop), if_neg (fun h => hop h.1), if_neg (by omega), Rd.bind_ok (putA_ok _ hd)]

end Plain

section Feedm

variable (h : ¬EnqueueRefused s e a w) (hop : cmdOp w = 0x12) (hu : unitClass s.curU = 0) (hf : followOn s w = .ok f)
include h hop hu hf

/-- A FEEDM blocks until both queues have room (R220). -/
theorem enqueue_feedm_full (hx : 16 ≤ (s.myCore.queue (4 * s.curK.toNat + e)).entries.length
      ∨ 16 ≤ (s.myCore.queue (4 * s.curK.toNat)).entries.length) :
    enqueue y s cx e a w = .error (.block (.queuesFull (4 * s.curK.toNat + e) (4 * s.curK.toNat))) := by
  rw [enqueue_checked h (fun _ => hu) ((if_pos hop).trans hf), if_pos ⟨hop, hx⟩]

theorem enqueue_feedm_enters (hx : (s.myCore.queue (4 * s.curK.toNat + e)).entries.length < 16)
    (h0 : (s.myCore.queue (4 * s.curK.toNat)).entries.length < 16) (hd : freeA s y) :
    enqueue y s cx e a w = .ok ((doneA y ((s.myCore.queue (4 * s.curK.toNat + e)).nx + 1)).enqueues s cx
      (4 * s.curK.toNat + e) w f) := by
  rw [enqueue_checked h (fun _ => hu) ((if_pos hop).trans hf), if_neg (by omega), if_neg (by omega),
    Rd.bind_ok (putA_ok _ hd)]

end Feedm

/-! ### ENQ and ENQP -/

theorem slotEnq_eq (hs : (if y.len = .x96 then (.ok (y.lit.setWidth 64) : Rd W64) else readA s y.s1) = .ok a)
    (ha : s.myCore.cmdAddrOk a = true) (hw : readCommand s a.toNat = .ok w) :
    slotEnq y s cx = enqueue y s cx (y.form.toNat % 4) a w := by
  have hs : (if isX y then (.ok (y.lit.setWidth 64) : Rd W64) else readA s y.s1) = .ok a := by simpa [isX] using hs
  have hform : field y.form 1 0 = y.form.toNat % 4 := by simp [field]
  unfold slotEnq
  dsimp only
  rw [Rd.bind_ite_ok hs, if_neg (by simp [ha]), Rd.bind_ok hw, hform]

theorem slotEnqp_eq {w1 w2 : CmdWord} (ha : s.myCore.cmdAddrOk (BitVec.ofNat 64 (field y.lit 20 5 * 32)) = true)
    (hw : readCommand s (field y.lit 20 5 * 32) = .ok w)
    (h1 : applyPatch s w (bit y.lit 29) (bit y.lit 24) (field y.lit 23 21) y.s2 = .ok w1)
    (h2 : applyPatch s w1 (bit y.lit 30) (bit y.lit 28) (field y.lit 27 25) y.s3 = .ok w2) :
    slotEnqp y s cx = enqueue y s cx (y.form.toNat % 4) (BitVec.ofNat 64 (field y.lit 20 5 * 32)) w2 := by
  have haddr : (BitVec.ofNat 64 (field y.lit 20 5 * 32)).toNat = field y.lit 20 5 * 32 := by
    have : field y.lit 20 5 < 2 ^ 16 := Nat.mod_lt _ (Nat.two_pow_pos 16)
    rw [BitVec.toNat_ofNat]
    omega
  have hform : field y.form 1 0 = y.form.toNat % 4 := by simp [field]
  unfold slotEnqp
  dsimp only
  rw [if_neg (by simp [ha]), haddr, Rd.bind_ok hw, Rd.bind_ok h1, Rd.bind_ok h2, hform]

end Enqueue

/-- Settles O21: the checks of an enqueue, its waits for room and its commit. -/
theorem enqueueCommits : Obligations.EnqueueCommits := by
  refine ⟨fun y s cx e a w _ hop => ⟨enqueue_refused, fun ha hf hu => ⟨enqueue_full (not_refused ha hf hu) hop, fun hx hd => ?_⟩⟩,
    fun y s cx e a w f _ hop ha hf hu hfo => ?_, fun y s a w d hs ha hw he hi => ?_, fun y s w w1 w2 d ha hw h1 h2 he hi => ?_,
    State.pushCommand_spec, fun w j v b _ hb => ⟨getLsbD_patchWord w j 1 v b hb, fun _ => getLsbD_patchWord w j 2 v b hb⟩⟩
  · rw [enqueue_enters (not_refused ha hf hu) hop hx hd]
    simp only [Done.enqueues, if_neg hop, decide_eq_false hop, Bool.false_and, Bool.or_false]
  · have hr := not_refused ha hf (.inr hu)
    refine ⟨enqueue_feedm_full hr hop hu hfo, fun hx h0 hd => ?_⟩
    rw [enqueue_feedm_enters hr hop hu hfo hx h0 hd]
    simp only [Done.enqueues, if_pos hop, decide_eq_true hop, Bool.true_and]
  · exact completes_of rfl (exec_slot (.enq y) s _ y rfl) hi ((slotEnq_eq hs ha hw).trans he)
  · exact completes_of rfl (exec_slot (.enqp y) s _ y rfl) hi ((slotEnqp_eq ha hw h1 h2).trans he)

end Sys2Proof.Machine
end

section
/-! PROOFS. What the operations of the product-polynomial accumulator leave (O33). -/

namespace Sys2Proof.Machine

/-! ### Coefficients of a table -/

/-- What is read of coefficients listed from number b on. -/
theorem get_coefs_from (l : List Nat) (b k : Nat) :
    Table.get (0 : W32) (((List.range' b l.length).zip l).foldr
      (fun p t => if p.2 % 2 ^ 32 = 0 then t else (p.1, BitVec.ofNat 32 p.2) :: t) []) k
      = if k < b then 0 else BitVec.ofNat 32 (lane l (k - b)) := by
  induction l generalizing b with
  | nil => simp [Table.get, lane]
  | cons v l ih =>
    have ih := ih (b + 1)
    simp only [List.length_cons, List.range'_succ, List.zip_cons_cons, List.foldr_cons]
    generalize List.foldr _ _ _ = t at ih
    have hhead : Table.get 0 (if v % 2 ^ 32 = 0 then t else (b, BitVec.ofNat 32 v) :: t) k
        = if b = k then BitVec.ofNat 32 v else Table.get 0 t k := by
      split
      · next hv =>
        have hzero : BitVec.ofNat 32 v = 0 := BitVec.eq_of_toNat_eq (by simpa using hv)
        by_cases hk : b = k
        · rw [if_pos hk, ih, if_pos (by omega), hzero]
        · rw [if_neg hk]
      · rfl
    rw [hhead, ih]
    obtain hk | rfl | hk := Nat.lt_trichotomy k b
    · rw [if_neg (by omega), if_pos (by omega), if_pos hk]
    · simp [lane]
    · obtain ⟨d, rfl⟩ : ∃ d, k = b + 1 + d := ⟨k - (b + 1), by omega⟩
      rw [if_neg (by omega), if_neg (by omega), if_neg (by omega), show b + 1 + d - b = d + 1 by omega,
        Nat.add_sub_cancel_left]
      simp [lane]

theorem get_coefTable (l : List Nat) (k : Nat) : Table.get 0 (coefTable l) k = BitVec.ofNat 32 (lane l k) := by
  rw [coefTable, List.range_eq_range', get_coefs_from, if_neg (Nat.not_lt_zero k), Nat.sub_zero]

theorem lane_map_range (f : Nat → Nat) {n k : Nat} (h : k < n) : lane ((List.range n).map f) k = f k := by
  simp [lane, h]

theorem any_upto_iff (p : Nat → Bool) (n : Nat) : (List.range (n + 1)).any p = true ↔ ∃ k, k ≤ n ∧ p k = true := by
  simp only [List.any_eq_true, List.mem_range, Nat.lt_succ_iff]

theorem all_upto_iff (p : Nat → Bool) (n : Nat) : (List.range (n + 1)).all p = true ↔ ∀ k, k ≤ n → p k = true := by
  simp only [List.all_eq_true, List.mem_range, Nat.lt_succ_iff]

theorem Table.get_filter_keys {α : Type} (d : α) (p : Nat → Bool) (t : Table α) (k : Nat) :
    Table.get d (t.filter (fun e => p e.1)) k = if p k then Table.get d t k else d := by
  induction t with
  | nil => simp [Table.get]
  | cons e t ih =>
    obtain ⟨i, v⟩ := e
    simp only [List.filter_cons]
    by_cases hk : i = k
    · subst hk
      by_cases hp : p i = true <;> simp [hp, ih, Table.get]
    · by_cases hp : p i = true <;> simp [hp, hk, ih, Table.get]

namespace PpAcc

theorem coef_of_le {x : PpAcc} {k : Nat} (h : k ≤ x.deg.toNat) : x.coef k = Table.get 0 x.c k := if_pos h

/-- A coefficient of an accumulator that was filled from a list. -/
theorem toNat_coef_of_map {x : PpAcc} {n k : Nat} {f : Nat → Nat} (hc : x.c = coefTable ((List.range (n + 1)).map f))
    (hn : x.deg.toNat = n) (h : k ≤ n) : (x.coef k).toNat = f k % 2 ^ 32 := by
  rw [coef_of_le (hn ▸ h), hc, get_coefTable, lane_map_range f (by omega), BitVec.toNat_ofNat]

/-! ### SCL and the rescale -/

@[simp] theorem coef_addScl (x : PpAcc) (d : Int) (k : Nat) : (x.addScl d).coef k = x.coef k := rfl

theorem toInt_scl_addScl {x : PpAcc} {d : Int} (hlo : -(2 ^ 31) ≤ x.scl.toInt + d) (hhi : x.scl.toInt + d < 2 ^ 31) :
    (x.addScl d).scl.toInt = x.scl.toInt + d := by
  have hsat : (⟨32, true⟩ : ITy).saturate (x.scl.toInt + d) = x.scl.toInt + d := by
    have hmin : (⟨32, true⟩ : ITy).min = -(2 ^ 31) := rfl
    have hmax : (⟨32, true⟩ : ITy).max = 2 ^ 31 - 1 := rfl
    rw [ITy.saturate, hmin, hmax, if_neg (by omega), if_neg (by omega)]
  rw [addScl, hsat]
  exact BitVec.toInt_ofInt_eq_self (by decide) hlo (by simpa using hhi)

/-- Some coefficient is 2^64 or more in magnitude (R237). -/
def Big (x : PpAcc) : Prop := ∃ k, k ≤ x.deg.toNat ∧ magBelow (x.val k) 64 = false

/-- Every coefficient lies below 2^-64, and not all of them are zero or NaN (R237). -/
def Small (x : PpAcc) : Prop :=
  (∀ k, k ≤ x.deg.toNat → magBelow (x.val k) (-64) = true)
    ∧ ∃ k, k ≤ x.deg.toNat ∧ (x.val k).isNan = false ∧ (x.val k).isZero = false

/-- The coefficients moved by 2^e, and SCL against it. -/
def scaledBy (x : PpAcc) (ftz : Bool) (e : Int) : PpAcc :=
  { x with c := coefTable ((List.range (x.deg.toNat + 1)).map
      (fun k => f32.roundTo .rne false ftz ((x.val k).scale e))) }.addScl (-e)

variable {x : PpAcc} {ftz : Bool}

theorem toNat_coef_scaledBy (e : Int) {k : Nat} (h : k ≤ x.deg.toNat) :
    ((x.scaledBy ftz e).coef k).toNat = f32.roundTo .rne false ftz ((x.val k).scale e) % 2 ^ 32 := by
  apply toNat_coef_of_map
  case hc => rfl
  case hn => rfl
  case h => exact h

theorem toInt_scl_scaledBy {e : Int} (hlo : -(2 ^ 31) ≤ x.scl.toInt + -e) (hhi : x.scl.toInt + -e < 2 ^ 31) :
    (x.scaledBy ftz e).scl.toInt = x.scl.toInt + -e :=
  toInt_scl_addScl hlo hhi

theorem any_big_iff : ((List.range (x.deg.toNat + 1)).map x.val).any (fun v => !magBelow v 64) = true ↔ x.Big := by
  rw [List.any_map, any_upto_iff, Big]
  simp only [Function.comp_apply, Bool.not_eq_true']

theorem all_small_iff :
    (((List.range (x.deg.toNat + 1)).map x.val).all (fun v => magBelow v (-64))
      && ((List.range (x.deg.toNat + 1)).map x.val).any (fun v => !v.isNan && !v.isZero)) = true ↔ x.Small := by
  rw [List.all_map, List.any_map, Bool.and_eq_true, all_upto_iff, any_upto_iff, Small]
  simp only [Function.comp_apply, Bool.and_eq_true, Bool.not_eq_true']

theorem rescale_big (h : x.Big) : x.rescale ftz = x.scaledBy ftz (-64) := by
  unfold rescale
  simp only [any_big_iff.2 h, Bool.true_or, if_true, List.map_map]
  rfl

theorem rescale_small (hb : ¬x.Big) (h : x.Small) : x.rescale ftz = x.scaledBy ftz 64 := by
  unfold rescale
  simp only [Bool.eq_false_iff.2 (mt any_big_iff.1 hb), all_small_iff.2 h, Bool.or_true, if_true, List.map_map]
  rfl

theorem rescale_none (hb : ¬x.Big) (h : ¬x.Small) : x.rescale ftz = x := by
  unfold rescale
  simp only [Bool.eq_false_iff.2 (mt any_big_iff.1 hb), Bool.eq_false_iff.2 (mt all_small_iff.1 h)]
  rfl

/-! ### The operations -/

/-- A removal that is not stable is refused (R240). -/
theorem remove_unstable {mode : Nat → Mode} {a b : Nat}
    (h : (f32.decode a).isFinite = false ∨ (f32.decode b).isFinite = false
      ∨ (∃ k, k ≤ x.deg.toNat ∧ (x.val k).isFinite = false)
      ∨ ((f32.decode a).isZero = true ∧ (f32.decode b).isZero = true)
      ∨ (a % 2 ^ 31 < b % 2 ^ 31 ∧ x.trunc = true)) : x.remove mode ftz a b = { x with unstable := true } := by
  have hany : (List.range (x.deg.toNat + 1)).any (fun k => !(x.val k).isFinite) = true
      ↔ ∃ k, k ≤ x.deg.toNat ∧ (x.val k).isFinite = false := by
    rw [any_upto_iff]
    simp only [Bool.not_eq_true']
  unfold remove
  dsimp only
  rw [← hany] at h
  split
  · rfl
  · next hn =>
    simp only [Bool.or_eq_true, Bool.not_eq_true', Bool.and_eq_true, not_or] at hn
    obtain ⟨⟨⟨ha, hb⟩, hx⟩, hz⟩ := hn
    obtain ⟨hlt, htr⟩ := (((h.resolve_left ha).resolve_left hb).resolve_left hx).resolve_left hz
    rw [if_neg (by omega), if_pos htr]

theorem coef_setConst_zero (v : W32) :
    (x.setConst v).coef 0 = if (f32.decode v.toNat).isNan then 0x7FC00000 else v := by
  rw [coef_of_le (Nat.zero_le _), setConst, get_coefTable]
  show BitVec.ofNat 32 (if (f32.decode v.toNat).isNan then 0x7FC00000 else v.toNat) = _
  split
  · rfl
  · exact BitVec.ofNat_toNat 32 v |>.trans v.setWidth_eq

theorem coef_setConst_pos (v : W32) {k : Nat} (h : 0 < k) : (x.setConst v).coef k = 0 := by
  obtain ⟨j, rfl⟩ : ∃ j, k = j + 1 := ⟨k - 1, by omega⟩
  unfold coef
  split
  · rw [setConst, get_coefTable]
    rfl
  · rfl

theorem coef_setDegree (n : BitVec 6) (k : Nat) :
    (x.setDegree n).coef k = if k ≤ n.toNat then x.coef k else 0 := by
  have hget := Table.get_filter_keys 0 (fun i => decide (i ≤ n.toNat) && decide (i ≤ x.deg.toNat)) x.c k
  simp only [Bool.and_eq_true, decide_eq_true_eq] at hget
  unfold coef setDegree
  dsimp only
  by_cases hn : k ≤ n.toNat
  · rw [if_pos hn, if_pos hn, hget]
    simp only [hn, true_and]
  · rw [if_neg hn, if_neg hn]

theorem toNat_coef_load (row : Row) (scl st : W32) {k : Nat} (h : k ≤ field st 5 0) :
    ((x.load row scl st).coef k).toNat = elemAt 32 row k := by
  have hdeg : (x.load row scl st).deg.toNat = field st 5 0 := by
    simp [load, field]
  have h64 : field st 5 0 < 64 := by
    simpa [field] using Nat.mod_lt st.toNat (show 0 < 64 by decide)
  have hlane : lane ((rowLanes 32 row).take (field st 5 0 + 1)) k = elemAt 32 row k := by
    rw [← lane_rowLanes 32 row k (by omega)]
    simp [lane, Nat.lt_succ_of_le h]
  rw [coef_of_le (by omega), load, get_coefTable, hlane, BitVec.toNat_ofNat]
  exact Nat.mod_eq_of_lt (elemAt_lt 32 row k)

end PpAcc

/-! ### The head of an accumulator's queue -/

theorem PpOp.modeAt_zero (o : PpOp) : o.modeAt 0 = fun k => mkMode o.mode o.key o.ctr.toNat k := by
  funext k
  rw [PpOp.modeAt, Nat.zero_add]

/-- What an event takes of the head of the queue, and what it leaves of it, stand in the accumulator's place (R233). -/
theorem ppApplies_of {i : Instr} {s : State} {u : UnitNo} {n : Nat} {o : PpOp} {rest : List PpOp} {x : PpAcc}
    {f : PpOp → PpAcc → Option (PpAcc × Option PpOp)} {left : Option PpOp} (hnext : PpNext s u n o rest)
    (hi : exec i s = .next (s.setCore u ((s.core u).applyHead n f))) (hf : f o ((s.core u).acc n) = some (x, left)) :
    PpApplies i s u n x (left.toList ++ rest) := by
  obtain ⟨hops, hmerge⟩ := hnext
  rw [PpApplies, hi, Core.applyHead]
  simp only [hops, hmerge, hf, Bool.false_eq_true, if_false]

/-- Settles O33: each event takes the head of the queue that is its own, and what each operation leaves is read off the
coefficients that it lists. -/
theorem ppaOperationsApplyInQueueOrder : Obligations.PpaOperationsApplyInQueueOrder := by
  refine ⟨fun u pp s ⟨kind, mode, ftz, key, ctr⟩ rest hnext => ⟨?_, ?_, ?_, ?_, ?_, ?_, ?_⟩,
    fun x mode ftz a b => ⟨_, rfl, rfl, rfl, rfl, fun k h => ?_⟩,
    fun x p mode ftz => ⟨_, rfl, rfl, rfl, fun k h => ?_⟩,
    fun x mode ftz a b => PpAcc.remove_unstable,
    fun x v => ⟨rfl, rfl, rfl, rfl, PpAcc.coef_setConst_zero v, fun k => PpAcc.coef_setConst_pos v⟩,
    fun x n => ⟨rfl, PpAcc.coef_setDegree n⟩,
    fun x row scl st => ⟨rfl, rfl, rfl, fun k => PpAcc.toNat_coef_load row scl st⟩,
    fun x ftz => ⟨fun hb => ?_, fun hb hs => ?_, PpAcc.rescale_none⟩⟩
  · rintro j a b (_ | fs) ⟨⟩
    · exact ppApplies_of (i := .ppaApplyFactor u pp) hnext rfl rfl
    · exact ppApplies_of (i := .ppaApplyFactor u pp) hnext rfl rfl
  · rintro src ⟨⟩
    rw [← PpOp.modeAt_zero]
    exact ppApplies_of (i := .ppaApplyMerge u pp) hnext rfl rfl
  · rintro a b ⟨⟩
    rw [← PpOp.modeAt_zero]
    exact ppApplies_of (i := .ppaApplyRemove u pp) hnext rfl rfl
  · rintro v ⟨⟩
    exact ppApplies_of (i := .ppaApplySet u pp) hnext rfl rfl
  · rintro n ⟨⟩
    exact ppApplies_of (i := .ppaApplySet u pp) hnext rfl rfl
  · rintro k ⟨⟩
    exact ppApplies_of (i := .ppaApplySet u pp) hnext rfl rfl
  · rintro row scl st ⟨⟩
    exact ppApplies_of (i := .ppaApplySet u pp) hnext rfl rfl
  · apply PpAcc.toNat_coef_of_map
    case hc => rfl
    case hn => rfl
    case h => exact h
  · apply PpAcc.toNat_coef_of_map
    case hc => rfl
    case hn => rfl
    case h => exact h
  · have hhi := x.scl.toInt_lt
    have hlo := x.scl.le_toInt
    rw [PpAcc.rescale_big hb]
    exact ⟨fun k => PpAcc.toNat_coef_scaledBy (-64), fun h => PpAcc.toInt_scl_scaledBy (by omega) (by omega)⟩
  · have hhi := x.scl.toInt_lt
    have hlo := x.scl.le_toInt
    rw [PpAcc.rescale_small hb hs]
    exact ⟨fun k => PpAcc.toNat_coef_scaledBy 64, fun h => PpAcc.toInt_scl_scaledBy (by omega) (by omega)⟩

end Sys2Proof.Machine
end

section
/-! PROOFS. The instructions of the product-polynomial accumulator (O32). -/

namespace Sys2Proof.Machine

/-! ### Appending an operation -/

section Append

variable {i : Instr} {maj : Nat} {y : Syl} {s : State} {kind : PpKind} {mode : BitVec 3} (len : Nat)

theorem appendOp_ok (h : (s.myCore.acc y.d.toNat).ops.length < 4) : appendOp s y ⟨0, len⟩ kind mode
    = .ok ((Done.plain (fun t => t.setMyCore (t.myCore.setAcc y.d.toNat { t.myCore.acc y.d.toNat with
        ops := (t.myCore.acc y.d.toNat).ops ++ [⟨kind, mode, s.me.ftz, s.me.srkey, s.me.srctr⟩] }))).counted mode) := by
  have hctr : s.me.srctr + BitVec.ofNat 32 0 = s.me.srctr := BitVec.add_zero _
  unfold appendOp
  rw [if_neg (by omega), hctr]

theorem appendOp_stall (h : 4 ≤ (s.myCore.acc y.d.toNat).ops.length) : appendOp s y ⟨0, len⟩ kind mode = .error .stall :=
  if_pos h

/-- An instruction whose meaning comes to an append (R233). -/
theorem appends_of (h : i.syl? = some (maj, y)) (hi : Issues i s)
    (hf : slotRun i s ⟨0, y.len.bytes⟩ = appendOp s y ⟨0, y.len.bytes⟩ kind mode) : Appends i y s kind mode :=
  ⟨fun hl => completes_of h (exec_slot i s maj y h) hi (hf.trans (appendOp_ok _ hl)),
    fun hl => stalls_of h (exec_slot i s maj y h) hi (hf.trans (appendOp_stall _ hl))⟩

end Append

/-! ### Reading an accumulator -/

section Read

variable {s : State} {n : Nat}

theorem readAcc_ok (h : (s.myCore.acc n).ops = []) : readAcc s n = .ok (s.myCore.acc n) :=
  if_pos (List.isEmpty_iff.2 h)

/-- A reader waits for the queue to be empty (R233). -/
theorem readAcc_stall (h : (s.myCore.acc n).ops ≠ []) : readAcc s n = .error .stall :=
  if_neg (mt List.isEmpty_iff.1 h)

theorem accOk_ok {x : PpAcc} (h : x.psn = false) : accOk x n = .ok () := if_neg (by simp [h])

theorem accOk_poison {x : PpAcc} (h : x.psn = true) : accOk x n = .error (.trap 0x19 0 (BitVec.ofNat 64 n)) := if_pos h

/-- The row that PPRD makes of the coefficients (R248). -/
theorem elemAt_coefRow (x : PpAcc) {k : Nat} (h : k < 64) :
    elemAt 32 (packRow 32 ((List.range 64).map (fun k => (x.coef k).toNat))) k
      = if k ≤ x.deg.toNat then (Table.get 0 x.c k).toNat else 0 := by
  rw [elemAt_packRow 32 _ k (by omega), lane_map_range _ h, Nat.mod_eq_of_lt (x.coef k).isLt]
  exact apply_ite BitVec.toNat _ _ _

end Read

/-! ### The meanings -/

/-- The factors that a PPMULV appends: the active lanes of two rows, BF16 entering exactly (R244). -/
def maskedFactors (ty : BitVec 4) (m : MaskReg) (a b : Row) : List (Nat × Nat × Nat) :=
  ((List.range (2048 / (if ty = 0 then 32 else 16))).filter (laneOn (if ty = 0 then 32 else 16) m)).map
    (fun j => if ty = 0 then (j, elemAt 32 a j, elemAt 32 b j) else (j, elemAt 16 a j * 2 ^ 16, elemAt 16 b j * 2 ^ 16))

section Meanings

variable {y : Syl} {s : State} {c : Ctx}

section Word

variable {v : W32} (hv : src2W s y = .ok v)
include hv

theorem slotPpset_eq : slotPpset y s c = appendOp s y c (.const v) 0 := Rd.bind_ok hv

theorem slotPpscl_eq : slotPpscl y s c = appendOp s y c (.scale v) 0 := Rd.bind_ok hv

theorem slotPpdeg_eq (h : v.toNat ≤ 63) : slotPpdeg y s c = appendOp s y c (.degree (v.setWidth 6)) 0 :=
  (Rd.bind_ok hv).trans (Rd.bind_ok (needOp_ok (decide_eq_true h)))

/-- A degree above 63 is refused (R243). -/
theorem slotPpdeg_above (h : 63 < v.toNat) : slotPpdeg y s c = .error (.trap 0x02 0 0) :=
  (Rd.bind_ok hv).trans (Rd.bind_error (needOp_trap (decide_eq_false (by omega))))

variable {a : W32} (ha : readW s y.s1 = .ok a)
include ha

theorem slotPpmul_eq : slotPpmul y s c = appendOp s y c (.factors [(0, a.toNat, v.toNat)]) (s.modeOf y.rm) :=
  (Rd.bind_ok ha).trans (Rd.bind_ok hv)

theorem slotPpdiv_eq : slotPpdiv y s c = appendOp s y c (.remove a.toNat v.toNat) (s.modeOf y.rm) :=
  (Rd.bind_ok ha).trans (Rd.bind_ok hv)

end Word

theorem slotPpmulv_eq {a b : Row} {m : MaskReg} (ha : readV s y.s1 = .ok a)
    (hb : src2V s y (if y.ty = 0 then 32 else 16) = .ok b) (hm : readM s y.s3 = .ok m) :
    slotPpmulv y s c = appendOp s y c (.factors (maskedFactors y.ty m a b)) (s.modeOf y.rm) := by
  unfold slotPpmulv maskedFactors
  dsimp only
  rw [Rd.bind_ok ha, Rd.bind_ok hb, Rd.bind_ok hm]
  congr 2
  refine List.map_congr_left fun j hj => ?_
  have hj := List.mem_range.1 (List.mem_filter.1 hj).1
  rw [lane_rowLanes _ a j hj, lane_rowLanes _ b j hj]
  by_cases h : y.ty = 0 <;> simp only [h, factorLane, if_true, if_false]

theorem slotPpmrg_eq (h : (s.myCore.acc (fieldNo y.s1)).ops = []) :
    slotPpmrg y s c = appendOp s y c (.merge (BitVec.ofNat 3 (fieldNo y.s1))) (s.modeOf y.rm) :=
  Rd.bind_ok (readAcc_ok h)

/-- The reserved bits of the status word that a PPWR takes are zero (R249). -/
theorem ppwr_status_ok (st : W32) :
    (field st 7 6 = 0 && field st 31 12 = 0) = true ↔ st.toNat / 64 % 4 = 0 ∧ st.toNat < 2 ^ 12 := by
  have hst := st.isLt
  have h1 : field st 7 6 = st.toNat / 64 % 4 := rfl
  have h2 : field st 31 12 = st.toNat / 2 ^ 12 % 2 ^ 20 := rfl
  simp only [h1, h2, Bool.and_eq_true, decide_eq_true_eq]
  omega

section Load

variable {row : Row} {scl st : W32} (hr : readV s y.s1 = .ok row) (hs : src2W s y = .ok scl) (ht : readW s y.s3 = .ok st)
include hr hs ht

theorem slotPpwr_eq (h1 : st.toNat / 64 % 4 = 0) (h2 : st.toNat < 2 ^ 12) :
    slotPpwr y s c = appendOp s y c (.load row scl st) 0 := by
  unfold slotPpwr
  rw [Rd.bind_ok hr, Rd.bind_ok hs, Rd.bind_ok ht, Rd.bind_ok (needOp_ok ((ppwr_status_ok st).2 ⟨h1, h2⟩))]

theorem slotPpwr_reserved (h : st.toNat / 64 % 4 ≠ 0 ∨ 2 ^ 12 ≤ st.toNat) : slotPpwr y s c = .error (.trap 0x02 0 0) := by
  have hbad := Bool.eq_false_iff.2 (mt (ppwr_status_ok st).1 (by omega))
  unfold slotPpwr
  rw [Rd.bind_ok hr, Rd.bind_ok hs, Rd.bind_ok ht, Rd.bind_error (needOp_trap hbad)]

end Load

/-- PPRD, PPRDX and PPRDST read the accumulator first. -/
theorem slotRun_reader {i : Instr} (h : i ∈ [Instr.pprd y, .pprdx y, .pprdst y]) :
    i.syl? = some (0x6E, y) ∧ ∃ f, ∀ c, slotRun i s c = readAcc s (fieldNo y.s1) >>= f := by
  simp only [List.mem_cons, List.not_mem_nil, or_false] at h
  obtain rfl | rfl | rfl := h
  · exact ⟨rfl, _, fun _ => rfl⟩
  · exact ⟨rfl, _, fun _ => rfl⟩
  · exact ⟨rfl, _, fun _ => rfl⟩

/-- PPRD and PPRDX look for poison next. -/
theorem slotRun_coef_reader {i : Instr} (h : i ∈ [Instr.pprd y, .pprdx y]) :
    i.syl? = some (0x6E, y) ∧ ∃ f : PpAcc → Unit → Rd Done, ∀ c, slotRun i s c
      = readAcc s (fieldNo y.s1) >>= fun x => accOk x (fieldNo y.s1) >>= f x := by
  simp only [List.mem_cons, List.not_mem_nil, or_false] at h
  obtain rfl | rfl := h
  · exact ⟨rfl, _, fun _ => rfl⟩
  · exact ⟨rfl, _, fun _ => rfl⟩

variable (h : (s.myCore.acc (fieldNo y.s1)).ops = [])
include h

theorem slotPprdst_eq : slotPprdst y s = putW s y (s.myCore.acc (fieldNo y.s1)).status := Rd.bind_ok (readAcc_ok h)

variable (hp : (s.myCore.acc (fieldNo y.s1)).psn = false)
include hp

theorem slotPprdx_eq : slotPprdx y s = putW s y (s.myCore.acc (fieldNo y.s1)).scl :=
  (Rd.bind_ok (readAcc_ok h)).trans (Rd.bind_ok (accOk_ok hp))

theorem slotPprd_eq : slotPprd y s
    = putV s y (packRow 32 ((List.range 64).map (fun k => ((s.myCore.acc (fieldNo y.s1)).coef k).toNat))) :=
  (Rd.bind_ok (readAcc_ok h)).trans (Rd.bind_ok (accOk_ok hp))

end Meanings

/-- Settles O32: each meaning comes to an append, a wait, a trap or a read of the accumulator. -/
theorem accumulatorInstructions : Obligations.AccumulatorInstructions := by
  refine ⟨fun y s v hv => ⟨fun hi => appends_of rfl hi (slotPpset_eq hv), fun hi => appends_of rfl hi (slotPpscl_eq hv),
      fun hi => ⟨fun h => ?_, fun h => appends_of rfl hi (slotPpdeg_eq hv h)⟩,
      fun a ha => ⟨fun hi => appends_of rfl hi (slotPpmul_eq hv ha), fun hi => appends_of rfl hi (slotPpdiv_eq hv ha)⟩⟩,
    fun y s a b m hi ha hb hm => appends_of rfl hi (slotPpmulv_eq ha hb hm),
    fun y s hi => ⟨fun h => ?_, fun h => appends_of rfl hi (slotPpmrg_eq h)⟩,
    fun y s row scl st hi hr hs ht => ⟨fun h => ?_, fun h1 h2 => appends_of rfl hi (slotPpwr_eq hr hs ht h1 h2)⟩,
    fun y s => ⟨fun h i hmem hi => ?_, fun h hp i hmem hi => ?_, fun h => completesW_of rfl (slotPprdst_eq h),
      fun h hp => completesW_of rfl (slotPprdx_eq h hp), fun h hp hi hf => ⟨_, ?_, fun k => elemAt_coefRow _⟩⟩⟩
  · exact traps_of rfl (exec_slot (.ppdeg y) s _ y rfl) hi (slotPpdeg_above hv h)
  · exact stalls_of rfl (exec_slot (.ppmrg y) s _ y rfl) hi (Rd.bind_error (readAcc_stall h))
  · exact traps_of rfl (exec_slot (.ppwr y) s _ y rfl) hi (slotPpwr_reserved hr hs ht h)
  · obtain ⟨hs, f, hf⟩ := slotRun_reader (s := s) hmem
    exact stalls_of hs (exec_slot i s _ y hs) hi ((hf _).trans (Rd.bind_error (readAcc_stall h)))
  · obtain ⟨hs, f, hf⟩ := slotRun_coef_reader (s := s) hmem
    refine traps_of hs (exec_slot i s _ y hs) hi ((hf _).trans ?_)
    rw [Rd.bind_ok (readAcc_ok h), Rd.bind_error (accOk_poison hp)]
  · exact completes_of rfl (exec_slot (.pprd y) s _ y rfl) hi ((slotPprd_eq h hp).trans (putV_ok _ hf))

end Sys2Proof.Machine
end

section
/-! PROOFS. The group instructions (O22). -/

namespace Sys2Proof.Machine

/-! ### Groups of a cluster -/

theorem State.groupOf_of_clusters {s t : State} (h : t.clusters = s.clusters) (n g : Nat) : t.groupOf n g = s.groupOf n g := by
  rw [State.groupOf, State.groupOf, State.cluster, State.cluster, h]

@[simp] theorem State.groupOf_setGroup_self (s : State) (n g : Nat) (x : Group) : (s.setGroup n g x).groupOf n g = x := by
  simp [State.groupOf, State.setGroup]

@[simp] theorem State.endRun_clusters (s : State) (u : UnitNo) (k : StrandNo) (r : RunState) :
    (s.endRun u k r).clusters = s.clusters := by
  unfold State.endRun
  dsimp only
  split <;> rfl

/-- Of the groups a wait changes what its bundle leaves behind, and no more (R260, R261). -/
theorem State.blockHere_clusters (s : State) (w : Wait) : (s.blockHere w).clusters = (s.blockEffect w).clusters := by
  unfold State.blockHere
  dsimp only
  split
  · rfl
  · rw [State.setMe_clusters, State.endRun_clusters, State.tickCore_clusters]

/-- Who leaves is of no group any more (R256). -/
theorem State.group_leaveGroup (s : State) : (State.leaveGroup s).myCore.group = none := by
  unfold State.leaveGroup
  dsimp only
  split
  · next h => split <;> exact h
  · rw [State.myCore_setMyCore]

/-! ### The join -/

/-- Strand k of core i of the cluster has joined the group under this mask, and its join has not completed. -/
def Group.HasJoined (x : Group) (i k : Nat) (mask : BitVec 16) : Prop :=
  x.joined.getLsbD i = true ∧ Table.get 8 x.strands i = k ∧ x.mask = mask ∧ x.done.getLsbD i = false

/-- The acting core may join a group under this mask (R259, R260). -/
def State.MayJoin (s : State) (x : Group) (mask : BitVec 16) : Prop :=
  mask.getLsbD s.myBit = true ∧ s.maskPresent mask = true ∧ s.myCore.group = none
    ∧ (¬∃ p ∈ (s.cluster (unitCluster s.curU)).groups, p.2.joined.getLsbD s.myBit = true)
    ∧ (x.joined = 0 ∨ x.mask = mask)

/-- The group after the first join of core i, by its strand k. -/
def Group.join (x : Group) (i k : Nat) (mask : BitVec 16) (start : W64) : Group :=
  { x with mask := mask, joined := x.joined ||| BitVec.twoPow 16 i, strands := Table.set x.strands i k, startAt := start }

/-- What a completed join leaves: the group knows it (R260). -/
def State.completeJoin (v : W32) (t : State) : State :=
  let x := t.groupOf (unitCluster t.curU) (field v 17 16)
  t.setGroup (unitCluster t.curU) (field v 17 16) { x with done := x.done ||| BitVec.twoPow 16 t.myBit }

/-- What a completed rendezvous leaves: the group has unparked the member (R261). -/
def State.completeSync (g : Nat) (t : State) : State :=
  let x := t.groupOf (unitCluster t.curU) g
  t.setGroup (unitCluster t.curU) g { x with synced := x.synced &&& ~~~(BitVec.twoPow 16 t.myBit) }

theorem State.getLsbD_memberMask (s : State) (v : W32) : (v.setWidth 16).getLsbD s.myBit = v.getLsbD s.myBit := by
  have h : s.myBit < 16 := Nat.mod_lt _ (by decide)
  simp [h]

theorem Group.hasJoined_iff (x : Group) (i k : Nat) (mask : BitVec 16) :
    (x.joined.getLsbD i && Table.get 8 x.strands i == k && x.mask == mask && !x.done.getLsbD i) = true
      ↔ x.HasJoined i k mask := by
  simp only [Bool.and_eq_true, beq_iff_eq, Bool.not_eq_true', and_assoc, Group.HasJoined]

theorem State.mayJoin_iff (s : State) (x : Group) (mask : BitVec 16) :
    (mask.getLsbD s.myBit && s.maskPresent mask && s.myCore.group.isNone && !s.hasJoined
      && (x.joined == 0 || x.mask == mask)) = true ↔ s.MayJoin x mask := by
  simp only [State.hasJoined, Bool.and_eq_true, Bool.or_eq_true, beq_iff_eq, Bool.not_eq_true', Option.isNone_iff_eq_none,
    and_assoc, State.MayJoin, ← List.any_eq_true, Bool.not_eq_true]

section Join

variable {y : Syl} {s : State} {v : W32} (hv : groupSpec s y = .ok v)
include hv

section Joined

variable (h : (s.groupOf (unitCluster s.curU) (field v 17 16)).HasJoined s.myBit s.curK.toNat (v.setWidth 16))
include h

theorem slotSgrp_joined : slotSgrp y s =
    if (s.groupOf (unitCluster s.curU) (field v 17 16)).started then .ok (Done.plain (State.completeJoin v))
    else .error (.block (.group (field v 17 16) (v.setWidth 16))) :=
  (Rd.bind_ok hv).trans (if_pos ((Group.hasJoined_iff _ _ _ _).2 h))

end Joined

section NotJoined

variable (h : ¬(s.groupOf (unitCluster s.curU) (field v 17 16)).HasJoined s.myBit s.curK.toNat (v.setWidth 16))
include h

theorem slotSgrp_joins (hm : s.MayJoin (s.groupOf (unitCluster s.curU) (field v 17 16)) (v.setWidth 16)) :
    slotSgrp y s = .error (.block (.group (field v 17 16) (v.setWidth 16))) :=
  (Rd.bind_ok hv).trans ((if_neg (mt (Group.hasJoined_iff _ _ _ _).1 h)).trans
    (Rd.bind_ok (needOp_ok ((s.mayJoin_iff _ _).2 hm))))

theorem slotSgrp_refused (hm : ¬s.MayJoin (s.groupOf (unitCluster s.curU) (field v 17 16)) (v.setWidth 16)) :
    slotSgrp y s = .error (.trap 0x02 0 0) :=
  (Rd.bind_ok hv).trans ((if_neg (mt (Group.hasJoined_iff _ _ _ _).1 h)).trans
    (Rd.bind_error (needOp_trap (Bool.eq_false_iff.2 (mt (s.mayJoin_iff _ _).1 hm)))))

end NotJoined

end Join

section BlockedJoin

variable {s : State} {g : Nat} (mask : BitVec 16)

/-- The first join of a core is noted with the strand that made it (R260). -/
theorem State.groupOf_first_join (h1 : (s.groupOf (unitCluster s.curU) g).started = false)
    (h2 : (s.groupOf (unitCluster s.curU) g).joined.getLsbD s.myBit = false) :
    ∃ start, (s.blockHere (.group g mask)).groupOf (unitCluster s.curU) g
      = (s.groupOf (unitCluster s.curU) g).join s.myBit s.curK.toNat mask start := by
  have hj : s.blockEffect (.group g mask) = s.setGroup (unitCluster s.curU) g
      ((s.groupOf (unitCluster s.curU) g).join s.myBit s.curK.toNat mask _) :=
    if_neg (Bool.eq_false_iff.1 (Bool.or_eq_false_iff.2 ⟨h1, h2⟩))
  exact ⟨_, by rw [State.groupOf_of_clusters (s.blockHere_clusters _), hj, State.groupOf_setGroup_self]⟩

/-- A join of a group under way, or a second one, leaves the group as it is. -/
theorem State.groupOf_join_again (h : (s.groupOf (unitCluster s.curU) g).started = true
    ∨ (s.groupOf (unitCluster s.curU) g).joined.getLsbD s.myBit = true) :
    (s.blockHere (.group g mask)).groupOf (unitCluster s.curU) g = s.groupOf (unitCluster s.curU) g := by
  have hj : s.blockEffect (.group g mask) = s := if_pos (Bool.or_eq_true_iff.2 h)
  rw [State.groupOf_of_clusters (s.blockHere_clusters _), hj]

end BlockedJoin

/-! ### The member's instructions -/

theorem myGroup_some {s : State} {g : BitVec 2} (h : s.myCore.group = some g) : myGroup s = .ok g.toNat := by
  rw [myGroup, h]

theorem myGroup_none {s : State} (h : s.myCore.group = none) : myGroup s = .error (.trap 0x02 0 0) := by
  rw [myGroup, h]
  rfl

/-- SGLEAVE, SGSYNC and SGRD ask for the core's group first (R260). -/
theorem slotRun_asks_group {y : Syl} {s : State} {i : Instr} (h : i ∈ [Instr.sgleave y, .sgsync y, .sgrd y]) :
    i.syl? = some (0x4F, y) ∧ ∃ f, ∀ c, slotRun i s c = myGroup s >>= f := by
  simp only [List.mem_cons, List.not_mem_nil, or_false] at h
  obtain rfl | rfl | rfl := h
  · exact ⟨rfl, _, fun _ => rfl⟩
  · exact ⟨rfl, _, fun _ => rfl⟩
  · exact ⟨rfl, _, fun _ => rfl⟩

section Member

variable (y : Syl) {s : State} {g : BitVec 2} (hg : s.myCore.group = some g)
include hg

theorem slotSgleave_eq : slotSgleave y s = .ok (Done.plain State.leaveGroup) := Rd.bind_ok (myGroup_some hg)

theorem slotSgrd_eq : slotSgrd y s = putA s y (s.groupOf (unitCluster s.curU) g.toNat).scnt := Rd.bind_ok (myGroup_some hg)

theorem slotSgsync_eq : slotSgsync y s =
    if (s.groupOf (unitCluster s.curU) g.toNat).synced.getLsbD s.myBit then .ok (Done.plain (State.completeSync g.toNat))
    else .error (.block (.sync g.toNat)) := Rd.bind_ok (myGroup_some hg)

end Member

/-- Settles O22: each meaning by what it finds of the core's group, and what a join leaves of its slot. -/
theorem groupInstructions : Obligations.GroupInstructions := by
  refine ⟨fun y s hg i hmem hi => ?_,
    fun y s g hg => ⟨fun hi => ?_, completesA_of rfl (slotSgrd_eq y hg), fun hi h => ?_, fun hi h => ?_⟩,
    State.group_leaveGroup, fun y s v hi hv => ⟨fun hm => ?_, fun hm => ⟨fun h1 h2 h3 h4 h5 => ?_, fun h => ?_⟩⟩,
    fun s g mask _ => ⟨fun h1 h2 => ?_, State.groupOf_join_again mask⟩⟩
  · obtain ⟨hs, f, hf⟩ := slotRun_asks_group (s := s) hmem
    exact traps_of hs (exec_slot i s _ y hs) hi ((hf _).trans (Rd.bind_error (myGroup_none hg)))
  · exact completes_of rfl (exec_slot (.sgleave y) s _ y rfl) hi (slotSgleave_eq y hg)
  · exact blocks_of rfl (exec_slot (.sgsync y) s _ y rfl) hi ((slotSgsync_eq y hg).trans (if_neg (Bool.eq_false_iff.1 h)))
  · exact completes_of rfl (exec_slot (.sgsync y) s _ y rfl) hi ((slotSgsync_eq y hg).trans (if_pos h))
  · exact waitsFor_of rfl hi (fun h => (slotSgrp_joined hv hm).trans (if_pos h))
      (fun h => (slotSgrp_joined hv hm).trans (if_neg h))
  · exact blocks_of rfl (exec_slot (.sgrp y) s _ y rfl) hi
      (slotSgrp_joins hv hm ⟨(s.getLsbD_memberMask v).trans h1, h2, h3, h4, h5⟩)
  · refine traps_of rfl (exec_slot (.sgrp y) s _ y rfl) hi (slotSgrp_refused hv hm ?_)
    rintro ⟨h1, h2, h3, h4, h5⟩
    rcases h with h | h | h | h | ⟨h, h'⟩
    · exact Bool.false_ne_true (h.symm.trans ((s.getLsbD_memberMask v).symm.trans h1))
    · exact Bool.false_ne_true (h.symm.trans h2)
    · exact h h3
    · exact h4 h
    · exact h5.elim h h'
  · obtain ⟨start, hx⟩ := State.groupOf_first_join mask h1 h2
    dsimp only
    rw [hx]
    exact ⟨rfl, rfl, Table.get_set_self _ _ _ _, h1⟩

end Sys2Proof.Machine
end

section
/-! PROOFS. Paired accumulate (O37). -/

namespace Sys2Proof.Machine

/-! ### Tables -/

theorem Table.mem_insert {α : Type} (k : Nat) (v : α) (t : Table α) (p : Nat × α) :
    p ∈ Table.insert k v t ↔ p = (k, v) ∨ p ∈ t := by
  induction t with
  | nil => simp [Table.insert]
  | cons e t ih =>
    obtain ⟨i, x⟩ := e
    unfold Table.insert
    split
    · simp
    · simp only [List.mem_cons, ih, or_left_comm]

/-- Under a key that was set stands what was set alone. -/
theorem Table.eq_of_mem_set {α : Type} {t : Table α} {k : Nat} {v x : α} (h : (k, x) ∈ Table.set t k v) : x = v := by
  rcases (Table.mem_insert _ _ _ _).1 h with h | h
  · exact congrArg Prod.snd h
  · have hhas : Table.has (Table.erase k t) k = true := List.any_eq_true.2 ⟨_, h, beq_self_eq_true k⟩
    rw [Table.has_erase] at hhas
    cases hhas

theorem Table.get_map_pairs {α : Type} (d : α) (f : Nat → α) (l : List Nat) (k : Nat) :
    Table.get d (l.map (fun i => (i, f i))) k = if k ∈ l then f k else d := by
  induction l with
  | nil => rfl
  | cons i l ih =>
    by_cases h : i = k
    · simp [Table.get, h]
    · simp [Table.get, h, Ne.symm h, ih]

/-! ### Pair units -/

theorem State.setPairUnit_eq (s : State) (u : UnitNo) (p : PairUnit) :
    s.setPairUnit u.toNat p = s.setCore u { s.core u with pair := p } := by
  simp [State.setPairUnit]

@[simp] theorem State.core_setPairUnit_self (s : State) (u : UnitNo) (p : PairUnit) :
    (s.setPairUnit u.toNat p).core u = { s.core u with pair := p } := by
  rw [State.setPairUnit_eq, State.core_setCore_self]

theorem State.core_setPairUnit (s : State) (n : Nat) (p : PairUnit) (v : UnitNo) :
    (s.setPairUnit n p).core v = if BitVec.ofNat 10 n = v then { s.core v with pair := p } else s.core v := by
  rw [State.setPairUnit, State.core_setCore]
  split
  · next h => rw [h]
  · rfl

/-- A message changes of a core its pair unit alone. -/
theorem State.core_sendPair (s : State) (n : Nat) (m : PairMsg) (v : UnitNo) :
    ∃ p, (s.sendPair n m).core v = { s.core v with pair := p } := by
  rw [State.sendPair, State.core_setPairUnit]
  split
  · exact ⟨_, rfl⟩
  · exact ⟨_, rfl⟩

/-! ### The PACC under way -/

theorem Core.openPacc_of_decided {c : Core} (h : ∀ r, (0, r) ∈ c.eng → r.out ≠ none) : c.openPacc = none := by
  have hn : c.eng.find? (fun (p : Nat × EngRun) => p.1 == 0 && p.2.op == 0x06 && p.2.out.isNone) = none := by
    rw [List.find?_eq_none]
    rintro ⟨i, r⟩ hm hp
    simp only [Bool.and_eq_true, beq_iff_eq, Option.isNone_iff_eq_none] at hp
    obtain ⟨⟨rfl, _⟩, hout⟩ := hp
    exact h r hm hout
  rw [Core.openPacc, hn]

theorem Core.mem_of_openPacc {c : Core} {r : EngRun} {cmd : Cmd} (h : c.openPacc = some (r, cmd)) :
    (0, r) ∈ c.eng ∧ r.op = 0x06 ∧ r.out = none := by
  unfold Core.openPacc at h
  split at h
  · next i r' hf =>
    have hp := List.find?_some hf
    simp only [Bool.and_eq_true, beq_iff_eq, Option.isNone_iff_eq_none] at hp
    obtain ⟨⟨rfl, hop⟩, hout⟩ := hp
    split at h
    · cases h
      exact ⟨List.mem_of_find?_eq_some hf, hop, hout⟩
    · cases h
  · cases h

theorem Core.mem_eng_decide {c : Core} {r : EngRun} {cmd : Cmd} (o : CmdOut) (h : c.openPacc = some (r, cmd)) :
    (0, { r with out := some o }) ∈ (c.decide o).eng := by
  obtain ⟨hm, hop, hout⟩ := Core.mem_of_openPacc h
  refine List.mem_map.2 ⟨(0, r), hm, ?_⟩
  rw [if_pos]
  simp [hop, hout]

section OpenWith

variable {c : Core} {m : PairMsg} {r : EngRun} {cmd : Cmd}

theorem Core.openWith_partner (h : c.openPacc = some (r, cmd)) (hv : paccPartner cmd = m.src) : c.openWith m = some r := by
  rw [Core.openWith, h]
  exact if_pos (by simp [hv])

theorem Core.openWith_none (h : c.openPacc = none) : c.openWith m = none := by rw [Core.openWith, h]

end OpenWith

theorem PairUnit.dropFrom_src {p : PairUnit} {v : Nat} {d : PairMsg} (hb : p.buf = some d) (hv : d.src = v) :
    p.dropFrom v = { p with buf := none, bad := false, keptFor := [] } := by
  rw [PairUnit.dropFrom, hb]
  exact if_pos (by simp [hv])

theorem PairUnit.aborted_dropFrom (p : PairUnit) (v : Nat) : (p.dropFrom v).aborted = p.aborted := by
  unfold PairUnit.dropFrom
  split
  · split <;> rfl
  · rfl

theorem PairUnit.heldAborts_dropFrom (p : PairUnit) (v : Nat) : (p.dropFrom v).heldAborts = p.heldAborts := by
  unfold PairUnit.dropFrom
  split
  · split <;> rfl
  · rfl

/-! ### The lower side's decision -/

section Decide

variable {s : State} {u : UnitNo}

theorem State.decideLower_undecided (h : (s.core u).openPacc = none ∨ (s.core u).pair.buf = none) : s.decideLower u = s := by
  unfold State.decideLower
  dsimp only
  split
  · next hp hb =>
    rcases h with h | h
    · rw [h] at hp
      cases hp
    · rw [h] at hb
      cases hb
  · rfl

variable {r : EngRun} {cmd : Cmd} {own d : PairMsg} (hp : (s.core u).openPacc = some (r, cmd)) (ho : r.own = some own)
  (hb : (s.core u).pair.buf = some d)
include hp ho hb

theorem State.decideLower_higher (hl : lowerSide u.toNat (paccPartner cmd) = false) : s.decideLower u = s := by
  unfold State.decideLower
  simp only [hp, ho, hb]
  exact if_pos (by simp [hl])

theorem State.decideLower_partner (hv : d.src = paccPartner cmd) (hl : lowerSide u.toNat (paccPartner cmd) = true) :
    s.decideLower u =
      if pairEqual own d && (s.core u).pair.bad then
        (s.decided u (paccOut stPoisoned d.src own.tag)).sendPair d.src (pairMsg .commit u.toNat own.tag)
      else if pairEqual own d then
        let c1 := (s.core u).decide (paccSum own d true)
        (s.setCore u { c1 with pair := { c1.pair with buf := none } }).sendPair d.src (pairMsg .commit u.toNat own.tag)
      else (s.decided u (paccOut stPairMismatch d.src own.tag)).sendPair d.src (pairMsg .mismatch u.toNat own.tag) := by
  unfold State.decideLower
  simp only [hp, ho, hb, hv]
  exact if_neg (by simp [hl])

end Decide

/-! ### The sum -/

theorem elemAt_paccRow (tty : BitVec 4) (m : Mode) (ftz : Bool) (lo hi : Row) {j : Nat} (h : j < 64) :
    elemAt 32 (paccRow tty m ftz lo hi) j = (if tty = 8 then elemAt 32 lo j + elemAt 32 hi j
      else faddElem f32 m ftz false (elemAt 32 lo j) (elemAt 32 hi j)) % 2 ^ 32 := by
  have hl (r : Row) : j < (rowLanes 32 r).length := by rwa [length_rowLanes]
  rw [paccRow, elemAt_packRow 32 _ j (by omega), lane_zipWith _ _ _ j (hl lo) (hl hi), lane_rowLanes 32 lo j h,
    lane_rowLanes 32 hi j h]

/-- The row i that both sides form, from the DATA of the lower and of the higher one (R264). -/
def paccSumRow (a b : PairMsg) (i : Nat) : Row :=
  paccRow a.tty (mkMode a.rm 0 0 0) a.ftz (Table.get 0 a.rows i) (Table.get 0 b.rows i)

theorem mem_paccSum_lower (a b : PairMsg) {i : Nat} (h : i < 64) :
    (rowKey a.tile.toNat i, BitVec.allOnes 256, paccSumRow a b i) ∈ (paccSum a b true).rows :=
  List.mem_map.2 ⟨i, List.mem_range.2 h, rfl⟩

theorem mem_paccSum_higher {a b : PairMsg} (he : pairEqual a b = true) {i : Nat} (h : i < 64) :
    (rowKey b.tile.toNat i, BitVec.allOnes 256, paccSumRow a b i) ∈ (paccSum b a false).rows := by
  simp only [pairEqual, Bool.and_eq_true, beq_iff_eq] at he
  obtain ⟨⟨⟨_, htty⟩, hrm⟩, hftz⟩ := he
  refine List.mem_map.2 ⟨i, List.mem_range.2 h, ?_⟩
  rw [paccSumRow, htty, hrm, hftz]
  rfl

/-! ### The start -/

/-- The command is under way with an outcome, or with the tile that it sent. -/
def State.takenUp (t : State) (q : QRef) (op : Nat) (e : QEntry) (out : Option CmdOut) (own : Option PairMsg) : State :=
  { (t.setCore q.unit { t.core q.unit with
      eng := Table.set (t.core q.unit).eng (q.queue.toNat % 4) ⟨q.queue.toNat, e.num, op, (t.core q.unit).cycle, out, own,
        false, ((t.core q.unit).reach.map Reach.vas).getD []⟩
      reach := none }).dropReqs (fun r => r.owner == some (q.unit.toNat, queueMark q.queue.toNat)) with tick := t.tick + 1 }

/-- A command that its engine takes is under way with what its start leaves, unless it has to wait. -/
theorem State.startWith_eq {q : QRef} {op : Nat} {c : Cmd} {s : State} {e : QEntry} {f : CmdStart} {t : State}
    {out : Option CmdOut} {own : Option PairMsg} (h : Takes q op c s e)
    (hf : f (ctxOf q op c s e) c (s.turned q op c) = (out, own, t)) (hw : out.any (fun o => o.status == stWait) = false) :
    s.startWith q op c f = t.takenUp q op e out own := by
  obtain ⟨⟨rest, hq⟩, hword, hidle, hturn⟩ := h
  unfold State.startWith
  dsimp only
  split
  · next heq =>
    rw [hq] at heq
    cases heq
  · next heq =>
    rw [hq] at heq
    cases heq
    rw [if_neg (by simp [hword, hidle, hturn])]
    unfold ctxOf preOf State.turned chainOf at hf
    by_cases h4 : q.queue.toNat % 4 = 0
    all_goals
      simp only [h4, if_true, if_false] at hf ⊢
      rw [hf]
      simp only [hw, h4, State.takenUp, Bool.false_eq_true, if_false]

/-- A partner in the same cluster is a bad field, so that the check of the partner is for its presence and partition. -/
theorem paccThere_iff {x : CmdCtx} {c : Cmd} {s : State} (hb : paccBadField x.unit c = false) :
    (s.unitPresent (paccPartner c) && s.unitPart (BitVec.ofNat 10 (paccPartner c)) == s.unitPart x.unit
      && field c.pay 12 8 ≠ x.unit.toNat / 16) = true
    ↔ s.unitPresent (paccPartner c) = true ∧ s.unitPart (BitVec.ofNat 10 (paccPartner c)) = s.unitPart x.unit := by
  have hcluster : field c.pay 12 8 ≠ x.unit.toNat / 16 := by
    intro heq
    simp [paccBadField, heq] at hb
  simp [hcluster]

/-- A row of the tile that a PACC reads has an uncorrectable error. -/
def PoisonedTile (core : Core) (c : Cmd) : Prop := ∃ i, i < 64 ∧ core.rowBad (rowKey (field c.pay 2 0) i) = true

theorem poisonedTile_iff (core : Core) (c : Cmd) :
    (List.range 64).any (fun i => core.rowBad (rowKey (field c.pay 2 0) i)) = true ↔ PoisonedTile core c := by
  simp only [List.any_eq_true, List.mem_range, PoisonedTile]

section Run

variable {x : CmdCtx} {c : Cmd} {s : State} (hx : x.pre = none)
include hx

theorem runPacc_badField (hb : paccBadField x.unit c = true) :
    runPacc x c s = (some (paccOut stBadField (paccPartner c) (paccTag c)), none, s) := by
  unfold runPacc
  simp only [hx, hb, if_true]

variable (hb : paccBadField x.unit c = false)
include hb

theorem runPacc_noPartner (hn : ¬(s.unitPresent (paccPartner c) = true
      ∧ s.unitPart (BitVec.ofNat 10 (paccPartner c)) = s.unitPart x.unit)) :
    runPacc x c s = (some (paccOut stPartnerFault (paccPartner c) (paccTag c)), none, s) := by
  have hthere := Bool.eq_false_iff.2 (mt (paccThere_iff (s := s) hb).1 hn)
  unfold runPacc
  simp only [hx, hb, hthere, Bool.false_eq_true, if_false, Bool.not_false, if_true]

variable (ht : s.unitPresent (paccPartner c) = true ∧ s.unitPart (BitVec.ofNat 10 (paccPartner c)) = s.unitPart x.unit)
  (hh : (paccPartner c, paccTag c) ∉ (s.core x.unit).pair.heldAborts)
include ht hh

theorem runPacc_poisoned (hp : PoisonedTile (s.core x.unit) c) :
    runPacc x c s = (some (paccOut stPoisoned (paccPartner c) (paccTag c)), none,
      s.sendPair (paccPartner c) (pairMsg .faulted x.unit.toNat (paccTag c))) := by
  have hthere := (paccThere_iff hb).2 ht
  have hbad := (poisonedTile_iff _ _).2 hp
  have hheld : (s.core x.unit).pair.heldAborts.contains (paccPartner c, paccTag c) = false := by simpa using hh
  unfold runPacc
  simp only [hx, hb, hthere, hbad, hheld, Bool.false_eq_true, if_false, Bool.not_true, if_true]

/-- The tile is sent, and the partner's saved context stops the timeout (R264, R266). -/
theorem runPacc_sends (hp : ¬PoisonedTile (s.core x.unit) c) :
    runPacc x c s = (none, some (paccData x.unit c (s.core x.unit)),
      (s.setPairUnit x.unit.toNat { (s.core x.unit).pair with
        pausedAt := if (s.core (BitVec.ofNat 10 (paccPartner c))).pair.saved then some (s.core x.unit).cycle else none }).sendPair
          (paccPartner c) (paccData x.unit c (s.core x.unit))) := by
  have hthere := (paccThere_iff hb).2 ht
  have hbad := Bool.eq_false_iff.2 (mt (poisonedTile_iff _ _).1 hp)
  have hheld : (s.core x.unit).pair.heldAborts.contains (paccPartner c, paccTag c) = false := by simpa using hh
  unfold runPacc
  simp only [hx, hb, hthere, hbad, hheld, Bool.false_eq_true, if_false, Bool.not_true]

end Run

theorem row_paccData (u : UnitNo) (c : Cmd) (core : Core) {i : Nat} (h : i < 64) :
    Table.get 0 (paccData u c core).rows i = core.row (rowKey (field c.pay 2 0) i) :=
  (Table.get_map_pairs 0 _ _ i).trans (if_pos (List.mem_range.2 h))

/-- The PACC is under way with the tile that it sent, and not decided. -/
def State.sentTile (t : State) (q : QRef) (e : QEntry) (d : PairMsg) : State :=
  { (t.setCore q.unit { t.core q.unit with
      eng := Table.set (t.core q.unit).eng 0 ⟨q.queue.toNat, e.num, 0x06, (t.core q.unit).cycle, none, some d, false, []⟩
      reach := none }).dropReqs (fun r => r.owner == some (q.unit.toNat, queueMark q.queue.toNat)) with tick := t.tick + 1 }

section Start

variable {q : QRef} {c : Cmd} {s : State} {e : QEntry}

theorem State.core_turned (op : Nat) : (s.turned q op c).core q.unit =
    { (s.core q.unit).setQueue q.queue.toNat { (s.core q.unit).queue q.queue.toNat with chain := (chainOf q op c s).1 } with
      served := Table.set (s.core q.unit).served (q.queue.toNat % 4) q.queue.toNat
      chainLock := if q.queue.toNat % 4 = 0 then (chainOf q op c s).1.isSome else (s.core q.unit).chainLock
      reach := some ⟨queueMark q.queue.toNat, [], [], []⟩ } :=
  State.core_setCore_self _ _ _

theorem State.pair_turned (op : Nat) : ((s.turned q op c).core q.unit).pair = (s.core q.unit).pair := by
  rw [State.core_turned]
  rfl

theorem State.row_turned (op k : Nat) : ((s.turned q op c).core q.unit).row k = (s.core q.unit).row k := by
  rw [State.core_turned]
  rfl

theorem State.poisonedTile_turned (op : Nat) :
    PoisonedTile ((s.turned q op c).core q.unit) c ↔ PoisonedTile (s.core q.unit) c := by
  rw [State.core_turned]
  exact Iff.rfl

/-- A PACC that has an outcome from its start is not under way. -/
theorem State.openPacc_takenUp (t : State) (op : Nat) (e : QEntry) (o : CmdOut) (own : Option PairMsg)
    (h4 : q.queue.toNat % 4 = 0) : ((t.takenUp q op e (some o) own).core q.unit).openPacc = none := by
  refine Core.openPacc_of_decided fun r hr => ?_
  have heng : ((t.takenUp q op e (some o) own).core q.unit).eng = Table.set (t.core q.unit).eng (q.queue.toNat % 4)
      ⟨q.queue.toNat, e.num, op, (t.core q.unit).cycle, some o, own, false, ((t.core q.unit).reach.map Reach.vas).getD []⟩ :=
    congrArg Core.eng (State.core_setCore_self t q.unit _)
  rw [heng, h4] at hr
  rw [Table.eq_of_mem_set hr]
  exact Option.some_ne_none o

variable (h : Takes q 0x06 c s e) (h4 : q.queue.toNat % 4 = 0)
include h h4

/-- A PACC that fails at its start starts with that outcome. -/
theorem pacc_startsAt {t : State} {st : BitVec 8} (hw : st ≠ stWait)
    (hf : runPacc (ctxOf q 0x06 c s e) c (s.turned q 0x06 c) = (some (paccOut st (paccPartner c) (paccTag c)), none, t)) :
    StartsAt (.pacc q c) s q 0x06 e t (paccOut st (paccPartner c) (paccTag c)) := by
  have hstart := State.startWith_eq h hf (beq_eq_false_iff_ne.2 hw)
  have hdone := State.decideLower_undecided
    (.inl (State.openPacc_takenUp t 0x06 e (paccOut st (paccPartner c) (paccTag c)) none h4))
  exact congrArg Host.Outcome.next ((congrArg (·.decideLower q.unit) hstart).trans hdone)

/-- A PACC that sends its tile is under way, and decided where the partner's tile is there already. -/
theorem pacc_underWay {t : State} {d : PairMsg} (hreach : (t.core q.unit).reach = some ⟨queueMark q.queue.toNat, [], [], []⟩)
    (hf : runPacc (ctxOf q 0x06 c s e) c (s.turned q 0x06 c) = (none, some d, t)) :
    exec (.pacc q c) s = .next ((t.sentTile q e d).decideLower q.unit) := by
  have hstart := State.startWith_eq h hf rfl
  rw [State.takenUp, h4, hreach] at hstart
  exact congrArg (fun r : State => Host.Outcome.next (r.decideLower q.unit)) hstart

variable (hpre : preOf q 0x06 c s e = none) (hb : paccBadField q.unit c = false)
  (ht : s.unitPresent (paccPartner c) = true ∧ s.unitPart (BitVec.ofNat 10 (paccPartner c)) = s.unitPart q.unit)
  (hh : (paccPartner c, paccTag c) ∉ (s.core q.unit).pair.heldAborts)
include hpre hb ht hh

theorem pacc_poisoned (hp : PoisonedTile (s.core q.unit) c) :
    StartsAt (.pacc q c) s q 0x06 e ((s.turned q 0x06 c).sendPair (paccPartner c) (pairMsg .faulted q.unit.toNat (paccTag c)))
      (paccOut stPoisoned (paccPartner c) (paccTag c)) := by
  refine pacc_startsAt h h4 (by decide) (runPacc_poisoned hpre hb ht ?_ ?_)
  · dsimp only [ctxOf]
    rwa [State.pair_turned]
  · dsimp only [ctxOf]
    rwa [State.poisonedTile_turned]

theorem pacc_sends (hp : ¬PoisonedTile (s.core q.unit) c) :
    let s0 := s.turned q 0x06 c
    let d := paccData q.unit c (s0.core q.unit)
    let t := (s0.setPairUnit q.unit.toNat { (s0.core q.unit).pair with
      pausedAt := if (s0.core (BitVec.ofNat 10 (paccPartner c))).pair.saved then some (s0.core q.unit).cycle else none
      }).sendPair (paccPartner c) d
    exec (.pacc q c) s = .next ((t.sentTile q e d).decideLower q.unit) := by
  intro s0 d t
  refine pacc_underWay h h4 ?_ (runPacc_sends hpre hb ht ?_ ?_)
  · obtain ⟨p, hcore⟩ := State.core_sendPair (s0.setPairUnit q.unit.toNat _) (paccPartner c) d q.unit
    rw [hcore, State.core_setPairUnit_self, State.core_turned]
  · dsimp only [ctxOf]
    rwa [State.pair_turned]
  · dsimp only [ctxOf]
    rwa [State.poisonedTile_turned]

end Start

/-! ### Messages -/

section Deliver

variable {s s0 : State} {u : UnitNo} {k : PairKind} {m : PairMsg} (h : Delivers s u k m s0)
include h

/-- A delivered message is taken, and what its kind does with it is done in the state without it. -/
theorem Delivers.exec {i : Instr} {f : PairMsg → State → Option State} {t : State}
    (he : Machine.exec i s = .next (s.onPair u k f)) (hf : f m s0 = some t) : Machine.exec i s = .next t := by
  obtain ⟨hnext, hsaved, rfl⟩ := h
  rw [he]
  unfold State.onPair
  simp only [hnext]
  rw [if_neg (Bool.eq_false_iff.1 hsaved), hf]

theorem Delivers.core : s0.core u =
    { s.core u with pair := { (s.core u).pair with inbox := (s.core u).pair.inbox.erase m } } := by
  obtain ⟨_, _, rfl⟩ := h
  exact State.core_setPairUnit_self _ _ _

theorem Delivers.openPacc : (s0.core u).openPacc = (s.core u).openPacc := by rw [h.core]; rfl
theorem Delivers.openWith (n : PairMsg) : (s0.core u).openWith n = (s.core u).openWith n := by rw [h.core]; rfl
theorem Delivers.cycle : (s0.core u).cycle = (s.core u).cycle := by rw [h.core]
theorem Delivers.buf : (s0.core u).pair.buf = (s.core u).pair.buf := by rw [h.core]
theorem Delivers.bad : (s0.core u).pair.bad = (s.core u).pair.bad := by rw [h.core]
theorem Delivers.aborted : (s0.core u).pair.aborted = (s.core u).pair.aborted := by rw [h.core]
theorem Delivers.heldAborts : (s0.core u).pair.heldAborts = (s.core u).pair.heldAborts := by rw [h.core]
theorem Delivers.pausedAt : (s0.core u).pair.pausedAt = (s.core u).pair.pausedAt := by rw [h.core]
theorem Delivers.settled (n : PairMsg) : (s0.core u).pair.settled n = (s.core u).pair.settled n := by rw [h.core]; rfl

theorem Delivers.saved (v : UnitNo) : (s0.core v).pair.saved = (s.core v).pair.saved := by
  obtain ⟨_, _, rfl⟩ := h
  rw [State.setPairUnit_eq, State.core_setCore]
  split
  · next hv => rw [← hv]
  · rfl

end Deliver

section Events

variable {s s0 : State} {u : UnitNo} {m d : PairMsg} {r : EngRun} {cmd : Cmd} {own : PairMsg}

theorem paccData_dropped (h : Delivers s u .data m s0) (hl : lowerSide u.toNat m.src = true)
    (ha : m.tag ∈ (s.core u).pair.aborted) : exec (.paccData u) s = .next s0 := by
  refine h.exec rfl ?_
  dsimp only
  rw [if_pos (by simp [hl, h.aborted, ha])]

theorem paccData_buffered (h : Delivers s u .data m s0)
    (hn : lowerSide u.toNat m.src = false ∨ m.tag ∉ (s.core u).pair.aborted) (hb : (s.core u).pair.buf = none) :
    exec (.paccData u) s
      = .next (State.decideLower (s0.setPairUnit u.toNat { (s0.core u).pair with buf := some m, bad := false }) u) := by
  have htag : ¬(lowerSide u.toNat m.src && (s0.core u).pair.aborted.contains m.tag) = true := by
    rw [h.aborted]
    rcases hn with hn | hn
    · simp [hn]
    · simp [hn]
  refine h.exec rfl ?_
  dsimp only
  rw [if_neg htag, if_neg (by simp [h.buf, hb])]

section Committed

variable (h : Delivers s u .commit m s0) (hp : (s.core u).openPacc = some (r, cmd)) (hv : paccPartner cmd = m.src)
  (ho : r.own = some own) (hb : (s.core u).pair.buf = some d) (hd : d.src = m.src)
include h hp hv ho hb hd

theorem paccCommit_adds (hg : (s.core u).pair.bad = false) : ∃ c1, c1 = (s0.core u).decide (paccSum own d false)
    ∧ exec (.paccCommit u) s = .next (s0.setCore u { c1 with pair := { c1.pair with buf := none } }) := by
  refine ⟨_, rfl, h.exec rfl ?_⟩
  dsimp only
  simp only [h.openWith, Core.openWith_partner hp hv, h.buf, hb, ho, h.bad, hg, hd, bne_self_eq_false, Bool.false_eq_true,
    if_false]

/-- An error in the buffer is met while the sum is formed: the other side's OK stands (R265). -/
theorem paccCommit_poisoned (hg : (s.core u).pair.bad = true) : exec (.paccCommit u) s
    = .next ((s0.decided u (paccOut stPoisoned m.src own.tag)).sendPair m.src (faultedAfter u.toNat own.tag)) := by
  refine h.exec rfl ?_
  dsimp only
  simp only [h.openWith, Core.openWith_partner hp hv, h.buf, hb, ho, h.bad, hg, hd, bne_self_eq_false, Bool.false_eq_true,
    if_false, if_true]
  rfl

end Committed

theorem paccMismatch_decides (h : Delivers s u .mismatch m s0) (hp : (s.core u).openPacc = some (r, cmd))
    (hv : paccPartner cmd = m.src) :
    exec (.paccMismatch u) s = .next (s0.decided u (paccOut stPairMismatch m.src m.tag)) := by
  refine h.exec rfl ?_
  dsimp only
  rw [h.openWith, Core.openWith_partner hp hv]
  rfl

theorem paccAbort_decides (h : Delivers s u .abort m s0) (hp : (s.core u).openPacc = some (r, cmd))
    (hv : paccPartner cmd = m.src) (ho : r.own = some own) (ht : own.tag = m.tag) : exec (.paccAbort u) s = .next
      ((s0.setCore u ({ s0.core u with pair := (s0.core u).pair.dropFrom m.src }.decide
        (paccOut stPartnerLate m.src m.tag))).sendPair m.src (pairMsg .closed u.toNat m.tag)) := by
  refine h.exec rfl ?_
  dsimp only
  rw [h.openWith, Core.openWith_partner hp hv]
  exact if_pos (by simp [ho, ht])

/-- An ABORT that comes before the PACC it aborts is held for it (R266). -/
theorem paccAbort_held (h : Delivers s u .abort m s0) (hp : (s.core u).openPacc = none) : exec (.paccAbort u) s
    = .next (s0.setPairUnit u.toNat { (s0.core u).pair.dropFrom m.src with
        heldAborts := (m.src, m.tag) :: ((s0.core u).pair.dropFrom m.src).heldAborts }) := by
  refine h.exec rfl ?_
  dsimp only
  rw [h.openWith, Core.openWith_none hp]

theorem paccWithdraw_aborts (h : Delivers s u .withdraw m s0) (hb : (s.core u).pair.buf = some d) (hd : d.src = m.src)
    (ha : m.tag ∉ (s.core u).pair.aborted) : exec (.paccWithdraw u) s
      = .next ((s0.setPairUnit u.toNat { (s0.core u).pair.dropFrom m.src with
          aborted := m.tag :: (s0.core u).pair.aborted }).sendPair m.src (pairMsg .abort u.toNat m.tag)) := by
  refine h.exec rfl ?_
  dsimp only
  rw [h.buf, hb]
  exact if_neg (by simp [h.aborted, ha, hd])

theorem PairUnit.not_settled {p : PairUnit} (h : m.after = false ∨ ∃ d, p.buf = some d ∧ d.src = m.src) :
    p.settled m = false := by
  rcases h with h | ⟨d, hb, hd⟩
  · simp [PairUnit.settled, h]
  · simp [PairUnit.settled, hb, hd]

theorem PairUnit.settled_of_after {p : PairUnit} (ha : m.after = true) (hb : ∀ d, p.buf = some d → d.src ≠ m.src) :
    p.settled m = true := by
  cases h : p.buf with
  | none => simp [PairUnit.settled, h, ha]
  | some d => simp [PairUnit.settled, h, ha, hb d h]

theorem paccFaulted_decides (h : Delivers s u .faulted m s0) (hp : (s.core u).openPacc = some (r, cmd))
    (hv : paccPartner cmd = m.src) (hn : lowerSide u.toNat m.src = false ∨ m.after = false
      ∨ ∃ d, (s.core u).pair.buf = some d ∧ d.src = m.src) :
    exec (.paccFaulted u) s = .next (s0.decided u (paccOut stPartnerFault m.src m.tag)) := by
  have hopen : ¬(lowerSide u.toNat m.src && (s0.core u).pair.settled m) = true := by
    rw [h.settled]
    rcases hn with hn | hn
    · simp [hn]
    · simp [PairUnit.not_settled hn]
  refine h.exec rfl ?_
  dsimp only
  rw [if_neg hopen, h.openWith, Core.openWith_partner hp hv]
  rfl

theorem paccFaulted_settled (h : Delivers s u .faulted m s0) (hl : lowerSide u.toNat m.src = true)
    (hs : (s.core u).pair.settled m = true) : exec (.paccFaulted u) s = .next s0 := by
  refine h.exec rfl ?_
  dsimp only
  rw [if_pos (by simp [hl, h.settled, hs])]

theorem paccFaulted_dropped (h : Delivers s u .faulted m s0) (hl : lowerSide u.toNat m.src = true)
    (hp : (s.core u).openPacc = none) (ha : m.tag ∈ (s.core u).pair.aborted) : exec (.paccFaulted u) s = .next s0 := by
  refine h.exec rfl ?_
  dsimp only
  rw [h.openWith, Core.openWith_none hp]
  simp [hl, h.aborted, ha]

theorem paccParked_dropped (h : Delivers s u .parked m s0)
    (hn : (s.core (BitVec.ofNat 10 m.src)).pair.saved = false ∨ (s.core u).openWith m = none) :
    exec (.paccParked u) s = .next s0 := by
  refine h.exec rfl ?_
  dsimp only
  rw [h.saved, h.openWith]
  exact if_pos (by simpa using hn)

theorem paccParked_pauses (h : Delivers s u .parked m s0) (hs : (s.core (BitVec.ofNat 10 m.src)).pair.saved = true)
    (ho : (s.core u).openWith m ≠ none) : exec (.paccParked u) s = .next (s0.setPairUnit u.toNat { (s0.core u).pair with
      pausedAt := some ((s0.core u).pair.pausedAt.getD (s0.core u).cycle) }) := by
  refine h.exec rfl ?_
  dsimp only
  rw [h.saved, h.openWith]
  exact if_neg (by simpa [hs] using ho)

end Events

/-! ### Timeouts -/

section Timeout

variable {s : State} {u : UnitNo} {r : EngRun} {cmd : Cmd} (hp : (s.core u).openPacc = some (r, cmd))
  (ht : (s.core u).pair.pausedAt = none) (hs : (s.core u).pair.saved = false)
  (hc : (s.cluster (unitCluster u)).pairto.toNat ≤ ((s.core u).cycle - r.cc).toNat)
include hp ht hs hc

theorem State.pairLate_eq {b : Bool} (hl : lowerSide u.toNat (paccPartner cmd) = b) : s.pairLate u b = some (r, cmd) := by
  rw [State.pairLate, hp]
  exact if_pos (by simp [ht, hs, decide_eq_true hc, hl, -BitVec.toNat_sub])

theorem pairTimeoutLower_aborts (hl : lowerSide u.toNat (paccPartner cmd) = true) :
    ∃ c : Core, c = (s.core u).decide (paccOut stPartnerLate (paccPartner cmd) (paccTag cmd))
      ∧ exec (.pairTimeoutLower u) s = .next ((s.setCore u { c with pair := { c.pair with
          aborted := paccTag cmd :: c.pair.aborted } }).sendPair (paccPartner cmd) (pairMsg .abort u.toNat (paccTag cmd))) := by
  refine ⟨_, rfl, congrArg Host.Outcome.next ?_⟩
  rw [evPairTimeoutLower, State.pairLate_eq hp ht hs hc hl]

theorem pairTimeoutHigher_withdraws (hl : lowerSide u.toNat (paccPartner cmd) = false)
    (hw : (s.core u).pair.withdrawn = false) :
    exec (.pairTimeoutHigher u) s = .next ((s.setPairUnit u.toNat { (s.core u).pair with withdrawn := true }).sendPair
      (paccPartner cmd) (pairMsg .withdraw u.toNat (paccTag cmd))) := by
  refine congrArg Host.Outcome.next ?_
  rw [evPairTimeoutHigher, State.pairLate_eq hp ht hs hc hl]
  exact if_neg (by simp [hw])

end Timeout

/-! ### What is kept for FAULT -/

theorem Core.pair_retire_pacc (c : Core) {r : EngRun} (ok : Bool) (h : r.op = 0x06) :
    (c.retire r ok).pair = { c.pair with keptFor := if ok then [] else r.queue :: c.pair.keptFor } := by
  unfold Core.retire
  simp only [h, if_true]
  rfl

theorem Core.pair_clearFault_kept {c : Core} {q : Nat} (h : q ∈ c.pair.keptFor) :
    (c.clearFault q).pair = { c.pair with buf := none, bad := false, keptFor := [] } :=
  congrArg Core.pair (if_pos (List.contains_iff_mem.2 h))

theorem Core.pair_clearFault_other {c : Core} {q : Nat} (h : q ∉ c.pair.keptFor) : (c.clearFault q).pair = c.pair :=
  (congrArg Core.pair (if_neg (mt List.contains_iff_mem.1 h))).trans rfl

/-- Settles O37: what a PACC starts with, what the lower side decides, and what each message and timeout brings about. -/
theorem pairedAccumulate : Obligations.PairedAccumulate := by
  refine ⟨fun q c s e h hpre h4 => ⟨fun hb => ?_, fun hb hn => ?_, fun hb ht hp hh => ?_, fun hb ht hp hh => ?_⟩,
    fun s u => ⟨State.decideLower_undecided, fun r cmd own d hp ho hbuf => ⟨State.decideLower_higher hp ho hbuf,
      fun hv hl => ?_⟩⟩,
    fun a b he i hi => ⟨paccSumRow a b i, mem_paccSum_lower a b hi, mem_paccSum_higher he hi,
      fun j => elemAt_paccRow _ _ _ _ _⟩,
    fun c r cmd o hp => ⟨Core.mem_eng_decide o hp, rfl, rfl, rfl⟩,
    fun c r ok => c.pair_retire_pacc ok,
    fun c q => ⟨(c.clearFault_frame q q).1, Core.pair_clearFault_kept, Core.pair_clearFault_other⟩,
    fun u s s0 m => ⟨paccData_dropped, paccData_buffered, fun r cmd own d hp hv ho =>
        ⟨fun h => paccCommit_adds h hp hv ho, fun h => paccCommit_poisoned h hp hv ho,
          fun h => paccMismatch_decides h hp hv, fun h ht => ⟨_, rfl, paccAbort_decides h hp hv ho ht⟩,
          fun h => paccFaulted_decides h hp hv⟩,
      paccFaulted_dropped, fun h hl ha hbuf => paccFaulted_settled h hl (PairUnit.settled_of_after ha hbuf),
      fun h hp => ⟨_, paccAbort_held h hp, ?_, ?_⟩, fun d h hbuf hd ha => ⟨_, paccWithdraw_aborts h hbuf hd ha, ?_, ?_⟩,
      fun h => ⟨_, h.exec rfl rfl, h.buf, fun g => ?_⟩, paccParked_dropped,
      fun h hs ho => ⟨_, paccParked_pauses h hs ho, ?_, h.buf⟩⟩,
    fun u s r cmd hp ht hs hc => ⟨pairTimeoutLower_aborts hp ht hs hc, pairTimeoutHigher_withdraws hp ht hs hc⟩⟩
  · exact pacc_startsAt h h4 (by decide) (runPacc_badField hpre hb)
  · exact pacc_startsAt h h4 (by decide) (runPacc_noPartner hpre hb hn)
  · exact pacc_poisoned h h4 hpre hb ht hh hp
  · refine ⟨_, rfl, rfl, rfl, rfl, rfl, slice_toNat c.pay 4 4, fun i hi => ?_, pacc_sends h h4 hpre hb ht hh hp⟩
    rw [row_paccData _ _ _ hi, State.row_turned]
  · have hdec := State.decideLower_partner hp ho hbuf hv hl
    refine ⟨fun he hg => ?_, fun he hg => ⟨_, rfl, ?_⟩, fun he => ?_⟩
    · exact hdec.trans (if_pos (by simp [he, hg]))
    · exact hdec.trans ((if_neg (by simp [hg])).trans (if_pos he))
    · exact hdec.trans ((if_neg (by simp [he])).trans (if_neg (by simp [he])))
  · dsimp only
    rw [PairUnit.heldAborts_dropFrom, h.heldAborts]
  · exact (PairUnit.aborted_dropFrom _ _).trans h.aborted
  · dsimp only
    rw [PairUnit.dropFrom_src (h.buf.trans hbuf) hd]
  · dsimp only
    rw [h.aborted]
  · dsimp only
    rw [h.aborted]
    simp
  · dsimp only
    rw [h.pausedAt, h.cycle]

end Sys2Proof.Machine
end
